-- ==== Sys2Proof/Word.lean ====
section
/-! DEFINITION. The word types of the machine. -/

namespace Sys2Proof

/-- A byte of memory. -/
abbrev Byte := BitVec 8
/-- A 32-bit word: a scalar register, one lane of a vector register, a mask, a CSR (R22, R24). -/
abbrev Word := BitVec 32
/-- A 64-bit value: a register pair, an address (R22). -/
abbrev Dword := BitVec 64

end Sys2Proof
end

