-- ==== Sys2Proof/Syntax.lean ====
section
/-! DEFINITION. The syntax of the machine: the operand records of the three lane layouts (R47), the payloads that
the events of the outside world carry, and `Instr`, one constructor for each row of the table of operations and
events (the part's indivisible steps). -/

namespace Sys2Proof

/-- A scalar register number, s0 to s63 (R22). -/
abbrev SReg := BitVec 6
/-- A vector register number, v0 to v255 (R22). -/
abbrev VReg := BitVec 8
/-- A mask register number, k0 to k15 (R22). -/
abbrev KReg := BitVec 4
/-- A buffer-record register number, b0 to b15 (R22). -/
abbrev BReg := BitVec 4
/-- A line name of 16 bytes, byte 0 lowest (R267). -/
abbrev LineName := BitVec 128

/-- The fields of a lane instruction of layout L.A (R47, R48). `e` is the E bit, `m` the modifier bits [42:40]. -/
structure LA where
  ty : BitVec 4
  kq : KReg
  vd : BitVec 8
  va : BitVec 8
  vb : BitVec 8
  vc : BitVec 8
  e : Bool
  rnd : BitVec 3
  sat : Bool
  m : BitVec 3
  sub : BitVec 8
  imm : BitVec 32
  deriving DecidableEq, Repr

/-- The fields of a lane instruction of layout L.M (R47, R53). `second` is the second data register [55:48], `wc` the
width/count field [39:32], `disp` the signed byte displacement. -/
structure LM where
  ty : BitVec 4
  kq : KReg
  vd : BitVec 8
  voff : BitVec 8
  b : BReg
  stream : BitVec 2
  hint : BitVec 2
  second : BitVec 8
  e : Bool
  m : BitVec 3
  wc : BitVec 8
  disp : BitVec 32
  deriving DecidableEq, Repr

/-- The fields of a lane instruction of layout L.T (R47, R54). `md` is the metadata base, which names v0 to v127. -/
structure LT where
  shape : BitVec 4
  fmt : BitVec 3
  sparse : Bool
  a : BitVec 8
  b : BitVec 8
  ea : BitVec 8
  eb : BitVec 8
  e : Bool
  md : BitVec 7
  row0 : BitVec 4
  col0 : BitVec 4
  flags : BitVec 8
  deriving DecidableEq, Repr

/-- Names one team: the ticket of its launch, its cluster's linear index, its index in the cluster (R189). -/
structure TeamKey where
  ticket : Nat
  cluster : Nat
  team : Nat
  deriving DecidableEq, Repr

/-- What a PCIe ATS completion carries (R242): a host range of `2 ^ log` bytes and the host's permissions. -/
structure AtsReply where
  base : Nat
  log : Nat
  read : Bool
  write : Bool
  deriving DecidableEq, Repr

/-- What reaches a ticket of RINV or LAUNCHX (R405, R410): an accept, a NAK code, the reply carrying the launch status of
the handler, or one member's answer to a LAUNCHX request (its rank and the status word of R407). -/
inductive InvAnswer where
  | accept
  | nak (code : Nat)
  | reply (launchStatus : Nat)
  | fromMember (rank : Nat) (status : Nat) (detail : Nat)
  deriving DecidableEq, Repr

/-- A LAUNCHX request as a member receives it (R410): 0 reserve, 1 commit, 2 abort; the sender's generation. -/
structure LaunchxReq where
  op : Nat
  src : Word
  ticket : Word
  gen : BitVec 64
  record : List Byte
  deriving DecidableEq, Repr

/-- A reply to a line request (R427): NONAME, or the kind and the 256 bytes. -/
inductive LineReply where
  | noName
  | line (node : Bool) (bytes : List Byte)
  deriving DecidableEq, Repr

/-- A Gupol flit (R380). -/
structure Flit where
  seq : Word
  ack : Word
  type : Byte
  cls : Byte
  gen : BitVec 16
  crc : Word
  payload : List Byte
  deriving DecidableEq, Repr

/-- What the collective engine receives from another device (R389 to R395, R422). `kind`: 0 the exponents of one chunk's
groups of 64 elements, 1 their encoded terms with the linear checksums (R390, R391), 2 data, 3 a request for a chunk of
terms once more, 4 a listener's acknowledgement, 5 the sizes alone. `seq` counts the sender's collectives since its last swap. -/
structure CollChunk where
  comm : Nat
  seq : Nat
  tableId : Word
  gen : BitVec 16
  src : Word
  rank : Nat
  kind : Nat
  index : Nat
  op : Nat
  mode : Nat
  sendSize : Nat
  exps : List Int
  q : List Int
  checks : List Nat
  data : List Byte
  deriving DecidableEq, Repr

/-- Where a corrected error was found (R361, R367), and whether the one retry read correctly (R362). -/
structure ErrSite where
  unit : Nat
  loc : BitVec 16
  ctx : Nat
  pa : Nat
  synd : Word
  retryOk : Bool
  deriving DecidableEq, Repr

/-- An uncorrectable error in an LLC sector (R362 to R365): whether the one retry of the read and the written test
pattern read back correctly, whether it is a tag error, and the ways of the set whose owner can still be read. -/
structure LlcError where
  pa : Nat
  line : Nat
  retryOk : Bool
  patternOk : Bool
  tag : Bool
  readable : BitVec 16
  synd : Word
  deriving DecidableEq, Repr

/-- An HBM read in error (R361, R362, R366): unit 1, 2 or 3, and how many retries failed: of the layers there is one, of the
link up to four. -/
structure HbmError where
  pa : Nat
  unit : Nat
  failed : Nat
  synd : Word
  deriving DecidableEq, Repr

/-- An uncorrectable word of a core's pool, its accumulator store, or a pair's load value queue (R361): unit 6, 7, 8 or 10, the
group using the word, or the waiting team whose phase record holds it (launch ticket, cluster, team), and whether the one
retry read correctly. -/
structure PoolError where
  core : Nat
  unit : Nat
  g : Nat
  record : Option (Nat × Nat × Nat)
  retryOk : Bool
  synd : Word
  deriving DecidableEq, Repr

/-- A VRLD read request from another rank (R397). -/
structure ReplicaReq where
  src : Word
  comm : Nat
  va : Nat
  width : Nat
  tag : Nat
  deriving DecidableEq, Repr

/-- The operations and events of the part, one constructor for each row of the table. The scalar instructions carry
their operand fields, the lane instructions their layout's record, and the events what arrives from outside or which
agent acts. -/
inductive Instr where
  /-- ADD (R102). sd := (a + b) mod 2^32. -/
  | add (d a b : SReg)
  /-- SUB (R102). sd := (a - b) mod 2^32. -/
  | sub (d a b : SReg)
  /-- MUL (R102). sd := low 32 bits of a x b. -/
  | mul (d a b : SReg)
  /-- MULH (R102). sd := high 32 bits of the signed 64-bit product. -/
  | mulh (d a b : SReg)
  /-- MULHN (R102). sd := high 32 bits of the unsigned 64-bit product. -/
  | mulhn (d a b : SReg)
  /-- DIV (R103). Signed quotient rounded towards zero; never traps. -/
  | div (d a b : SReg)
  /-- DIVN (R103). Unsigned quotient; never traps. -/
  | divn (d a b : SReg)
  /-- REM (R103). Signed remainder with the sign of a. -/
  | rem (d a b : SReg)
  /-- REMN (R103). Unsigned remainder. -/
  | remn (d a b : SReg)
  /-- AND (R102). sd := a AND b. -/
  | and (d a b : SReg)
  /-- OR (R102). sd := a OR b. -/
  | or (d a b : SReg)
  /-- XOR (R102). sd := a XOR b. -/
  | xor (d a b : SReg)
  /-- ANDN (R102). sd := a AND NOT b. -/
  | andn (d a b : SReg)
  /-- SHL (R102). Logical left shift by b[4:0]. -/
  | shl (d a b : SReg)
  /-- SHR (R102). Logical right shift by b[4:0]. -/
  | shr (d a b : SReg)
  /-- SAR (R102). Arithmetic right shift by b[4:0]. -/
  | sar (d a b : SReg)
  /-- ROTL (R102). Rotate left by b[4:0]. -/
  | rotl (d a b : SReg)
  /-- MIN (R102). Signed minimum. -/
  | min (d a b : SReg)
  /-- MAX (R102). Signed maximum. -/
  | max (d a b : SReg)
  /-- MINN (R102). Unsigned minimum. -/
  | minn (d a b : SReg)
  /-- MAXN (R102). Unsigned maximum. -/
  | maxn (d a b : SReg)
  /-- SEQ (R102). sd := 1 if a = b, else 0. -/
  | seq (d a b : SReg)
  /-- SNE (R102). sd := 1 if a != b, else 0. -/
  | sne (d a b : SReg)
  /-- SLT (R102). sd := 1 if a < b signed. -/
  | slt (d a b : SReg)
  /-- SLTN (R102). sd := 1 if a < b unsigned. -/
  | sltn (d a b : SReg)
  /-- SLE (R102). sd := 1 if a <= b signed. -/
  | sle (d a b : SReg)
  /-- SLEN (R102). sd := 1 if a <= b unsigned. -/
  | slen (d a b : SReg)
  /-- CLZ (R102). Count leading zero bits of a. -/
  | clz (d a : SReg)
  /-- POPC (R102). Count one bits of a. -/
  | popc (d a : SReg)
  /-- BREV (R102). Reverse the bits of a. -/
  | brev (d a : SReg)
  /-- ADD64 (R102). Pair sum modulo 2^64. -/
  | add64 (d a b : SReg)
  /-- SUB64 (R102). Pair difference modulo 2^64. -/
  | sub64 (d a b : SReg)
  /-- SHL64 (R102). Pair left shift by b[5:0]. -/
  | shl64 (d a b : SReg)
  /-- SHR64 (R102). Pair logical right shift by b[5:0]. -/
  | shr64 (d a b : SReg)
  /-- SAR64 (R102). Pair arithmetic right shift by b[5:0]. -/
  | sar64 (d a b : SReg)
  /-- MOVP (R102). Copy a register pair. -/
  | movp (d a : SReg)
  /-- SELZ (R102). sd := a if b != 0, else 0. -/
  | selz (d a b : SReg)
  /-- ADDI (R104). Add sign-extended 14-bit immediate. -/
  | addi (d a : SReg) (i : BitVec 14)
  /-- ANDI (R104). AND with zero-extended immediate. -/
  | andi (d a : SReg) (i : BitVec 14)
  /-- ORI (R104). OR with zero-extended immediate. -/
  | ori (d a : SReg) (i : BitVec 14)
  /-- XORI (R104). XOR with zero-extended immediate. -/
  | xori (d a : SReg) (i : BitVec 14)
  /-- SHLI (R104). Left shift by immediate count. -/
  | shli (d a : SReg) (i : BitVec 5)
  /-- SHRI (R104). Logical right shift by immediate count. -/
  | shri (d a : SReg) (i : BitVec 5)
  /-- SARI (R104). Arithmetic right shift by immediate count. -/
  | sari (d a : SReg) (i : BitVec 5)
  /-- SLTI (R104). Signed compare with sign-extended immediate. -/
  | slti (d a : SReg) (i : BitVec 14)
  /-- SLTNI (R104). Unsigned compare with sign-extended immediate. -/
  | sltni (d a : SReg) (i : BitVec 14)
  /-- LIH (R104). sd := imm20 << 12. -/
  | lih (d : SReg) (i : BitVec 20)
  /-- MULI (R104). Low 32 bits of a times sign-extended immediate. -/
  | muli (d a : SReg) (i : BitVec 14)
  /-- KAND (R105). kd := ka AND kb. -/
  | kand (d a b : KReg)
  /-- KOR (R105). kd := ka OR kb. -/
  | kor (d a b : KReg)
  /-- KXOR (R105). kd := ka XOR kb. -/
  | kxor (d a b : KReg)
  /-- KANDN (R105). kd := ka AND NOT kb. -/
  | kandn (d a b : KReg)
  /-- KNOT (R105). kd := NOT ka. -/
  | knot (d a : KReg)
  /-- KMOV (R105). kd := ka. -/
  | kmov (d a : KReg)
  /-- KSET (R105). kd := value of scalar register. -/
  | kset (d : KReg) (x : SReg)
  /-- KGET (R105). Scalar register := mask. -/
  | kget (a : KReg) (x : SReg)
  /-- KPOP (R105). Scalar register := population count of mask. -/
  | kpop (a : KReg) (x : SReg)
  /-- KFF (R105). Scalar register := index of lowest set bit of mask, or 32. -/
  | kff (a : KReg) (x : SReg)
  /-- XMSET (R105). Slot's XM := mask ANDed with the part's lane set. -/
  | xmset (a : KReg)
  /-- XMGET (R105). kd := slot's XM. -/
  | xmget (d : KReg)
  /-- B (R106). Conditional branch on a scalar register, closing loop levels left. -/
  | b (c : BitVec 5) (s : SReg) (d : BitVec 15)
  /-- BK (R106). Conditional branch on a mask against XM. -/
  | bk (c : BitVec 2) (k : KReg) (d : BitVec 15)
  /-- J (R107). Jump to PC + 4 x disp26. -/
  | j (d : BitVec 26)
  /-- CALL (R107). Write link pair s46:s47 and jump. -/
  | call (d : BitVec 26)
  /-- JI (R108). Jump to the address in a register pair. -/
  | ji (a : SReg)
  /-- CALLI (R108). Indirect call through a register pair. -/
  | calli (a : SReg)
  /-- LOOP_IMM (R109). Open a loop level with an immediate count. -/
  | loopImm (l : BitVec 2) (c : BitVec 8) (e : BitVec 15)
  /-- LOOP_REG (R109). Open a loop level with a count from a scalar register. -/
  | loopReg (l : BitVec 2) (s : SReg) (e : BitVec 15)
  /-- BRD (R173). Divide the part by a mask into taken and fall-through sides. -/
  | brd (k : KReg) (d : BitVec 15)
  /-- JSET (R171). Open a divergence region with a new join entry. -/
  | jset (d : BitVec 15)
  /-- BRX (R175). Per-lane indirect branch through a table, grouping lanes by target. -/
  | brx (v : VReg) (p : SReg) (n : BitVec 12)
  /-- CALLX (R177). Per-lane indirect call with procedure header checks. -/
  | callx (v : VReg) (p : SReg) (n : BitVec 12)
  /-- LRUN (R113). Enqueue a lane block with captured mask, CSRs and arguments. -/
  | lrun (k : KReg) (r : Bool) (b : BitVec 20)
  /-- TRAP (R339). Raise a SWTRAP scalar trap with a code. -/
  | trap (c : BitVec 16)
  /-- BRK (R339). Raise a BRK scalar trap with a code. -/
  | brk (c : BitVec 16)
  /-- CSRR (R116). Read a CSR into a scalar register. -/
  | csrr (d : SReg) (c : BitVec 12)
  /-- CSRW (R116). Write a CSR. -/
  | csrw (a : SReg) (c : BitVec 12)
  /-- CSRS (R116). Set bits of a CSR. -/
  | csrs (a : SReg) (c : BitVec 12)
  /-- CSRC (R116). Clear bits of a CSR. -/
  | csrc (a : SReg) (c : BitVec 12)
  /-- WAITC (R20). Stall the scalar stream until wait counters reach their limits. -/
  | waitc (b l s c t : BitVec 4)
  /-- WAITB (R306). Wait until a numbered tile batch retires. -/
  | waitb (a : SReg)
  /-- TBATCH (R304). Close open matrix instructions into a numbered batch. -/
  | tbatch (d : SReg)
  /-- FENCE_ACQUIRE (R254). Acquire fence at a scope. -/
  | fenceAcquire (s : BitVec 3)
  /-- FENCE_RELEASE (R254). Release fence at a scope. -/
  | fenceRelease (s : BitVec 3)
  /-- FENCE_FULL (R254). Full fence at a scope. -/
  | fenceFull (s : BitVec 3)
  /-- FENCE_S (R254). Stream-only fence on selected write streams. -/
  | fenceS (s : BitVec 3) (w : BitVec 4)
  /-- PUBLISH (R265). Flip a published host window and write its version. -/
  | publish (a : SReg)
  /-- GIVE (R195). Give vector registers to the team pool. -/
  | give (n : BitVec 6)
  /-- CLAIM (R195). Claim vector registers from the team pool. -/
  | claim (n : BitVec 6)
  /-- FLAME_PASS (R290). Close open matrix instructions and pass the flame to a team group. -/
  | flamePass (a : SReg)
  /-- RTSWAP (R421). Install a communicator's staged rank table. -/
  | rtswap (a : SReg)
  /-- GENR (R414). Read the 64-bit applied membership generation. -/
  | genr (d : SReg)
  /-- DISCARD (R228). Give up the contents of a record's range. -/
  | discard (b : BReg)
  /-- SLEEP (R115). Hold the slot's scalar stream for n ck. -/
  | sleep (n : BitVec 16)
  /-- EXIT (R179). Retire lanes, ending the part or group when empty. -/
  | exit (k : KReg)
  /-- LAUNCH (R193). Submit a launch record to the launch distributor. -/
  | launch (d a : SReg)
  /-- GRAPH (R319). Submit a dependence graph table to the walker. -/
  | graph (d a b : SReg)
  /-- CPY (R315). Submit a copy-engine command. -/
  | cpy (d a : SReg)
  /-- COLL_SUM_AI (R393). Start an exact aligned-integer sum collective. -/
  | collSumAi (d a : SReg) (s r : BReg)
  /-- COLL_SUM_FIX (R393). Start a rank-ordered sum collective. -/
  | collSumFix (d a : SReg) (s r : BReg)
  /-- COLL_MAX (R393). Start a max collective. -/
  | collMax (d a : SReg) (s r : BReg)
  /-- COLL_MIN (R393). Start a min collective. -/
  | collMin (d a : SReg) (s r : BReg)
  /-- COLL_GATHER (R393). Start an all-gather collective. -/
  | collGather (d a : SReg) (s r : BReg)
  /-- COLL_RSCAT_AI (R393). Start an exact reduce-scatter collective. -/
  | collRscatAi (d a : SReg) (s r : BReg)
  /-- COLL_RSCAT_FIX (R393). Start a rank-ordered reduce-scatter collective. -/
  | collRscatFix (d a : SReg) (s r : BReg)
  /-- COLL_BCAST (R393). Start a broadcast from rank 0. -/
  | collBcast (d a : SReg) (s r : BReg)
  /-- COLL_A2A (R393). Start an all-to-all collective. -/
  | collA2a (d a : SReg) (s r : BReg)
  /-- RINV (R404). Send a remote invocation record to a device. -/
  | rinv (d a f : SReg) (n : BitVec 4) (p : BitVec 2) (r m : Bool)
  /-- RINVW (R407). Wait for a ticket's final answer and return its status. -/
  | rinvw (d a : SReg)
  /-- LAUNCHX_RSV (R410). Reserve a queue entry on every communicator member. -/
  | launchxRsv (d a : SReg)
  /-- LAUNCHX_CMT (R410). Commit a held reservation on every member. -/
  | launchxCmt (d a : SReg)
  /-- LAUNCHX_ABT (R410). Abort a held reservation on every member. -/
  | launchxAbt (d a : SReg)
  /-- SWAPROOT (R277). Compare-and-swap a root cell's name, adjusting counts. -/
  | swaproot (d e w : SReg) (b : BReg)
  /-- RCADJ (R278). Adjust a named line's reference count. -/
  | rcadj (d q x : SReg)
  /-- BRLD (R119). Load a 16-byte buffer record image into a record register. -/
  | brld (d b : BReg) (o : SReg) (i : BitVec 8)
  /-- BRNAR_ADD (R120). Copy a record advancing its base and shrinking its extent. -/
  | brnarAdd (d : BReg) (o : SReg) (s : BReg)
  /-- BRNAR_MIN (R120). Copy a record with extent limited to a value. -/
  | brnarMin (d : BReg) (o : SReg) (s : BReg)
  /-- BRNAR_RO (R120). Copy a record dropping write permission. -/
  | brnarRo (d s : BReg)
  /-- BRGET (R121). Read a selected field of a buffer record. -/
  | brget (d : SReg) (b : BReg) (s : BitVec 8)
  /-- SLD_4 (R118). Scalar 4-byte load through a record. -/
  | sld4 (d : SReg) (b : BReg) (o : SReg) (i : BitVec 8)
  /-- SLD_8 (R118). Scalar 8-byte load into a pair. -/
  | sld8 (d : SReg) (b : BReg) (o : SReg) (i : BitVec 8)
  /-- SST_4 (R118). Scalar 4-byte store through a record. -/
  | sst4 (a : SReg) (b : BReg) (o : SReg) (i : BitVec 8)
  /-- SST_8 (R118). Scalar 8-byte store from a pair. -/
  | sst8 (a : SReg) (b : BReg) (o : SReg) (i : BitVec 8)
  /-- CAOUT (R280). Submit a copy-out of a content-addressed tree to the copy engine. -/
  | caout (d a : SReg)
  /-- VADD (R126). Integer add per element, wrapped or saturated. -/
  | vadd (f : LA)
  /-- VSUB (R126). Integer subtract per element. -/
  | vsub (f : LA)
  /-- VMUL (R126). Integer multiply per element. -/
  | vmul (f : LA)
  /-- VMULH (R126). High half of integer product. -/
  | vmulh (f : LA)
  /-- VMAD (R126). Integer multiply-add with one wrap or clamp. -/
  | vmad (f : LA)
  /-- VDIV (R127). Integer division towards zero; never traps. -/
  | vdiv (f : LA)
  /-- VREM (R127). Integer remainder with sign of a. -/
  | vrem (f : LA)
  /-- VMIN (R126). Integer minimum per element. -/
  | vmin (f : LA)
  /-- VMAX (R126). Integer maximum per element. -/
  | vmax (f : LA)
  /-- VABS (R126). Integer absolute value. -/
  | vabs (f : LA)
  /-- VNEG (R126). Integer negation. -/
  | vneg (f : LA)
  /-- VAND (R126). Bitwise AND per lane. -/
  | vand (f : LA)
  /-- VOR (R126). Bitwise OR per lane. -/
  | vor (f : LA)
  /-- VXOR (R126). Bitwise XOR per lane. -/
  | vxor (f : LA)
  /-- VNOT (R126). Bitwise NOT per lane. -/
  | vnot (f : LA)
  /-- VSHL (R126). Left shift per element. -/
  | vshl (f : LA)
  /-- VSHR (R126). Logical right shift per element. -/
  | vshr (f : LA)
  /-- VSAR (R126). Arithmetic right shift per element. -/
  | vsar (f : LA)
  /-- VROT (R126). Rotate left per element. -/
  | vrot (f : LA)
  /-- VCLZ (R126). Count leading zeros per element. -/
  | vclz (f : LA)
  /-- VPOPC (R126). Population count per element. -/
  | vpopc (f : LA)
  /-- VBFE (R128). Bit-field extract with sign or zero extension. -/
  | vbfe (f : LA)
  /-- VBFI (R128). Bit-field insert. -/
  | vbfi (f : LA)
  /-- VCMP (R129). Integer compare into a mask register. -/
  | vcmp (f : LA)
  /-- VSEL (R130). Select va or vb by mask bit. -/
  | vsel (f : LA)
  /-- VMOV (R130). Move a register or immediate. -/
  | vmov (f : LA)
  /-- VMOVS (R130). Broadcast a captured scalar argument into a vector register. -/
  | vmovs (f : LA)
  /-- VLANE (R130). Write each lane's index. -/
  | vlane (f : LA)
  /-- VWRX (R131). Write a vector register named per lane. -/
  | vwrx (f : LA)
  /-- VRDX (R131). Read a vector register named per lane. -/
  | vrdx (f : LA)
  /-- VTOS (R132). Write one lane's value into a live scalar register. -/
  | vtos (f : LA)
  /-- VFADD (R133). Floating add rounded once. -/
  | vfadd (f : LA)
  /-- VFSUB (R133). Floating subtract rounded once. -/
  | vfsub (f : LA)
  /-- VFMUL (R133). Floating multiply rounded once. -/
  | vfmul (f : LA)
  /-- VFMA (R133). Fused multiply-add rounded once. -/
  | vfma (f : LA)
  /-- VFDIV (R133). Floating division rounded once. -/
  | vfdiv (f : LA)
  /-- VFSQRT (R133). Floating square root. -/
  | vfsqrt (f : LA)
  /-- VFMIN (R69). IEEE minimum or minimumNumber. -/
  | vfmin (f : LA)
  /-- VFMAX (R69). IEEE maximum or maximumNumber. -/
  | vfmax (f : LA)
  /-- VFABS (R68). Clear the sign bit. -/
  | vfabs (f : LA)
  /-- VFNEG (R68). Invert the sign bit. -/
  | vfneg (f : LA)
  /-- VFCMP (R129). Floating compare into a mask register. -/
  | vfcmp (f : LA)
  /-- VFCLASS (R134). Write a one-hot class mask per element. -/
  | vfclass (f : LA)
  /-- VFSCALE (R135). Multiply by 2^n rounded once. -/
  | vfscale (f : LA)
  /-- VFRND (R133). Round to an integral value. -/
  | vfrnd (f : LA)
  /-- VRCP (R136). Correctly rounded reciprocal. -/
  | vrcp (f : LA)
  /-- VRSQ (R136). Correctly rounded reciprocal square root. -/
  | vrsq (f : LA)
  /-- VEXP2 (R136). Correctly rounded 2^x. -/
  | vexp2 (f : LA)
  /-- VLOG2 (R136). Correctly rounded log2 x. -/
  | vlog2 (f : LA)
  /-- VSINPI (R136). Correctly rounded sin(pi x). -/
  | vsinpi (f : LA)
  /-- VCOSPI (R136). Correctly rounded cos(pi x). -/
  | vcospi (f : LA)
  /-- VTANH (R136). Correctly rounded tanh. -/
  | vtanh (f : LA)
  /-- VCVT (R137). Convert between scalar number formats. -/
  | vcvt (f : LA)
  /-- VQNT (R139). Quantise floating slots into Rhomiric register form. -/
  | vqnt (f : LA)
  /-- VDQN (R140). Dequantise Rhomiric register form to floating slots. -/
  | vdqn (f : LA)
  /-- VAIC (R141). Encode an AI64 aligned-integer chunk. -/
  | vaic (f : LA)
  /-- VAIF (R142). Decode an AI64 chunk to FP32. -/
  | vaif (f : LA)
  /-- VRAND (R143). Counter-based random number per lane. -/
  | vrand (f : LA)
  /-- VOPT_ADAMW (R146). AdamW update of one parameter per lane in memory. -/
  | voptAdamw (f : LA)
  /-- VOPT_ADAM (R146). Adam update of one parameter per lane. -/
  | voptAdam (f : LA)
  /-- VOPT_LION (R146). Lion update of one parameter per lane. -/
  | voptLion (f : LA)
  /-- VOPT_SGD (R146). Momentum SGD update of one parameter per lane. -/
  | voptSgd (f : LA)
  /-- VSHFL_IDX (R183). Shuffle from an indexed lane of the section. -/
  | vshflIdx (f : LA)
  /-- VSHFL_UP (R183). Shuffle from a lower lane. -/
  | vshflUp (f : LA)
  /-- VSHFL_DOWN (R183). Shuffle from a higher lane. -/
  | vshflDown (f : LA)
  /-- VSHFL_XOR (R183). Shuffle from the XOR-selected lane. -/
  | vshflXor (f : LA)
  /-- VVOTE_ANY (R184). Any-vote within sections. -/
  | vvoteAny (f : LA)
  /-- VVOTE_ALL (R184). All-vote within sections. -/
  | vvoteAll (f : LA)
  /-- VVOTE_BALLOT (R184). Ballot of active votes within sections. -/
  | vvoteBallot (f : LA)
  /-- VVOTE_UNI (R184). Uniformity vote within sections. -/
  | vvoteUni (f : LA)
  /-- VRED_ADD (R186). Pairwise-tree sum over a section. -/
  | vredAdd (f : LA)
  /-- VRED_MIN (R186). Tree minimum over a section. -/
  | vredMin (f : LA)
  /-- VRED_MAX (R186). Tree maximum over a section. -/
  | vredMax (f : LA)
  /-- VRED_AND (R186). Tree AND over a section. -/
  | vredAnd (f : LA)
  /-- VRED_OR (R186). Tree OR over a section. -/
  | vredOr (f : LA)
  /-- VRED_XOR (R186). Tree XOR over a section. -/
  | vredXor (f : LA)
  /-- VSCAN_ADD (R186). Prefix sum within a section. -/
  | vscanAdd (f : LA)
  /-- VSCAN_MIN (R186). Prefix minimum within a section. -/
  | vscanMin (f : LA)
  /-- VSCAN_MAX (R186). Prefix maximum within a section. -/
  | vscanMax (f : LA)
  /-- VSCAN_AND (R186). Prefix AND within a section. -/
  | vscanAnd (f : LA)
  /-- VSCAN_OR (R186). Prefix OR within a section. -/
  | vscanOr (f : LA)
  /-- VSCAN_XOR (R186). Prefix XOR within a section. -/
  | vscanXor (f : LA)
  /-- VMATCH_ANY (R185). Set mask bit if another active lane holds the same value. -/
  | vmatchAny (f : LA)
  /-- VMATCH_ALL (R185). Set mask bit if all active lanes hold the same value. -/
  | vmatchAll (f : LA)
  /-- VLD (R155). Flat lane load through a buffer record. -/
  | vld (f : LM)
  /-- VST (R156). Flat lane store waiting for the whole budget charge. -/
  | vst (f : LM)
  /-- VSTNB (R157). Non-blocking store accepting the lowest lanes and reporting refused ones. -/
  | vstnb (f : LM)
  /-- VLDT (R221). Column load of a sector-tiled 32x32-byte tile. -/
  | vldt (f : LM)
  /-- VLDB (R162). Load Rhomiric sub-blocks into register form. -/
  | vldb (f : LM)
  /-- VSTB (R163). Store whole Rhomiric granules from register form. -/
  | vstb (f : LM)
  /-- VLDF (R214). Wait for full, read and set empty. -/
  | vldf (f : LM)
  /-- VLDFK (R214). Wait for full and read, keeping full. -/
  | vldfk (f : LM)
  /-- VSTE (R214). Wait for empty, write and set full. -/
  | vste (f : LM)
  /-- VSTF (R214). Write and set full without waiting. -/
  | vstf (f : LM)
  /-- VFEC_EMPTY (R214). Set a scratch word's bit empty. -/
  | vfecEmpty (f : LM)
  /-- VFEC_FULL (R214). Set a scratch word's bit full. -/
  | vfecFull (f : LM)
  /-- VATOM_ADD (R326). Atomic integer add returning old values. -/
  | vatomAdd (f : LM)
  /-- VATOM_MIN (R326). Atomic minimum. -/
  | vatomMin (f : LM)
  /-- VATOM_MAX (R326). Atomic maximum. -/
  | vatomMax (f : LM)
  /-- VATOM_AND (R326). Atomic AND. -/
  | vatomAnd (f : LM)
  /-- VATOM_OR (R326). Atomic OR. -/
  | vatomOr (f : LM)
  /-- VATOM_XOR (R326). Atomic XOR. -/
  | vatomXor (f : LM)
  /-- VATOM_XCHG (R326). Atomic exchange. -/
  | vatomXchg (f : LM)
  /-- VATOM_CAS (R326). Atomic compare-and-swap. -/
  | vatomCas (f : LM)
  /-- VATOM_FADD (R326). Atomic FP32 add in arrival order. -/
  | vatomFadd (f : LM)
  /-- VATOM_AIADD (R326). Atomic aligned-integer add with clamp. -/
  | vatomAiadd (f : LM)
  /-- VREDM_ADD (R326). Reduction add at memory. -/
  | vredmAdd (f : LM)
  /-- VREDM_MIN (R326). Reduction minimum at memory. -/
  | vredmMin (f : LM)
  /-- VRLD (R397). Load the sum over all ranks' replicas. -/
  | vrld (f : LM)
  /-- VLAL_LEAF (R275). Store a leaf line and return its name. -/
  | vlalLeaf (f : LA)
  /-- VLAL_NODE (R275). Store a node line, referencing its children, and return its name. -/
  | vlalNode (f : LA)
  /-- VLKP (R276). Read and verify a named line. -/
  | vlkp (f : LA)
  /-- MMA (R297). Issue a dense tile multiply-accumulate to the matrix engine. -/
  | mma (f : LT)
  /-- MMAS (R299). Issue a sparse tile multiply-accumulate. -/
  | mmas (f : LT)
  /-- MPERM (R300). Permute rows of B into a tile by selector. -/
  | mperm (f : LT)
  /-- MZERO (R301). Zero a 64x64 accumulator tile. -/
  | mzero (f : LT)
  /-- MLDA (R301). Load a 16x16 accumulator block from registers. -/
  | mlda (f : LT)
  /-- MSTA (R301). Store a 16x16 accumulator block into registers. -/
  | msta (f : LT)
  /-- MCPY_ST (R302). Copy a tile from the accumulator to scratchpad. -/
  | mcpySt (f : LT)
  /-- MCPY_LD (R302). Copy a tile from scratchpad to the accumulator. -/
  | mcpyLd (f : LT)
  /-- VREDM_MAX (R326). Reduction maximum at memory. -/
  | vredmMax (f : LM)
  /-- VREDM_AND (R326). Reduction AND at memory. -/
  | vredmAnd (f : LM)
  /-- VREDM_OR (R326). Reduction OR at memory. -/
  | vredmOr (f : LM)
  /-- VREDM_XOR (R326). Reduction XOR at memory. -/
  | vredmXor (f : LM)
  /-- VREDM_FADD (R326). Reduction FP32 add at memory. -/
  | vredmFadd (f : LM)
  /-- VREDM_AIADD (R326). Reduction aligned-integer add at memory. -/
  | vredmAiadd (f : LM)
  /-- NOP (R41). Scalar no-operation; the all-zero scalar word. -/
  | nop
  /-- RET (R108). Jump to the address in s46:s47. -/
  | ret
  /-- LOOPX (R111). Close the innermost loop level and continue after its end. -/
  | loopx
  /-- JOIN (R172). Arrive at the region's join entry, parking or merging. -/
  | join
  /-- RETX (R178). Return the part to the region's JOIN. -/
  | retx
  /-- TRET (R340). Return from a user trap handler. -/
  | tret
  /-- PHEND (R196). End the group's share of a phase and write its phase record. -/
  | phend
  /-- BAR (R202). Team barrier ending with a full team-scope fence. -/
  | bar
  /-- FLAME_TAKE (R290). Wait for and take the matrix-engine ownership token. -/
  | flameTake
  /-- MATRIX_EXECUTE (R303). The matrix engine executes its next queued matrix instruction in issue order. -/
  | matrixExecute (core : Nat) (residue : Nat)
  /-- BATCH_RETIRE (R305). A tile batch retires once all its instructions have written results. -/
  | batchRetire (g : Nat)
  /-- LOAD_DATA_RETURN (R158). Load data arrive, writing the destination and lowering the load count. -/
  | loadDataReturn (g k : Nat)
  /-- STORE_QUEUE_DRAIN (R223). A store leaves the group's store queue for its home LLC slice. -/
  | storeQueueDrain (g : Nat)
  /-- STORE_BUDGET_WINDOW (R225). A 2,000 ck window ends and the team's store credit is renewed. -/
  | storeBudgetWindow (team : TeamKey)
  /-- STBP_TIMEOUT (R227). A store waiting for credit past the timeout raises STBP. -/
  | stbpTimeout (g : Nat) (slot : Option Bool)
  /-- FETMO_TIMEOUT (R216). A full/empty lane waiting past FETMO abandons and traps. -/
  | fetmoTimeout (g : Nat)
  /-- SLEEP_EXPIRY (R115). A SLEEP's count runs out and the stream resumes. -/
  | sleepExpiry (g : Nat) (slotB : Bool)
  /-- LOAD_QUOTA_WINDOW (R204). A 1,024 ck window ends and the core's load quota is adjusted. -/
  | loadQuotaWindow (core : Nat)
  /-- TRAP_DELIVERY (R336). A pending trap is delivered to its slot's handler or terminates the context. -/
  | trapDelivery (g : Nat)
  /-- TASK_QUEUE_PLACE (R201). The task queue places the next fitting cluster start or team phase. -/
  | taskQueuePlace (hcl : Nat)
  /-- LAUNCH_COMPLETE (R194). A launch's last cluster retires; status, signal and node decrement follow. -/
  | launchComplete (ticket : Nat)
  /-- CPY_START (R312). A queued copy command starts when no older lock conflicts. -/
  | cpyStart (hcl ticket : Nat)
  /-- CPY_RETIRE (R317). A copy command retires, releasing locks and writing status. -/
  | cpyRetire (hcl ticket : Nat)
  /-- CAOUT_WALK (R281). The copy engine walks and writes a content-addressed tree. -/
  | caoutWalk (hcl ticket : Nat)
  /-- GRAPH_NODE_FINISH (R320). A graph node finishes and its successors are decremented. -/
  | graphNodeFinish (die ticket node : Nat)
  /-- ATOMIC_PACKET (R326). An atomic service group executes one request packet indivisibly per address. -/
  | atomicPacket (hcl : Nat)
  /-- RECLAIM_LINE (R272). The reclaimer frees a line, decrementing a node's children. -/
  | reclaimLine
  /-- TABLE_WALK_COMPLETE (R237). A translation walk ends with a translation or a fault. -/
  | tableWalkComplete (k : Nat)
  /-- ATS_TRANSLATION_COMPLETION (R242). An ATS completion arrives and is cached with host permissions. -/
  | atsTranslationCompletion (id : Nat) (reply : AtsReply)
  /-- ATS_INVALIDATION_REQUEST (R242). The host's ATS invalidation drops entries and completes after their accesses. -/
  | atsInvalidationRequest (pasid va size : Nat)
  /-- PRI_RESPONSE (R243). A Page Request Group Response leads to a new ATS request or HOSTREFUSED. -/
  | priResponse (id : Nat) (success : Bool)
  /-- INVALIDATE_COMMAND (R241). Writing INVCMD.BUSY starts a TLB invalidation. -/
  | invalidateCommand (value : Word)
  /-- INVALIDATE_DONE (R241). An invalidation completes and BUSY returns to 0. -/
  | invalidateDone
  /-- REGION_COMMIT (R231). Commit of an address region's staged mapping checks and starts. -/
  | regionCommit (k : Nat)
  /-- REGION_COMMIT_DONE (R231). Write-back finishes and the new mapping becomes ACTIVE. -/
  | regionCommitDone (k : Nat)
  /-- PAGE_FAULT_RETRY (R344). A retry answer makes waiting accesses walk again. -/
  | pageFaultRetry (id : Nat)
  /-- PAGE_FAULT_REFUSE (R344). A refuse answer ends waiting accesses with PAGE reason 8 or engine FAULT. -/
  | pageFaultRefuse (id : Nat)
  /-- FAULT_QUEUE_HEAD_WRITE (R343). Software advances FQHEAD, freeing room for held records. -/
  | faultQueueHeadWrite (value : Word)
  /-- HOT_INTERVAL_END (R245). A hotness interval ends; tables merge and a glow list is written. -/
  | hotIntervalEnd
  /-- PREEMPT_COMMAND (R349). PRECMD pre-empt makes a context PENDING. -/
  | preemptCommand (ctx : Nat)
  /-- RESUME_COMMAND (R349). PRECMD resume returns held items or re-queues saved clusters. -/
  | resumeCommand (ctx : Nat)
  /-- PHASE_LIMIT_EXPIRY (R351). A phase passes PHLIM while pending and the context terminates with PREEMPT_TMO. -/
  | phaseLimitExpiry (ctx : Nat)
  /-- HOST_BAR2_READ (R251). A host read through BAR 2 served by the memory controller. -/
  | hostBar2Read (addr n : Nat)
  /-- HOST_BAR2_WRITE (R251). A host write through BAR 2, writing back a dirty sector first. -/
  | hostBar2Write (addr : Nat) (data : List Byte)
  /-- DOORBELL (R408). The host submits an invocation slot. -/
  | doorbell (value : Word)
  /-- INVOCATION_RECEIVE (R402). A received invocation record is checked, queued, journalled and answered. -/
  | invocationReceive (src : Word) (record : List Byte)
  /-- INVOCATION_DISPATCH (R403). The distributor takes an invocation queue head and launches its handler. -/
  | invocationDispatch
  /-- INVOCATION_ANSWER (R405). An accept, NAK or reply reaches the sending group's ticket. -/
  | invocationAnswer (ticket : Word) (answer : InvAnswer)
  /-- RINV_RETRY_TIMER (R405). A must-deliver retry falls due and the record is resent. -/
  | rinvRetryTimer (g : Nat) (ticket : Word)
  /-- LAUNCHX_MEMBER_REQUEST (R410). A member receives a LAUNCHX reserve, commit or abort. -/
  | launchxMemberRequest (req : LaunchxReq)
  /-- JOIN_DOORBELL (R428). Software queues a pull command. -/
  | joinDoorbell (addr : Nat)
  /-- PULL_START (R429). The join engine begins the next queued pull. -/
  | pullStart
  /-- PULL_LINE_REPLY (R429). A line reply is verified and accepted or the next source is tried. -/
  | pullLineReply (reply : LineReply)
  /-- LINE_REQUEST (R427). A member serves a line request from its directory. -/
  | lineRequest (src : Word) (name : LineName) (region : Nat)
  /-- FLIT_RECEIVE (R381). A port receives a flit, accepting it in order or dropping it. -/
  | flitReceive (port : Nat) (flit : Flit) (fecOk : Bool)
  /-- REPLAY_REQUEST (R381). A control flit naming the last accepted flit triggers replay. -/
  | replayRequest (port : Nat) (last : Word)
  /-- LINK_ACK_TIMEOUT (R381). No ACK progress for 4 us triggers replay; the eighth takes the port DOWN. -/
  | linkAckTimeout (port : Nat)
  /-- PORT_ENABLE (R382). Setting PORTSTAT.EN starts training a DOWN port. -/
  | portEnable (port : Nat)
  /-- PORT_RETRAIN (R383). Writing RETRAIN retrains a port and clears LFAIL. -/
  | portRetrain (port : Nat)
  /-- PORT_LANE_FAIL (R382). A lane failure moves a port to HALF or DOWN. -/
  | portLaneFail (port lane : Nat)
  /-- PORT_TRAINING_DONE (R382). Training ends in FULL, HALF or DOWN. -/
  | portTrainingDone (port : Nat) (pass : BitVec 16)
  /-- COLL_CHUNK_SEND (R389). The collective engine selects and sends the next chunk by priority. -/
  | collChunkSend (port : Nat)
  /-- COLL_CHUNK_RECEIVE (R391). A chunk is combined and its checksum compared. -/
  | collChunkReceive (chunk : CollChunk)
  /-- STALEGEN_CONTROL (R395). A generation mismatch ends the communicator's collectives and sets STALE. -/
  | stalegenControl (c : Nat)
  /-- COLL_RETIRE (R394). A collective retires, releasing locks and writing status. -/
  | collRetire (c ticket : Nat)
  /-- BEACON_SEND (R415). Every 20 us a member beacons on its live torus ports. -/
  | beaconSend
  /-- BEACON_RECEIVE (R415). A beacon counts for its window and may prompt an update request. -/
  | beaconReceive (dir : Nat) (src : Word) (gen : BitVec 64)
  /-- MONITOR_WINDOW_END (R415). A neighbour monitor judges its window and may report suspicion. -/
  | monitorWindowEnd (dir : Nat)
  /-- SUSPICION_REPORT (R417). The arbiter records a suspicion report. -/
  | suspicionReport (reporter named : Word)
  /-- SUSPICION_WITHDRAWAL (R417). The arbiter drops a standing report. -/
  | suspicionWithdrawal (reporter named : Word)
  /-- MEMBERSHIP_UPDATE (R418). A device applies a higher-generation update. -/
  | membershipUpdate (gen : BitVec 64) (dev : Word)
  /-- ADOPT_GO (R426). Writing ADOPT.GO starts a pilot's adoption of a position. -/
  | adoptGo (value : Word)
  /-- JOIN_REQUEST (R426). The arbiter admits or refuses a pilot's join request. -/
  | joinRequest (dev : Word)
  /-- JOIN_ANSWER (R419). A pilot receives admission or refusal. -/
  | joinAnswer (admitted : Bool) (gen : BitVec 64)
  /-- ADOPT_TIMEOUT (R419). No torus port trains within 1 s of GO and the pilot returns to PILOT. -/
  | adoptTimeout
  /-- SECPOL_EVAL (R431). Every 1 us the securing triggers are evaluated and may set DUE. -/
  | secpolEval (g : Nat)
  /-- RISK_UPDATE (R443). The management controller writes its risk estimate every 1 ms. -/
  | riskUpdate (risk : BitVec 16)
  /-- POWER_CONTROL (R444). Power sensing steps the arithmetic clock to hold PWRLIM. -/
  | powerControl (watts : Nat)
  /-- THERMAL_SHUTDOWN (R444). Critical temperature terminates all contexts and stops clocks. -/
  | thermalShutdown (die : Nat)
  /-- PWRLIM_WRITE (R444). Write of the power limit, clamped to the form limit. -/
  | pwrlimWrite (value : Word)
  /-- POWER_ON (R441). Power-on begins a cold start. -/
  | powerOn
  /-- PERST (R441). PERST# assertion begins a cold start. -/
  | perst
  /-- START_COLD (R441). START.COLD terminates every context and begins a cold start. -/
  | startCold
  /-- START_WARM (R441). START.WARM begins a warm start if contexts are saved or terminated. -/
  | startWarm
  /-- START_LOAD (R441). START.LOAD in ROMWAIT starts image verification. -/
  | startLoad
  /-- BOOT_TRAIN_DONE (R441). HBM and die link training completes. -/
  | bootTrainDone
  /-- BOOT_BIST_DONE (R441). Self-test completes. -/
  | bootBistDone
  /-- BOOT_ZERO_DONE (R441). Memory zeroing or write-back completes and the device is READY. -/
  | bootZeroDone
  /-- ATTESTATION_REQUEST (R442). Return a signed attestation report for a nonce. -/
  | attestationRequest (nonce : List Byte)
  /-- CONFIG_WRITE (R439). Write to a privileged configuration register without a row of its own. -/
  | configWrite (offset : Nat) (value : Word)
  /-- RETENT_CLEAR (R366). Clearing a retire entry while idle zeroes the page. -/
  | retentClear (j : Nat)
  /-- CORRECTED_ERROR (R361). A corrected storage error is recorded. -/
  | correctedError (err : ErrSite)
  /-- LLC_UNCORRECTABLE (R364). An uncorrectable LLC error is handled by sector state and owner. -/
  | llcUncorrectable (err : LlcError)
  /-- HBM_UNCORRECTABLE (R366). HBM data uncorrectable after retry is poisoned and its page retired. -/
  | hbmUncorrectable (err : HbmError)
  /-- POOL_UNCORRECTABLE (R361). An uncorrectable pool or accumulator word terminates the using context. -/
  | poolUncorrectable (err : PoolError)
  /-- LATEST_UPDATE_REQUEST (R415). The arbiter receives a device's request for the latest membership update and answers it. -/
  | latestUpdateRequest (dev : Word)
  /-- ADMISSION_NOTICE (R426). A neighbour of an admitted position receives the arbiter's notice and moves its monitor from VACANT to LIVE. -/
  | admissionNotice (dev : Word)
  /-- REPLICA_READ_REQUEST (R397). A rank's engine receives a VRLD read request, reads its replica and returns the bytes. -/
  | replicaReadRequest (req : ReplicaReq)
  /-- IEEE_1588_CLOCK_STEP (R443). The management controller's IEEE 1588 clock locks or steps, so later records carry the new time. -/
  | ieee1588ClockStep (seconds nanos : Nat)
  /-- PCIE_READ_COMPLETION (R255). The PCIe read issued after a group's posted writes to host memory completes, ending a system-scope release or PUBLISH wait. -/
  | pcieReadCompletion (g : Nat)
  /-- SECTOR_WRITE_BACK (R223). A dirty sector's write-back leaves the home LLC slice over the stack's write lane and reaches the memory controller's ordering queue. -/
  | sectorWriteBack (sector : Nat)
  deriving DecidableEq, Repr

end Sys2Proof
end

