-- ==== Sys2Proof/Machine/Fields.lean ====
section
/-! DEFINITION. The field rules of the instruction formats (R22, R34 to R38, R40 to R55, R295): which values each
instruction accepts in its fields, and which vector registers its fields name. -/

namespace Sys2Proof

/-- The width in bits of one element of type `ty` (R64, R66); the block types have none. -/
def elemBits (ty : Nat) : Nat :=
  if ty = 2 ∨ ty = 3 ∨ ty = 5 then 64
  else if ty ≤ 4 then 32
  else if ty ≤ 9 then 16
  else 8

/-- Registers of a vector operand of type `ty`: an even-odd pair for the 64-bit types (R123). -/
def wideOf (ty : Nat) : Nat := if elemBits ty = 64 then 2 else 1

/-- What one of the four operand fields of a lane instruction names (R50 to R54, R123). -/
inductive Opnd where
  /-- Not used: must be zero. -/
  | zero
  /-- A group of `n` vector registers that is read. -/
  | rd (n : Nat)
  /-- A group of `n` vector registers that is written. -/
  | wr (n : Nat)
  /-- A group of `n` vector registers that is read and written. -/
  | rw (n : Nat)
  /-- A mask register in bits [3:0]; bits [7:4] zero. -/
  | mask
  /-- A captured scalar: s0, or s48 to s63. -/
  | arg
  /-- A captured pair: s48 to s62, even. -/
  | argPair
  /-- The first of eight captured registers: s48 or s56. -/
  | argEight
  /-- A captured quad: s48, s52, s56 or s60. -/
  | argQuad
  /-- A live scalar that is written: s1 to s63. -/
  | live
  /-- A live quad that is written: s4 to s60, a multiple of 4. -/
  | liveQuad
  /-- A fixed value. -/
  | value (v : Nat)
  /-- Any value: the field is no register. -/
  | any
  deriving DecidableEq, Repr

/-- The rule of the operand's field (R55). -/
def Opnd.ok (o : Opnd) (f : BitVec 8) : Bool :=
  let r := f.toNat
  match o with
  | .zero => decide (r = 0)
  | .rd n | .wr n | .rw n => decide (r % n = 0)
  | .mask => decide (r < 16)
  | .arg => decide (r = 0 ∨ (48 ≤ r ∧ r < 64))
  | .argPair => decide (r % 2 = 0 ∧ 48 ≤ r ∧ r < 64)
  | .argEight => decide (r = 48 ∨ r = 56)
  | .argQuad => decide (r % 4 = 0 ∧ 48 ≤ r ∧ r < 64)
  | .live => decide (1 ≤ r ∧ r < 64)
  | .liveQuad => decide (r % 4 = 0 ∧ 4 ≤ r ∧ r < 64)
  | .value v => decide (r = v)
  | .any => true

/-- The vector registers the operand reads, as first register and count. -/
def Opnd.reads (o : Opnd) (f : BitVec 8) : List (Nat × Nat) :=
  match o with
  | .rd n | .rw n => [(f.toNat, n)]
  | _ => []

/-- The vector registers the operand writes. -/
def Opnd.writes (o : Opnd) (f : BitVec 8) : List (Nat × Nat) :=
  match o with
  | .wr n | .rw n => [(f.toNat, n)]
  | _ => []

/-- What a lane instruction's fields say: whether they obey R55, and the vector registers they name. -/
structure LaneForm where
  ok : Bool
  reads : List (Nat × Nat)
  writes : List (Nat × Nat)
  deriving DecidableEq, Repr

/-- The modifier bit .i of layout L.A (R48). -/
def LA.imm? (f : LA) : Bool := f.m.getLsbD 0

/-- The form of a layout L.A instruction: the accepted types, whether .i, .sat and a rounding are accepted, the four
operands in the order vd, va, vb, vc, and the rules of its own (`own`). With .i the field vb is zero and imm32 is free;
otherwise imm32 is zero unless the instruction uses it (`useImm`). -/
def laForm (f : LA) (tys rnds : List Nat) (sat iOk useImm : Bool) (d a b c : Opnd) (own : Bool) : LaneForm :=
  let b := if f.imm? then Opnd.zero else b
  { ok := tys.contains f.ty.toNat && rnds.contains f.rnd.toNat && (sat || !f.sat) && (iOk || !f.imm?)
          && (f.imm? || useImm || decide (f.imm = 0))
          && d.ok f.vd && a.ok f.va && b.ok f.vb && c.ok f.vc && own,
    reads := d.reads f.vd ++ a.reads f.va ++ b.reads f.vb ++ c.reads f.vc,
    writes := d.writes f.vd ++ a.writes f.va ++ b.writes f.vb ++ c.writes f.vc }

/-- Modifier bits 41 and 42 zero and sub equal to `v` (R48, R52). -/
def LA.sub? (f : LA) (v : Nat) : Bool := decide (f.sub.toNat = v) && decide (f.m.toNat < 2)

/-- The integer types. -/
def intTypes : List Nat := [0, 1, 2, 3, 8, 9, 10, 11]

/-- The register a dithering instruction takes its random bits from (R73, R133): vc, which is otherwise zero. -/
def LA.dither (f : LA) : Opnd := if f.rnd = 5 then .rd 1 else .zero

/-- Rounding values 0 to 6 (R49). -/
def roundings : List Nat := [0, 1, 2, 3, 4, 5, 6]

/-- Three-operand integer instructions: vd, va and vb (R126). -/
def intForm2 (f : LA) (tys : List Nat) (sat : Bool) : LaneForm :=
  let n := wideOf f.ty.toNat
  laForm f tys [0] sat true false (.wr n) (.rd n) (.rd n) .zero (f.sub? 0)

/-- Unary integer instructions: vd and va (R126). -/
def intForm1 (f : LA) (tys : List Nat) (sat : Bool) : LaneForm :=
  let n := wideOf f.ty.toNat
  laForm f tys [0] sat false false (.wr n) (.rd n) .zero .zero (f.sub? 0)

/-- pos and len of VBFE and VBFI (R128). -/
def LA.fieldOk (f : LA) : Bool :=
  let i := f.imm.toNat
  let w := elemBits f.ty.toNat
  decide (i / 2 ^ 15 = 0) && decide (i / 2 ^ 6 % 4 = 0) && decide (i % 64 < w) && decide (i / 2 ^ 8 % 128 ≤ w)

/-- Floating instructions of two sources that round (R133). -/
def floatForm2 (f : LA) : LaneForm :=
  let n := wideOf f.ty.toNat
  laForm f [4, 5, 6, 7] roundings false true false (.wr n) (.rd n) (.rd n) f.dither (f.sub? 0)

/-- Special functions (R136). -/
def specialForm (f : LA) : LaneForm :=
  laForm f [4] [0] false false false (.wr 1) (.rd 1) .zero .zero (f.sub? 0)

/-- Slots per lane of a block type: 8 for RB3 (12), 4 for RB5 and RB8 (R138). -/
def blockPer (ty : Nat) : Nat := if ty = 12 then 8 else 4

/-- Registers of the floating side of VQNT and VDQN (R139, R140). -/
def LA.slotRegs (f : LA) : Nat := blockPer f.ty.toNat / (if f.sub = 0 then 1 else 2)

/-- Elements per word of a scalar type: 4, 2 or 1 (R137). -/
def perWord (ty : Nat) : Nat := if elemBits ty = 16 then 2 else if elemBits ty = 8 then 4 else 1

/-- Elements that VCVT converts in each lane (R137). -/
def LA.cvtCount (f : LA) : Nat := max (perWord f.ty.toNat) (perWord (f.sub.toNat % 16))

/-- Registers of a side of VCVT with elements of type `ty` (R137). -/
def LA.cvtRegs (f : LA) (ty : Nat) : Nat := f.cvtCount * elemBits ty / 32

/-- VRED and VSCAN (R186): ty 4 and 5 accept only add, min and max. -/
def foldForm (f : LA) (op : Nat) (scan : Bool) : LaneForm :=
  let n := wideOf f.ty.toNat
  laForm f [0, 1, 2, 3, 4, 5] [0] false false false (.wr n) (.rd n) .zero .zero
    (decide (f.sub.toNat = op) && decide (f.m.toNat < 2 ∨ (scan = true ∧ f.m.toNat < 4))
      && decide (op < 3 ∨ f.ty.toNat < 4))

/-- VSHFL (R183). -/
def shuffleForm (f : LA) (mode : Nat) : LaneForm :=
  laForm f [0] [0] false true false (.wr 1) (.rd 1) (.rd 1) .zero (f.sub? mode && decide (f.imm.toNat < 32))

/-- VVOTE and VMATCH (R184, R185). -/
def voteForm (f : LA) (mode : Nat) : LaneForm :=
  laForm f [0] [0] false false false .mask (.rd 1) .zero .zero (f.sub? mode)

/-- VOPT (R144): imm32 names four records; Lion and SGD name no second moment. -/
def optForm (f : LA) (mode : Nat) : LaneForm :=
  laForm f [4] [0] false false true .zero (.rd 1) .zero .argEight
    (f.sub? mode && decide (f.imm.toNat % 2 ^ 16 = 0) && decide (mode < 2 ∨ f.imm.toNat / 2 ^ 16 % 16 = 0))

/-- VLAL (R274). -/
def vlalForm (f : LA) (kind : Nat) : LaneForm :=
  laForm f [0] [0] false false true .liveQuad (.rd 2) (.value kind) .live (f.sub? 0 && decide (f.imm.toNat < 16))

/-- The form of a layout L.M instruction: the accepted types, whether hint and stream are accepted, the operand of
[79:72], that of [55:48], and the rules of its own. voff is always read. -/
def lmForm (f : LM) (tys : List Nat) (hint stream : Bool) (d second : Opnd) (own : Bool) : LaneForm :=
  { ok := tys.contains f.ty.toNat && (hint || decide (f.hint = 0)) && (stream || decide (f.stream = 0))
          && d.ok f.vd && second.ok f.second && own,
    reads := d.reads f.vd ++ [(f.voff.toNat, 1)] ++ second.reads f.second,
    writes := d.writes f.vd ++ second.writes f.second }

/-- Registers of one lane's data for a width code (R53): a pair for 8 bytes, a quad for 16. -/
def widthRegs (w : Nat) : Nat := if w = 3 then 2 else if w = 4 then 4 else 1

/-- The width code accepted by VLD, VST and VSTNB (R53). -/
def LM.flatOk (f : LM) : Bool := decide (f.wc.toNat ≤ 4) && decide (f.m = 0)

/-- VATOM and VREDM with sub `sub` (R324): width code 3 exactly for the 64-bit types; modifier bits below `2 ^ mods`. -/
def atomForm (f : LM) (sub : Nat) (tys : List Nat) (mods : Nat) (d second : Nat → Opnd) : LaneForm :=
  let n := wideOf f.ty.toNat
  lmForm f tys false false (d n) (second n)
    (decide (f.wc.toNat / 8 = sub) && decide (f.wc.toNat % 8 = if n = 2 then 3 else 2) && decide (f.m.toNat < mods))

/-- VREDM (R324). -/
def reduceForm (f : LM) (sub : Nat) (tys : List Nat) : LaneForm := atomForm f sub tys 2 .rd (fun _ => .zero)

/-- VLDF, VLDFK, VSTE and VSTF (R214). -/
def feForm (f : LM) (d : Opnd) : LaneForm :=
  lmForm f [0] false false d .zero (decide (f.wc = 2) && decide (f.m = 0))

/-- VFEC (R214). -/
def fecForm (f : LM) (v : Nat) : LaneForm :=
  lmForm f [0] false false .zero .zero (decide (f.wc.toNat = v) && decide (f.m = 0))

/-- Exponent registers of one operand of a shape (R294); 0 for the shapes that have none. -/
def shapeExp (shape : Nat) : Nat :=
  if shape = 2 ∨ shape = 3 then 2 else if shape = 4 then 4 else 0

/-- Metadata index registers of a shape (R294). -/
def shapeMeta (shape : Nat) : Nat :=
  if shape ≤ 1 then 2 else if shape ≤ 3 then 4 else if shape = 4 then 8 else 1

/-- A tile origin of at most 192 (R295). -/
def LT.tileOk (f : LT) : Bool := decide (f.row0.toNat ≤ 12) && decide (f.col0.toNat ≤ 12)

/-- No exponent base, no metadata base and no format index. -/
def LT.plain (f : LT) : Bool := decide (f.ea = 0) && decide (f.eb = 0) && decide (f.fmt = 0)

/-- MMA (`halves` 1) and MMAS (`halves` 2), R295, R296, R298. -/
def mmaForm (f : LT) (halves : Nat) : LaneForm :=
  let sh := f.shape.toNat
  let x := shapeExp sh
  let n := shapeMeta sh
  { ok := decide (sh ≤ 5) && decide (f.sparse = decide (halves = 2)) && f.tileOk && decide (f.flags.toNat < 4)
          && decide (f.a.toNat % (16 * halves) = 0) && decide (f.b.toNat % 16 = 0)
          && (if x = 0 then f.plain else decide (f.ea.toNat % (x * halves) = 0) && decide (f.eb.toNat % x = 0))
          && (if halves = 2 then decide (f.md.toNat % n = 0) else decide (f.md = 0)),
    reads := [(f.a.toNat, 16 * halves), (f.b.toNat, 16)]
             ++ (if x = 0 then [] else [(f.ea.toNat, x * halves), (f.eb.toNat, x)])
             ++ (if halves = 2 then [(f.md.toNat, n + 1)] else []),
    writes := [] }

/-- MPERM (R300). -/
def mpermForm (f : LT) : LaneForm :=
  { ok := [0, 1, 5].contains f.shape.toNat && !f.sparse && f.tileOk && decide (f.flags = 4) && f.plain
          && decide (f.md = 0) && decide (f.a.toNat % 16 = 0) && decide (f.b.toNat % 16 = 0),
    reads := [(f.a.toNat, 16), (f.b.toNat, 16)], writes := [] }

/-- The fields that MZERO, MLDA, MSTA and MCPY leave unused. -/
def LT.bare (f : LT) : Bool :=
  decide (f.shape = 0) && !f.sparse && f.plain && decide (f.md = 0) && decide (f.flags = 0)

/-- MZERO (R301). -/
def mzeroForm (f : LT) : LaneForm :=
  { ok := f.bare && f.tileOk && decide (f.a = 0) && decide (f.b = 0), reads := [], writes := [] }

/-- MLDA (`store` false) and MSTA (R301). -/
def blockForm (f : LT) (store : Bool) : LaneForm :=
  { ok := f.bare && decide (f.b = 0) && decide (f.a.toNat % 8 = 0),
    reads := if store then [] else [(f.a.toNat, 8)],
    writes := if store then [(f.a.toNat, 8)] else [] }

/-- MCPY (R302): [79:76] the record, [75] the direction, [74:72] zero. -/
def mcpyForm (f : LT) (dir : Nat) : LaneForm :=
  { ok := f.bare && f.tileOk && decide (f.a.toNat % 16 = 8 * dir), reads := [(f.b.toNat, 1)], writes := [] }

/-- The form of each lane instruction; none for a scalar instruction or an event. VWRX, VDQN and VAIF, whose
rules give no immediate for vb, are ILLEGAL with `.i` (assumption 136). -/
def laneForm : Instr → Option LaneForm
  | .vadd f => some (intForm2 f intTypes true)
  | .vsub f => some (intForm2 f intTypes true)
  | .vmul f => some (intForm2 f intTypes true)
  | .vmulh f => some (intForm2 f [0, 1, 2, 3] true)
  | .vmad f =>
    let n := wideOf f.ty.toNat
    some (laForm f intTypes [0] true true false (.wr n) (.rd n) (.rd n) (.rd n) (f.sub? 0))
  | .vdiv f => some (intForm2 f [0, 1, 2, 3] true)
  | .vrem f => some (intForm2 f [0, 1, 2, 3] true)
  | .vmin f => some (intForm2 f intTypes true)
  | .vmax f => some (intForm2 f intTypes true)
  | .vabs f => some (intForm1 f intTypes true)
  | .vneg f => some (intForm1 f intTypes true)
  | .vand f => some (intForm2 f intTypes false)
  | .vor f => some (intForm2 f intTypes false)
  | .vxor f => some (intForm2 f intTypes false)
  | .vnot f => some (intForm1 f intTypes false)
  | .vshl f => some (intForm2 f intTypes false)
  | .vshr f => some (intForm2 f intTypes false)
  | .vsar f => some (intForm2 f intTypes false)
  | .vrot f => some (intForm2 f [0, 1, 2, 3] false)
  | .vclz f => some (intForm1 f [0, 1, 2, 3] false)
  | .vpopc f => some (intForm1 f [0, 1, 2, 3] false)
  | .vbfe f =>
    let n := wideOf f.ty.toNat
    some (laForm f [0, 1, 2, 3] [0] false false true (.wr n) (.rd n) .zero .zero (f.sub? 0 && f.fieldOk))
  | .vbfi f =>
    let n := wideOf f.ty.toNat
    some (laForm f [0, 1, 2, 3] [0] false false true (.wr n) (.rd n) (.rd n) .zero (f.sub? 0 && f.fieldOk))
  | .vcmp f =>
    let n := wideOf f.ty.toNat
    some (laForm f intTypes [0] false true false .mask (.rd n) (.rd n) .zero
      (decide (f.sub.toNat < 6) && decide (f.m.toNat < 2)))
  | .vsel f =>
    let n := wideOf f.ty.toNat
    some (laForm f [0, 2] [0] false true false (.wr n) (.rd n) (.rd n) .mask (f.sub? 0))
  | .vmov f =>
    let n := wideOf f.ty.toNat
    some (laForm f [0, 2] [0] false true false (.wr n) (if f.imm? then .zero else .rd n) .zero .zero (f.sub? 0))
  | .vmovs f => some (laForm f [0] [0] false false false (.wr 1) .arg .zero .zero (f.sub? 0))
  | .vlane f => some (laForm f [0] [0] false false false (.wr 1) .zero .zero .zero (f.sub? 0))
  | .vwrx f => some (laForm f [0] [0] false false false .zero (.rd 1) (.rd 1) .zero (f.sub? 0))
  | .vrdx f => some (laForm f [0] [0] false false false (.wr 1) (.rd 1) .zero .zero (f.sub? 0))
  | .vtos f =>
    some (laForm f [0] [0] false false true .live (.rd 1) .zero .zero (f.sub? 0 && decide (f.imm.toNat < 32)))
  | .vfadd f => some (floatForm2 f)
  | .vfsub f => some (floatForm2 f)
  | .vfmul f => some (floatForm2 f)
  | .vfma f =>
    let n := wideOf f.ty.toNat
    some (laForm f [4, 5, 6, 7] [0, 1, 2, 3, 4, 6] false true false (.wr n) (.rd n) (.rd n) (.rd n) (f.sub? 0))
  | .vfdiv f => some (floatForm2 f)
  | .vfsqrt f =>
    let n := wideOf f.ty.toNat
    some (laForm f [4, 5, 6, 7] roundings false false false (.wr n) (.rd n) .zero f.dither (f.sub? 0))
  | .vfmin f =>
    let n := wideOf f.ty.toNat
    some (laForm f [4, 5, 6, 7] [0] false true false (.wr n) (.rd n) (.rd n) .zero
      (decide (f.sub.toNat < 2) && decide (f.m.toNat < 2)))
  | .vfmax f =>
    let n := wideOf f.ty.toNat
    some (laForm f [4, 5, 6, 7] [0] false true false (.wr n) (.rd n) (.rd n) .zero
      (decide (f.sub.toNat < 2) && decide (f.m.toNat < 2)))
  | .vfabs f =>
    let n := wideOf f.ty.toNat
    some (laForm f [4, 5, 6, 7] [0] false false false (.wr n) (.rd n) .zero .zero (f.sub? 0))
  | .vfneg f =>
    let n := wideOf f.ty.toNat
    some (laForm f [4, 5, 6, 7] [0] false false false (.wr n) (.rd n) .zero .zero (f.sub? 0))
  | .vfcmp f =>
    let n := wideOf f.ty.toNat
    some (laForm f [4, 5, 6, 7] [0] false true false .mask (.rd n) (.rd n) .zero
      (decide (f.sub.toNat < 8) && decide (f.m.toNat < 2)))
  | .vfclass f =>
    some (laForm f [4, 5, 6, 7] [0] false false false (.wr 1) (.rd (wideOf f.ty.toNat)) .zero .zero (f.sub? 0))
  | .vfscale f =>
    let n := wideOf f.ty.toNat
    some (laForm f [4, 5, 6, 7] roundings false true false (.wr n) (.rd n) (.rd 1) f.dither (f.sub? 0))
  | .vfrnd f =>
    let n := wideOf f.ty.toNat
    some (laForm f [4, 5, 6, 7] roundings false false false (.wr n) (.rd n) .zero f.dither
      (decide (f.sub.toNat < 2) && decide (f.m.toNat < 2)))
  | .vrcp f => some (specialForm f)
  | .vrsq f => some (specialForm f)
  | .vexp2 f => some (specialForm f)
  | .vlog2 f => some (specialForm f)
  | .vsinpi f => some (specialForm f)
  | .vcospi f => some (specialForm f)
  | .vtanh f => some (specialForm f)
  | .vcvt f =>
    let src := f.cvtRegs f.ty.toNat
    let dst := f.cvtRegs (f.sub.toNat % 16)
    some (laForm f [0, 1, 2, 3, 4, 5, 6, 7, 8, 9, 10, 11] roundings true false false (.wr dst) (.rd src) .zero
      (if f.rnd = 5 then .rd ((f.cvtCount + 1) / 2) else .zero)
      (decide (f.sub.toNat < 12) && decide (f.m.toNat < 2) && decide (src ≤ 4) && decide (dst ≤ 4)))
  | .vqnt f =>
    some (laForm f [12, 13, 14] [0] false false true (.wr 1) (.rd f.slotRegs) (.rw 1) .zero
      (decide (f.sub.toNat < 2) && decide (f.m.toNat < 2) && decide (f.imm.toNat < 8)))
  | .vdqn f =>
    some (laForm f [12, 13, 14] roundings false false true (.wr f.slotRegs) (.rd 1) (.rd 1)
      (if f.rnd = 5 ∧ f.sub = 1 then .rd f.slotRegs else .zero)
      (decide (f.sub.toNat < 2) && decide (f.m.toNat < 2) && decide (f.imm.toNat < 8)))
  | .vaic f =>
    some (laForm f [4] [0] true false true (.wr 4) (.rd 2) (.rd 1) (.wr 1) (f.sub? 0 && decide (f.imm.toNat < 42)))
  | .vaif f =>
    some (laForm f [4] [0] false false true (.wr 2) (.rd 4) (.rd 1) .zero (f.sub? 0 && decide (f.imm.toNat < 42)))
  | .vrand f => some (laForm f [1] [0] false false false (.wr 1) (.rd 1) .argPair .zero (f.sub? 0))
  | .voptAdamw f => some (optForm f 0)
  | .voptAdam f => some (optForm f 1)
  | .voptLion f => some (optForm f 2)
  | .voptSgd f => some (optForm f 3)
  | .vshflIdx f => some (shuffleForm f 0)
  | .vshflUp f => some (shuffleForm f 1)
  | .vshflDown f => some (shuffleForm f 2)
  | .vshflXor f => some (shuffleForm f 3)
  | .vvoteAny f => some (voteForm f 0)
  | .vvoteAll f => some (voteForm f 1)
  | .vvoteBallot f => some (voteForm f 2)
  | .vvoteUni f => some (voteForm f 3)
  | .vredAdd f => some (foldForm f 0 false)
  | .vredMin f => some (foldForm f 1 false)
  | .vredMax f => some (foldForm f 2 false)
  | .vredAnd f => some (foldForm f 3 false)
  | .vredOr f => some (foldForm f 4 false)
  | .vredXor f => some (foldForm f 5 false)
  | .vscanAdd f => some (foldForm f 0 true)
  | .vscanMin f => some (foldForm f 1 true)
  | .vscanMax f => some (foldForm f 2 true)
  | .vscanAnd f => some (foldForm f 3 true)
  | .vscanOr f => some (foldForm f 4 true)
  | .vscanXor f => some (foldForm f 5 true)
  | .vmatchAny f => some (voteForm f 0)
  | .vmatchAll f => some (voteForm f 1)
  | .vld f => some (lmForm f [0] true false (.wr (widthRegs f.wc.toNat)) .zero f.flatOk)
  | .vst f => some (lmForm f [0] true true (.rd (widthRegs f.wc.toNat)) .zero f.flatOk)
  | .vstnb f => some (lmForm f [0] true true (.rd (widthRegs f.wc.toNat)) .mask f.flatOk)
  | .vldt f => some (lmForm f [0] true false (.wr 1) .zero (decide (f.wc.toNat ≤ 2) && decide (f.m = 0)))
  | .vldb f => some (lmForm f [0] true false (.wr 1) (.rw 1) (decide (f.wc = 0) && decide (f.m = 0)))
  | .vstb f => some (lmForm f [0] true true (.rd 1) (.rd 1) (decide (f.wc = 0) && decide (f.m = 0)))
  | .vldf f => some (feForm f (.wr 1))
  | .vldfk f => some (feForm f (.wr 1))
  | .vste f => some (feForm f (.rd 1))
  | .vstf f => some (feForm f (.rd 1))
  | .vfecEmpty f => some (fecForm f 0)
  | .vfecFull f => some (fecForm f 1)
  | .vatomAdd f => some (atomForm f 0 [0, 1, 2, 3] 4 .rw (fun _ => .zero))
  | .vatomMin f => some (atomForm f 1 [0, 1, 2, 3] 4 .rw (fun _ => .zero))
  | .vatomMax f => some (atomForm f 2 [0, 1, 2, 3] 4 .rw (fun _ => .zero))
  | .vatomAnd f => some (atomForm f 3 [0, 1, 2, 3] 4 .rw (fun _ => .zero))
  | .vatomOr f => some (atomForm f 4 [0, 1, 2, 3] 4 .rw (fun _ => .zero))
  | .vatomXor f => some (atomForm f 5 [0, 1, 2, 3] 4 .rw (fun _ => .zero))
  | .vatomXchg f => some (atomForm f 6 [0, 1, 2, 3] 4 .rw (fun _ => .zero))
  | .vatomCas f => some (atomForm f 7 [0, 1, 2, 3] 4 .rw .rd)
  | .vatomFadd f => some (atomForm f 8 [4] 4 .rw (fun _ => .zero))
  | .vatomAiadd f => some (atomForm f 9 [2] 4 .rw (fun _ => .zero))
  | .vredmAdd f => some (reduceForm f 0 [0, 1, 2, 3])
  | .vredmMin f => some (reduceForm f 1 [0, 1, 2, 3])
  | .vredmMax f => some (reduceForm f 2 [0, 1, 2, 3])
  | .vredmAnd f => some (reduceForm f 3 [0, 1, 2, 3])
  | .vredmOr f => some (reduceForm f 4 [0, 1, 2, 3])
  | .vredmXor f => some (reduceForm f 5 [0, 1, 2, 3])
  | .vredmFadd f => some (reduceForm f 8 [4])
  | .vredmAiadd f => some (reduceForm f 9 [2])
  | .vrld f =>
    some (lmForm f [2, 4] false false (.wr (wideOf f.ty.toNat)) .zero
      (decide (f.wc.toNat = if f.ty = 4 then 2 else 3) && decide (f.m = 0)))
  | .vlalLeaf f => some (vlalForm f 0)
  | .vlalNode f => some (vlalForm f 1)
  | .vlkp f =>
    some (laForm f [0] [0] false false true (.wr 2) .argQuad .zero .live (f.sub? 0 && decide (f.imm.toNat < 16)))
  | .mma f => some (mmaForm f 1)
  | .mmas f => some (mmaForm f 2)
  | .mperm f => some (mpermForm f)
  | .mzero f => some (mzeroForm f)
  | .mlda f => some (blockForm f false)
  | .msta f => some (blockForm f true)
  | .mcpySt f => some (mcpyForm f 0)
  | .mcpyLd f => some (mcpyForm f 1)
  | _ => none

/-- An even register, the first of a pair (R22). -/
def pairReg (r : SReg) : Bool := decide (r.toNat % 2 = 0)

/-- The first register of a quad: a multiple of 4 from s4 to s60 (R46). -/
def quadReg (r : SReg) : Bool := decide (r.toNat % 4 = 0) && decide (4 ≤ r.toNat)

/-- A scope that is not reserved (R42). -/
def scopeCode (s : BitVec 3) : Bool := decide (s.toNat < 7)

/-- The field rules of the scalar instructions (R34 to R46); true for those without one. -/
def scalarFields : Instr → Bool
  | .add64 d a b => pairReg d && pairReg a && pairReg b
  | .sub64 d a b => pairReg d && pairReg a && pairReg b
  | .shl64 d a _ => pairReg d && pairReg a
  | .shr64 d a _ => pairReg d && pairReg a
  | .sar64 d a _ => pairReg d && pairReg a
  | .movp d a => pairReg d && pairReg a
  | .b c s _ => decide (c.toNat ≤ 6) && (decide (c ≠ 6) || decide (s = 0))
  | .ji a => pairReg a
  | .calli a => pairReg a
  | .loopImm _ _ e => decide (e ≠ 0)
  | .loopReg _ _ e => decide (e ≠ 0)
  | .brd k _ => decide (k ≠ 0)
  | .brx _ p n => pairReg p && decide (n ≠ 0)
  | .callx _ p n => pairReg p && decide (n ≠ 0)
  | .fenceAcquire s => scopeCode s
  | .fenceRelease s => scopeCode s
  | .fenceFull s => scopeCode s
  | .fenceS s w => scopeCode s && decide (w ≠ 0)
  | .give _ => true
  | .claim _ => true
  | .genr d => pairReg d && decide (d ≠ 0)
  | .sleep n => decide (n ≠ 0)
  | .launch _ a => pairReg a
  | .graph _ a _ => pairReg a
  | .cpy _ a => pairReg a
  | .rinv _ a f n _ _ _ => pairReg a && decide (n.toNat ≤ 12) && (decide (n ≠ 0) || decide (f = 0)) && decide (f.toNat + n.toNat ≤ 64)
  | .launchxRsv _ a => pairReg a
  | .launchxCmt _ a => pairReg a
  | .launchxAbt _ a => pairReg a
  | .swaproot _ e w _ => quadReg e && quadReg w
  | .rcadj _ q _ => quadReg q
  | .brget _ _ s => decide (s.toNat ≤ 9)
  | .sld8 d _ _ _ => pairReg d
  | .sst8 a _ _ _ => pairReg a
  | .caout _ a => pairReg a
  | _ => true

end Sys2Proof
end

