-- ==== Sys2Proof/Config.lean ====
section
/-! DEFINITION. What an implementation fixes and what the manual leaves open: constants without a body, so that no
proof can rest on a value of theirs. -/

namespace Sys2Proof.Config

/-- A word of the accumulator store whose contents are undefined (R288), by the epoch in which they became so and the
word's key 256 × row + column (assumption 3). -/
opaque freeAcc (epoch key : Nat) : Word

/-- A byte of host memory that the part has not written: the host's own (assumption 4). -/
opaque freeHostByte (address : Nat) : Byte

/-- A byte the manual calls undefined after an engine operation failed or overlapped itself (R281, R316, R317, R394),
by use (assumption 5). -/
opaque freeByte (use index : Nat) : Byte

/-- The choice of a read after DISCARD (R228), by use and byte: whether it returns the older value (assumption 6). -/
opaque freeChoice (use index : Nat) : Bool

/-- A value that the manual states no rule for, by use (assumption 7). -/
opaque freeWord (use : Nat) : Word

/-- Where in the virtual address space of a handler's context the part's copy of its invocation record lies (R401), by
launch ticket, in units of 64 bytes (assumption 8). -/
opaque copyPlace (ticket : Nat) : Nat

/-- What another rank's replica holds when its engine reads it for a VRLD (R397), by use, rank and lane (assumption 9). -/
opaque replicaWord (use rank lane : Nat) : Dword

/-- The 64-bit digest of an effect that a shade pair releases (R359), by group and instruction number: the manual does not give
the function. -/
opaque effectDigest (group instruction : Nat) : BitVec 64

/-- MATHREV (R25, R76): identifies the special-function unit; no result depends on it. -/
opaque mathRev : Word

/-- The largest module power limit that the part's form allows is 2,800 W for the lower-power bin and 3,600 W
otherwise (R1); which form this part is, the implementation fixes. `lowPower` tells the lower-power bin. -/
opaque lowPower : Bool

/-- The identity private key in fuses (R442), readable by no path. -/
opaque identityKey : Nat

/-- The per-signature secret of an attestation signature (R442), by the digest signed. -/
opaque signatureSecret (digest : Nat) : Nat

/-- Svetmer's certificate for the identity public key (R442). -/
opaque certificate : List Byte

/-- The boot-ROM public keys 0 to 3 as affine points (R440). -/
opaque bootKeyX (id : Nat) : Nat

/-- The second coordinate of boot-ROM public key `id`. -/
opaque bootKeyY (id : Nat) : Nat

/-- The mask of revoked boot keys in fuses (R440, R442). -/
opaque revokedKeys : BitVec 4

/-- The fused minimum security version (R440). -/
opaque fusedSvn : Nat

end Sys2Proof.Config
end

