-- ==== Sys2Proof/Machine/Sparse.lean ====
section
/-! DEFINITION. Finite maps from natural numbers, held as plain lists in one canonical form: keys strictly rising. The
register files, the memories and every table of the machine that has many equal entries are held so. -/

namespace Sys2Proof.Machine

/-- A map from keys to values; a key that is not listed has the map's default value. -/
abbrev Sparse (α : Type) := List (Nat × α)

/-- The value of key `k`; `d` where `k` is not listed. -/
def Sparse.get {α : Type} (d : α) : Sparse α → Nat → α
  | [], _ => d
  | (i, v) :: rest, k => if k = i then v else Sparse.get d rest k

/-- The value of key `k` where it is listed. -/
def Sparse.find {α : Type} : Sparse α → Nat → Option α
  | [], _ => none
  | (i, v) :: rest, k => if k = i then some v else Sparse.find rest k

/-- Remove key `k`. -/
def Sparse.erase {α : Type} : Sparse α → Nat → Sparse α
  | [], _ => []
  | (i, v) :: rest, k => if k = i then Sparse.erase rest k else (i, v) :: Sparse.erase rest k

/-- List key `k` with value `v`. -/
def Sparse.put {α : Type} : Sparse α → Nat → α → Sparse α
  | [], k, v => [(k, v)]
  | (i, w) :: rest, k, v =>
    if k = i then (k, v) :: rest
    else if k < i then (k, v) :: (i, w) :: rest
    else (i, w) :: Sparse.put rest k v

/-- Give key `k` the value `v`, keeping the canonical form: a key whose value is the default `d` is not listed. -/
def Sparse.set {α : Type} [DecidableEq α] (d : α) (m : Sparse α) (k : Nat) (v : α) : Sparse α :=
  if v = d then Sparse.erase m k else Sparse.put m k v

/-- Every key of the map lies above `k`. -/
def Sparse.above {α : Type} (k : Nat) : Sparse α → Bool
  | [] => true
  | (i, _) :: rest => decide (k < i) && Sparse.above i rest

/-- Keys strictly rising. -/
def Sparse.sorted {α : Type} : Sparse α → Bool
  | [] => true
  | (i, _) :: rest => Sparse.above i rest

/-- The canonical form: keys strictly rising and no entry equal to the default. -/
def Sparse.wf {α : Type} [DecidableEq α] (d : α) (m : Sparse α) : Bool :=
  Sparse.sorted m && m.all (fun e => decide (e.2 ≠ d))

/-- The memory of the part's stacks: bytes by physical address, in canonical form. -/
abbrev Memory := List Host.Cell

/-- What an unlisted byte reads as: a start zeroes every HBM byte before any group can run (R441, state ZERO). -/
def Memory.blank : Byte := 0

/-- Read one byte. -/
def Memory.read (m : Memory) (a : Nat) : Byte := Sparse.get Memory.blank m a

/-- Write one byte, keeping the canonical form. -/
def Memory.write (m : Memory) (a : Nat) (v : Byte) : Memory := Sparse.set Memory.blank m a v

/-- The canonical form of memory. -/
def Memory.wf (m : Memory) : Bool := Sparse.wf Memory.blank m

end Sys2Proof.Machine
end

