-- ==== Sys2Proof/Machine/State.lean ====
section
/-! DEFINITION. The state of one K740: every piece of state the manual gives the part, as plain data, and the state
right after reset. -/

namespace Sys2Proof.Machine

/-! ### Names of places -/

/-- A place an access is made at, after translation: a device physical address, a host address (R242), a byte of the
scratchpad of a core (R150), or a byte of the part's copy of the invocation record of a handler's launch (R401). -/
inductive Loc where
  | dev (pa : Nat)
  | host (ha : Nat)
  | scr (core : Nat) (off : Nat)
  | inv (ticket : Nat) (off : Nat)
  deriving DecidableEq, Repr

/-- The kinds of access a translation authorises (R237). -/
inductive Access where
  | load
  | store
  | fetch
  deriving DecidableEq, Repr

/-- Who makes an access that is translated. -/
inductive Requester where
  /-- An instruction that has not issued: the next of a path slot, or of the lane stream. -/
  | stream (g : Nat) (slotB lane : Bool)
  /-- A load, or a store in the queue or in the side log, by its group and its number. -/
  | access (g id : Nat)
  /-- An engine's operation (R455). -/
  | copy (hcl ticket : Nat)
  | node (die ticket node : Nat)
  | graph (die ticket : Nat)
  | coll (comm ticket : Nat)
  | launch (ticket : Nat)
  | pull (addr : Nat)
  | replica (comm : Nat)
  deriving DecidableEq, Repr

/-- An access to translate: who makes it, through which TLB and for which context, and LOC, TICKET and FLAGS of a record
about it (R343). -/
structure Asker where
  who : Requester
  hcl : Nat
  ctx : Nat
  loc : Nat
  ticket : Nat
  flags : Nat
  deriving DecidableEq, Repr

/-- The scope codes of R42 and R248. -/
inductive Scope where
  | group | team | cluster | die | device | system | pod
  deriving DecidableEq, Repr

/-! ### One group (R11 to R31, R164 to R180) -/

/-- One loop level: ls, le, lc (R22, R109). `high` holds the upper 32 bits of ls and le, those of the LOOP's own pc. -/
structure LoopLevel where
  high : Word
  start : Word
  stop : Word
  count : Word
  deriving DecidableEq, Repr

/-- A path slot's wait inside an instruction that has begun to wait and issues again until it completes. -/
inductive SlotWait where
  | none
  /-- FENCE, PUBLISH or RTSWAP: blocks and accesses numbered below `before` are the earlier ones (R254). -/
  | fence (before : Nat)
  /-- Arrived at BAR (R202). -/
  | bar
  /-- Every group has arrived at BAR: the fence at its end (R202). -/
  | barFence
  /-- Arrived at PHEND with its phase record written (R196). -/
  | phend
  /-- Waiting in the team's order of claimants (R195). -/
  | claim
  /-- Waiting among the takers of the flame (R290). -/
  | flame
  /-- A command accepted with this ticket, still waiting to register its locks (R315). -/
  | command (ticket : Nat)
  /-- RTSWAP holding new COLLs and VRLDs of the communicator at issue (R421). -/
  | swap (comm : Nat)
  /-- PUBLISH with the odd version sent, waiting for the PCIe read (R265). -/
  | publish (window : Nat)
  /-- A store that has waited for credit since this time (R225, R227). -/
  | credit (since : Nat) (word : Word)
  /-- A division that has waited for continuation records since this time (R174). -/
  | records (since : Nat)
  deriving DecidableEq, Repr

/-- A path slot (R167): what is held per slot. -/
structure Slot where
  live : Bool
  pc : Dword
  xm : Word
  lanes : Word
  depth : Nat
  loops : List LoopLevel
  top : Option Nat
  /-- Until when SLEEP holds the slot (R115). -/
  sleep : Option Nat
  wait : SlotWait
  deriving DecidableEq, Repr

/-- An entry of the join stack (R170). -/
structure JoinEntry where
  joinPc : Dword
  count : Nat
  arrived : Word
  depth : Nat
  call : Bool
  loops : List LoopLevel
  parent : Option Nat
  deriving DecidableEq, Repr

/-- A continuation record (R174). -/
structure Continuation where
  pc : Dword
  lanes : Word
  top : Option Nat
  depth : Nat
  loops : List LoopLevel
  deriving DecidableEq, Repr

/-- An entry of the lane queue and what LRUN captured in it (R15). `next` is the byte offset, from the lane code base, of
the entry's next lane instruction; `seq` numbers the group's blocks and scalar accesses in issue order; `open_` tells
that its last instruction has issued and the entry only waits for register results (R19). -/
structure Block where
  seq : Nat
  index : Nat
  next : Nat
  mask : Word
  part : Word
  frm : Word
  fpe : Word
  args : List Word
  slotB : Bool
  lrunPc : Dword
  drain : Bool
  /-- One of the two trap entries (R338). -/
  trap : Bool
  deriving DecidableEq, Repr

/-- One lane's share of an access: the lane, the virtual address it names, and the place it reaches once translated (none
while its page fault waits, R345). -/
structure LaneAcc where
  lane : Nat
  va : Nat
  loc : Option Loc
  deriving DecidableEq, Repr

/-- What an outstanding load writes when its data arrive (R158). -/
inductive LoadKind where
  /-- VLD and VLDT: `n` bytes for each lane into `vd` (R155, R221). -/
  | lanes (vd : Nat) (n : Nat)
  /-- VLDT: one column access of a tile, `n` bytes for each lane (R221). -/
  | column (vd : Nat) (n : Nat)
  /-- VLDB: elements into `vd`, exponent words into `comp`; the active lanes and the format record (R162). Each live slot
  is its lowest active lane, its number and its sub-block. -/
  | blocks (vd : Nat) (comp : Nat) (active : Word) (fmt : Word) (slots : List (Nat × Nat × Nat))
  /-- SLD: 4 or 8 bytes into a scalar register (R118). -/
  | scalar (rd : Nat) (n : Nat)
  /-- BRLD: 16 bytes into a record (R119). -/
  | record (bd : Nat)
  /-- VATOM: the operation and type, each active lane's operand and compare value, and the old values gathered as the
  packets execute (R326). The entry's accesses are the lanes not sent yet. -/
  | atomic (vd : Nat) (op ty : Nat) (args : List (Nat × Nat × Nat)) (old : List (Nat × Nat)) (acquire release : Bool)
      (clamped : Bool)
  /-- VLDF and VLDFK: the lanes' words, gathered as the words are served (R214). -/
  | fullEmpty (vd : Nat) (got : List (Nat × Word)) (waiting : Nat)
  /-- VRLD: the exact sum over the replicas (R397). -/
  | replica (vd : Nat) (wide : Bool) (comm : Nat) (gen : BitVec 64) (terms : List (Nat × List Nat))
  /-- VOPT some of whose loads wait: its mode, its active lanes, its records, its hyper-parameters, its captured enables, and
  its writes in order, by record and lane; lane l of record k has number 32 × k + l. Its store has the next number. -/
  | opt (mode : Nat) (act : Word) (recs : List (BitVec 128)) (hyper : List Word) (fpe : Word)
      (writes : List (Nat × LaneAcc))
  deriving DecidableEq, Repr

/-- A record of a pair's replay log (R359): a value that entered the load value queue, by the number of its instruction, with
its words once they are here; the digest of an effect that was released; the passing of a synchronising instruction. -/
inductive ReplayRecord where
  | value (id : Nat) (words : List Word)
  | effect (digest : Dword)
  | passed
  deriving DecidableEq, Repr

/-- The location and words that name a trapping instruction (R336). -/
structure TrapSite where
  slotB : Bool
  lane : Bool
  pc : Dword
  lanePc : Dword
  w0 : Word
  w1 : Word
  w2 : Word
  deriving DecidableEq, Repr

/-- A load in flight (R19, R158). `hint` and `cls` are the access's hint and record class (R217). `accs` are the accesses
still to be read, `got` those read: lane, address and bytes (R345). -/
structure LoadEntry where
  id : Nat
  seq : Nat
  kind : LoadKind
  accs : List LaneAcc
  got : List (Nat × Nat × List Byte)
  hint : Nat
  cls : Nat
  slotB : Bool
  site : TrapSite
  deriving DecidableEq, Repr

/-- One write of a store: its virtual address, its place once translated, its bytes, its write stream and its record's
class. -/
structure Write where
  va : Nat
  loc : Option Loc
  data : List Byte
  stream : Nat
  cls : Nat
  deriving DecidableEq, Repr

/-- What a queued store does when it leaves the store queue (R223, R326). -/
inductive StoreKind where
  /-- Bytes written in the listed order. -/
  | bytes (writes : List Write)
  /-- DISCARD of a physical range (R228), as the row-lines wholly inside it, on a write stream. -/
  | discard (lines : List Nat) (stream : Nat)
  /-- VREDM: its lanes with their places, and each lane's operand. -/
  | reduce (op ty : Nat) (rel : Bool) (lanes : List (LaneAcc × Nat))
  deriving DecidableEq, Repr

/-- An instruction's place in the store queue (R223). -/
structure StoreEntry where
  id : Nat
  seq : Nat
  kind : StoreKind
  hint : Nat
  slotB : Bool
  /-- A lane store, not a scalar one. -/
  lane : Bool
  deriving DecidableEq, Repr

/-- A store held in the side log (R346): either bytes by virtual address, their places forgotten, or a reduction's lanes. -/
inductive LogKind where
  | bytes (writes : List Write)
  | reduce (op : Nat) (ty : Nat) (rel : Bool) (lanes : List (Nat × Nat × Nat))
  deriving DecidableEq, Repr

/-- A side-log entry (R346). -/
structure LogEntry where
  g : Nat
  ctx : Nat
  id : Nat
  seq : Nat
  kind : LogKind
  slotB : Bool
  /-- The launch that the group belongs to. -/
  ticket : Nat
  deriving DecidableEq, Repr

/-- A trap (R334): cause, lane mask, TCAUSE.CODE, and for termination the PAGE reason or unit and the address (R343). -/
structure Trap where
  cause : Nat
  mask : Word
  code : Nat
  reason : Nat
  addr : Nat
  site : TrapSite
  deriving DecidableEq, Repr

/-- A ticket slot of RINV and LAUNCHX (R405, R406, R410). -/
structure TicketSlot where
  ticket : Word
  reply : Bool
  must : Bool
  /-- The record as sent, for a retry. -/
  record : List Byte
  target : Word
  retries : Nat
  retryAt : Option Nat
  /-- LAUNCHX: 0 none, 1 reserve, 2 commit, 3 abort; the member devices in rank order, and the answers in the order of
  their arrival: rank, status and detail. -/
  launchx : Nat
  members : List Word
  answers : List (Nat × Nat × Nat)
  /-- The final status word of R407. -/
  final : Option Word
  failed : Bool
  deriving DecidableEq, Repr

/-- A reservation that LAUNCHX.rsv made (R410): the address it was made from, its ticket, the record, the member devices,
and whether all of them hold an entry. -/
structure Reservation where
  addr : Nat
  ticket : Word
  record : List Byte
  members : List Word
  held : Bool
  deriving DecidableEq, Repr

/-- A full/empty store or VFEC of a group, waiting for lanes to proceed (R214): the lanes that still wait. -/
structure FeStore where
  id : Nat
  seq : Nat
  waiting : Nat
  /-- The lanes whose accesses have not gone to their words' homes yet, because earlier accesses of the group are to be
  performed first (R260): lane, address and data. -/
  ahead : List (Nat × Nat × Word)
  op : Nat
  site : TrapSite
  deriving DecidableEq, Repr

/-- An update of FSTAT or VSTAT in lane program order (R26): that of access or matrix instruction `id`, its bits once it has
completed. -/
structure LateFlag where
  id : Nat
  bits : Word
  known : Bool
  deriving DecidableEq, Repr

/-- The register files and CSRs that the manual calls shared by both slots (R22, R25, R167, R337). -/
structure Csrs where
  part : Word
  fpe : Word
  fstat : Word
  frm : Word
  trpc : Word
  utvec : Word
  tcause : Word
  tlmask : Word
  tspc : Word
  tlpc : Word
  tiw0 : Word
  tiw1 : Word
  tiw2 : Word
  vstat : Word
  amax : Word
  budget : Word
  tctl : Word
  txm : Word
  bkpri : Word
  secpol : Word
  deriving DecidableEq, Repr

/-- What a group takes from its launch and placement (R28, R189, R191). -/
structure Ident where
  role : Word
  teamId : Word
  clusterId : Word
  gridX : Word
  gridY : Word
  gridZ : Word
  stbcfg : Word
  team : TeamKey
  ctx : Nat
  privileged : Bool
  deterministic : Bool
  /-- In shade mode, the entry that the group's shade occupies (R354). -/
  shade : Option Nat
  /-- This entry is occupied by the shade of another. -/
  isShade : Bool
  scalarEntry : Dword
  lcb : Dword
  laneSize : Nat
  index : Nat
  /-- Carry range: first register and count (R197). -/
  carryFirst : Nat
  carryCount : Nat
  deriving DecidableEq, Repr

/-- One resident group. A group entry that holds no group reads as `Group.vacant`. -/
structure Group where
  resident : Bool
  /-- When the group became resident for its phase (R203). -/
  age : Nat
  ident : Ident
  s : Sparse Word
  v : Sparse Word
  k : Sparse Word
  b : Sparse (BitVec 128)
  fmt : Sparse Word
  csr : Csrs
  slotA : Slot
  slotB : Slot
  exited : Word
  joins : Sparse JoinEntry
  conts : List Continuation
  blocks : List Block
  /-- Blocks whose last instruction has issued and whose register results are not all written (R19). -/
  draining : List Block
  loads : List LoadEntry
  stores : List StoreEntry
  feStores : List FeStore
  /-- VREDM, PUBLISH and VLAL instructions counted in the store class and not complete: number, block or access number, and
  what they are: 1 a reduction whose packets are out, 0 a VLAL that waits for credit and counts in the load class too, above
  1 a PUBLISH. -/
  storesOther : List (Nat × Nat × Nat)
  copies : Nat
  batches : Nat
  seq : Nat
  /-- The batch counter NB (R304). -/
  nb : Word
  /-- Batches in flight, oldest first (R304, R305): the number, and the number below which the group's blocks belong to the
  batch where they belong to none before it. -/
  inFlight : List (Word × Nat)
  /-- Matrix instructions whose batch has not retired: number, block, and the registers they hold read-locked (R307). -/
  locks : List (Nat × Nat × List Nat)
  /-- Sectors this group stored to that no system release has written back (R255). -/
  dirtySectors : List Nat
  /-- Posted writes to host memory that no PCIe read has followed (R249, R255). -/
  posted : Bool
  /-- The trap entered and the stream it holds: the loop depth at delivery and the trapping block (R336). -/
  handlerDepth : Nat
  handlerSlotB : Bool
  /-- The number that the group's next access had at delivery: lower ones were issued before. -/
  handlerSeq : Nat
  /-- What the trapping slot waited in, where that is no wait that issues afresh (R336). -/
  heldWait : SlotWait
  heldLane : Bool
  pending : List Trap
  tickets : List TicketSlot
  reservations : List Reservation
  /-- SECPOL's rate trigger counts from here, and DUE was set at this time (R431, R432). -/
  rateFrom : Nat
  dueSince : Option Nat
  /-- The microsecond in which its triggers were last evaluated (R431). -/
  secAt : Nat
  /-- Since when the store at the head of the lane queue waits for credit, and its 96 bits (R227). -/
  laneWait : Option (Nat × Nat)
  /-- Updates of FSTAT and VSTAT behind one that is not known yet, in lane program order (R26). -/
  lateF : List LateFlag
  lateV : List LateFlag
  /-- The replay log of the pair's phase, in pair program order, for a group with a shade (R359). -/
  replayLog : List ReplayRecord
  deriving DecidableEq, Repr

/-! ### One core (R203, R204, R210 to R218, R288 to R291) -/

/-- A line of the L1 (R218): its number PA / 128 and its bytes as they were filled or updated. -/
structure L1Line where
  line : Nat
  bytes : List Byte
  firstOut : Bool
  deriving DecidableEq, Repr

/-- A scratchpad word with its full/empty bit (R213). -/
structure ScrWord where
  data : Word
  full : Bool
  deriving DecidableEq, Repr

/-- A lane that waits on a scratchpad word at its home (R214, R215): 0 VLDF, 1 VLDFK, 2 VSTE. -/
structure FeWaiter where
  g : Nat
  id : Nat
  lane : Nat
  word : Nat
  op : Nat
  data : Word
  since : Nat
  site : TrapSite
  deriving DecidableEq, Repr

/-- A matrix instruction in the engine's queue (R294, R303): the group, its id and the captured operands. -/
structure EngineOp where
  g : Nat
  id : Nat
  instr : Instr
  ctx : Nat
  /-- MCPY: the scratchpad core and byte offset (R302). -/
  core : Nat
  off : Nat
  slotB : Bool
  /-- The block the instruction belongs to (R19, R301). -/
  block : Nat
  deriving DecidableEq, Repr

/-- One core. -/
structure Core where
  l1 : List L1Line
  scratch : Sparse ScrWord
  waiters : List FeWaiter
  poolcfg : Word
  acc : Sparse Word
  /-- Raised whenever the accumulator's contents become undefined (R288). -/
  accEpoch : Nat
  flame : Option Nat
  takers : List Nat
  engine : List EngineOp
  sideLog : List LogEntry
  /-- Lost-locality detector (R204): victim tags, hits in the window, hits of the last window, quota, threshold. -/
  victims : List Nat
  hits : Nat
  thrcfg : Word
  lastHits : Nat
  quota : Nat
  /-- The core has had no resident group in this window (R204). -/
  idle : Bool
  /-- When the current window of R204 started. -/
  window : Nat
  deriving DecidableEq, Repr

/-! ### Hardware core cluster and die engines (R198, R240, R312 to R323) -/

/-- An entry of the range-lock table (R321): `scr` names the core of a scratch range. -/
structure RangeLock where
  op : Nat
  write : Bool
  ctx : Nat
  scr : Option Nat
  lo : Nat
  hi : Nat
  order : Nat
  deriving DecidableEq, Repr

/-- What a command of the copy engine is (R312). -/
inductive CopyKind where
  | cpy
  | caout
  deriving DecidableEq, Repr

/-- A command of the copy engine (R312 to R317, R280, R281). -/
structure CopyCmd where
  ticket : Nat
  /-- The operation's number in the range-lock table. -/
  op : Nat
  kind : CopyKind
  bytes : List Byte
  /-- The issuing group while it lives, or the graph node (die, ticket, node) that submitted it (R318). -/
  g : Option Nat
  node : Option (Nat × Nat × Nat)
  /-- The issuing core, whose L1 loses the destination's lines (R317); none for a graph node. -/
  core : Option Nat
  ctx : Nat
  /-- The launch of the issuing group. -/
  launch : Nat
  started : Bool
  /-- CPY: set when some destination bytes have been written ahead of the others (R263), the use that chose them. CAOUT:
  the status its walk ended with. -/
  early : Option Nat
  /-- CAOUT holds a reference to its root (R281). -/
  pinned : Bool
  /-- The status once known: the work is over, its locks are released or were never taken. -/
  status : Option Nat
  deriving DecidableEq, Repr

/-- A request packet of the atomic service (R323 to R326): the lanes with their physical addresses, operands and compare
values. `load` is the load entry that VATOM fills, `log` the side-log entry replayed. -/
structure Packet where
  g : Nat
  id : Nat
  ctx : Nat
  op : Nat
  ty : Nat
  returns : Bool
  /-- The launch that the group belongs to. -/
  ticket : Nat
  lanes : List (Nat × Nat × Nat × Nat)
  deriving DecidableEq, Repr

/-- An item of a task queue (R198): a cluster start, or a team phase. -/
structure TaskItem where
  start : Bool
  ticket : Nat
  cluster : Nat
  team : Nat
  prio : Nat
  bypassed : Nat
  /-- A cluster start that has become a reservation, and what is held for it: core, resource (0 to 3 the entries of a
  scheduler, 4 bytes of the register region) and amount. -/
  reserved : Bool
  held : List (Nat × Nat × Nat)
  deriving DecidableEq, Repr

/-- One hardware core cluster. -/
structure Hcl where
  tasks : List TaskItem
  copyQueue : List CopyCmd
  copyTicket : Nat
  locks : List RangeLock
  lockOrder : Nat
  packets : List Packet
  deriving DecidableEq, Repr

/-- Where a node of a graph stands (R318 to R320). -/
inductive NodeStage where
  /-- Its count has not reached 0, or there was no room yet. -/
  | waiting
  /-- Counted as running; its work is not submitted yet. -/
  | starting
  | running
  /-- Its work is over; its status and its successors' counts are being written. -/
  | ended
  | done
  deriving DecidableEq, Repr

/-- A node of a graph in flight (R318, R320): its fields, and how many of the writes of its finish are made. -/
structure GraphNode where
  kind : Nat
  scope : Nat
  pred : Nat
  succ : List Nat
  arg0 : Nat
  arg1 : Nat
  arg2 : Nat
  stage : NodeStage
  status : Nat
  writes : Nat
  /-- The ticket slot of a remote invocation (R318, type 5). -/
  slot : Option TicketSlot
  deriving DecidableEq, Repr

/-- A graph in flight (R318 to R320): its header's fields once loaded, its nodes, and the steps of its
completion made. -/
structure Graph where
  ticket : Nat
  table : Nat
  ctx : Nat
  /-- The group that submitted it, while it lives. -/
  g : Option Nat
  hcl : Nat
  privileged : Bool
  n : Nat
  loaded : Bool
  statA : Nat
  sigA : Nat
  sigV : Nat
  scope : Nat
  nodes : List GraphNode
  /-- The table was refused: nothing starts (R319). -/
  bad : Bool
  step : Nat
  deriving DecidableEq, Repr

/-- One core die: its graph walker. -/
structure Die where
  graphs : List Graph
  graphTicket : Nat
  deriving DecidableEq, Repr

/-! ### The LLC (R219, R220, R363 to R365) -/

/-- A sector held in its home slice (R219, R220): `bytes` lists the bytes of valid lines by offset, `axes` the axes of the
last accesses, newest first (true: column). -/
structure Sector where
  way : Nat
  col : Bool
  valid : Word
  dirty : Word
  bytes : Sparse Byte
  owner : Nat
  stream : Nat
  axes : List Bool
  used : Nat
  firstOut : Bool
  deriving DecidableEq, Repr

/-- A block of a stack's DRAM cache layer (R222): its sector number PA / 1,024, and whether it is dirty. -/
structure LayerBlock where
  sector : Nat
  dirty : Bool
  deriving DecidableEq, Repr

/-- The last-level cache: sectors by sector number PA / 1,024, a use counter, and LLCWAYDIS by slice (R365). Behind it the
DRAM cache layers (R222): by 2^20 × stack + set the blocks present, the most recently used first; the bytes of a present
block are those of `State.mem`, which holds what the controllers serve. Beside it the row-lines given up by DISCARD and not
stored to since (R228), by PA / 32: the value that memory held under the cached copy. -/
structure Llc where
  sectors : Sparse Sector
  clock : Nat
  wayDis : Sparse Word
  layer : Sparse (List LayerBlock)
  discards : Sparse (List Byte)
  deriving DecidableEq, Repr

/-! ### Translation (R229 to R247, R344) -/

/-- A TLB entry (R240): context, page base and size in the virtual space, and where it leads. -/
structure TlbEntry where
  hcl : Nat
  ctx : Nat
  va : Nat
  size : Nat
  base : Nat
  host : Bool
  read : Bool
  write : Bool
  exec : Bool
  /-- A store may pass: D is set (R238). -/
  dirtyOk : Bool
  deriving DecidableEq, Repr

/-- A walk asked for (R240): the access that asked first, and the others that merged into it. -/
structure Walk where
  first : Asker
  others : List Requester
  va : Nat
  kind : Access
  deriving DecidableEq, Repr

/-- A page-fault request awaiting its answer (R344), for one context, 64 KiB page, and load or store. -/
structure FaultReq where
  id : Nat
  ctx : Nat
  page : Nat
  store : Bool
  reason : Nat
  deriving DecidableEq, Repr

/-- An access whose walk ended in a fault: it waits for the answer to request `id`; with id 0 there is none to wait for,
and the access ends with the reason and the address (unit 13 of UNCORR where the reason is 256). -/
structure Waiter where
  who : Requester
  ctx : Nat
  page : Nat
  kind : Access
  id : Nat
  reason : Nat
  addr : Nat
  deriving DecidableEq, Repr

/-- An ATS or PRI request outstanding at the host (R242, R243). -/
structure HostReq where
  id : Nat
  walk : Walk
  read : Bool
  write : Bool
  /-- The leaf's D is set (R238). -/
  dirty : Bool
  /-- The host denied the permission: a Page Request is to be sent, or has been sent and not answered. -/
  denied : Bool
  pri : Bool
  /-- This ATS request follows a successful page response. -/
  second : Bool
  deriving DecidableEq, Repr

/-- An address region's mapping (R229, R230). -/
structure RegionMap where
  base : Nat
  limit : Nat
  rows : List Word
  slots : List Byte
  deriving DecidableEq, Repr

/-- An address region block: staged copy, the mapping that a commit has checked and that waits to take effect, active
mapping and STATUS (R230, R231). -/
structure AddrRegion where
  staged : RegionMap
  next : RegionMap
  active : RegionMap
  status : Nat
  deriving DecidableEq, Repr

/-- The translation machinery. -/
structure Vm where
  tlb : List TlbEntry
  walks : List Walk
  faults : List FaultReq
  waiters : List Waiter
  nextFault : Nat
  hostReqs : List HostReq
  nextHostReq : Nat
  invva : Word
  invvah : Word
  invcmd : Word
  fetmocfg : Word
  regions : Sparse AddrRegion
  deriving DecidableEq, Repr

/-! ### Launches and scheduling (R188 to R202, R348 to R352) -/

/-- A kernel header as read (R28). -/
structure Header where
  flags : Nat
  entry : Dword
  lcb : Dword
  laneSize : Nat
  budget : Nat
  feed : Nat
  math : Nat
  drain : Nat
  carryFirst : Nat
  carryCount : Nat
  reqScr : Nat
  reqL1 : Nat
  utvec : Word
  handlers : Nat
  deriving DecidableEq, Repr

/-- A launch record's fields (R191). -/
structure LaunchRec where
  hdr : Nat
  gx : Nat
  gy : Nat
  gz : Nat
  cw : Nat
  ch : Nat
  team : Nat
  prio : Nat
  flags : Nat
  phlim : Nat
  pbreg : Nat
  pbscr : Nat
  pbl1 : Nat
  scope : Nat
  node : Nat
  graphT : Nat
  sigA : Nat
  sigV : Nat
  statA : Nat
  argB : Nat
  argX : Nat
  reservedZero : Bool
  deriving DecidableEq, Repr

/-- Who submitted a launch: a group, a graph node, or the distributor itself for a handler (R401). -/
inductive Launcher where
  | group (g : Nat)
  | node (die ticket node : Nat)
  /-- A handler: its journal entry, the sender, its ticket, whether it wants a reply, and for LAUNCHX this device's rank. -/
  | handler (seq : Nat) (src ticket : Word) (reply : Bool) (member : Option Nat)
  deriving DecidableEq, Repr

/-- A launch in flight (R193, R194). -/
structure Launch where
  ticket : Nat
  record : LaunchRec
  hdr : Header
  ctx : Nat
  launcher : Launcher
  /-- The launcher is privileged (R192). -/
  privileged : Bool
  /-- The header has been read and every check of R193 passed or answered. -/
  checked : Bool
  /-- Its first cluster has been placed. -/
  begun : Bool
  /-- Clusters not yet handed over by the distributor, and clusters not yet retired. -/
  nextCluster : Nat
  retired : Nat
  /-- The status once known. -/
  status : Option Nat
  /-- Gates closed by team phase nodes: cluster, team, phase (R318). -/
  gates : List (Nat × Nat × Nat)
  /-- Sectors that groups of the grid stored to and no system release has written back, and the group entries that ended
  with posted writes (R194, R255). -/
  dirty : List Nat
  posted : List Nat
  /-- Steps of R194 done. -/
  step : Nat
  deriving DecidableEq, Repr

/-- The phase record of one group (R197). -/
structure PhaseRec where
  index : Nat
  group : Group
  spilled : Bool
  deriving DecidableEq, Repr

/-- Where a team stands. -/
inductive TeamStage where
  | running
  | queued
  | held
  | ended
  deriving DecidableEq, Repr

/-- One team of a placed cluster (R195 to R200, R225). -/
structure Team where
  key : TeamKey
  stage : TeamStage
  phase : Nat
  core : Nat
  placedAt : Nat
  /-- The group entries of the running phase, by group index. -/
  members : List Nat
  records : List PhaseRec
  /-- In shade mode, the records from which the running phase started, kept for a replay (R359); none in phase 0. -/
  starts : List PhaseRec
  live : List Nat
  total : Nat
  pool : Nat
  claimants : List Nat
  stbcfg : Word
  credit : Int
  windowStart : Nat
  deriving DecidableEq, Repr

/-- A placed cluster (R188, R199). -/
structure Cluster where
  ticket : Nat
  index : Nat
  hcl : Nat
  row : Nat
  col : Nat
  w : Nat
  h : Nat
  teams : List Team
  /-- Has given up its rectangle (R350). -/
  unplaced : Bool
  deriving DecidableEq, Repr

/-- The launch distributor, the clusters, and the pre-emption state of the contexts. -/
structure Sched where
  nextTicket : Nat
  launches : List Launch
  clusters : List Cluster
  /-- Pre-emption states by context: 0 RUNNING, 1 PENDING, 2 SAVED, 3 TERMINATED (R348, R349). -/
  preempt : Sparse Nat
  precmd : Word
  /-- Items that the distributor holds because a queue is full at their priority, by hardware core cluster (R198). -/
  waiting : List (Nat × TaskItem)
  spillBase : Nat
  spillSize : Nat
  deriving DecidableEq, Repr

/-! ### Content-addressed lines (R267 to R282) -/

/-- Who made a pending entry, and its line's bytes (R275): the group, its block and the instruction's place in it, or none
for a pull. -/
structure PendingLine where
  g : Option Nat
  block : Nat
  next : Nat
  bytes : List Byte
  /-- The write stream of its line write. -/
  stream : Nat
  deriving DecidableEq, Repr

/-- A directory entry (R271). -/
structure DirEntry where
  name : LineName
  node : Bool
  region : Nat
  slot : Nat
  count : Nat
  /-- Not yet visible: the VLAL that made it still waits for credit (R275). -/
  pending : Option PendingLine
  deriving DecidableEq, Repr

/-- A region descriptor (R269, R427). -/
structure Region where
  salt : Nat
  rootVa : Nat
  rootSize : Nat
  ctx : Nat
  flags : Nat
  quota : Nat
  live : Nat
  deriving DecidableEq, Repr

/-- A pull (R428, R429): the lines still to fetch as (name, level), the first of them being asked for; those fetched and
not entered, the last one first; the references added; and how the asking for the first line has gone. -/
structure Pull where
  addr : Nat
  cmd : List Byte
  running : Bool
  todo : List (LineName × Nat)
  got : List (LineName × Bool × List Byte)
  made : List LineName
  j : Nat
  tries : Nat
  badHash : Bool
  badKind : Bool
  deriving DecidableEq, Repr

/-- The directory, its regions, the reclaim queue and the join engine's queue. -/
structure Dir where
  base : Nat
  log : Nat
  lineBase : Nat
  lineCount : Nat
  regions : Sparse Region
  entries : List DirEntry
  reclaim : List DirEntry
  pulls : List Pull
  deriving DecidableEq, Repr

/-! ### Fabric and collectives (R379 to R398, R420 to R422) -/

/-- A message the part sends beyond itself, in the order sent. -/
inductive Msg where
  | control (port : Nat) (lastAccepted : Word)
  | beacon (port : Nat) (src : Word) (gen : BitVec 64) (state : Nat)
  | suspicion (arbiter named : Word)
  | withdrawal (arbiter named : Word)
  | latestRequest (arbiter : Word)
  | update (target : Option Word) (gen : BitVec 64) (dev : Word)
  | joinRequest (arbiter dev : Word)
  | joinAnswer (dev : Word) (admitted : Bool) (gen : BitVec 64)
  | admission (neighbour dev : Word)
  | invocation (target : Word) (record : List Byte)
  | answer (target : Word) (ticket : Word) (a : InvAnswer)
  | launchx (target : Word) (req : LaunchxReq)
  | lineRequest (target : Word) (name : LineName) (region : Nat)
  | lineReply (target : Word) (r : LineReply)
  | chunk (target : Word) (c : CollChunk)
  | staleGen (target : Word) (comm : Nat)
  | replicaRequest (target : Word) (comm va width tag : Nat)
  | replicaReply (target : Word) (tag : Nat) (value : Nat)
  | ats (id : Nat) (pasid va : Nat)
  | pri (id : Nat) (pasid va : Nat) (write : Bool)
  | atsInvalidated (pasid va size : Nat)
  | msix (vector : Nat)
  | hostRead (addr : Nat) (data : Option (List Byte))
  /-- The report, the public key, and the certificate for it (R442). -/
  | attestation (report : List Byte) (x y : Nat) (certificate : List Byte)
  | mctpRecord (record : List Byte)
  deriving DecidableEq, Repr

/-- A Gupol port (R381 to R383). -/
structure Port where
  state : Nat
  half : Bool
  en : Bool
  lfail : BitVec 16
  replays : Nat
  /-- Codewords corrected: FECCOR counts them in units of 2^16. -/
  corrected : Nat
  attempts : Nat
  nextSeq : Word
  lastAcked : Word
  lastAccepted : Word
  replay : List Flit
  /-- Flits that have still to enter the replay buffer: they have no number yet. -/
  queue : List Flit
  noProgress : Nat
  /-- Since when the replay buffer waits for an ACK to advance (R381). -/
  ackAt : Nat
  /-- Reached FULL or HALF since the start (R415). -/
  everUp : Bool
  deriving DecidableEq, Repr

/-- A port that is up has waited 4 µs for an ACK to advance (R381). -/
def Port.ackLate (p : Port) (now : Nat) : Bool :=
  decide (p.state = 2 ∨ p.state = 3) && !p.replay.isEmpty && decide (p.ackAt + 8000 ≤ now)

/-- A packet of the fabric (R386): its source, destination and CLASS, its message where this device sends it, and its flits. -/
structure FabricPacket where
  src : Word
  dst : Word
  cls : Nat
  msg : Option Msg
  flits : List Flit
  deriving DecidableEq, Repr

/-- The ports, the pod route table, the messages sent, and the flits sent and accepted with their ports. -/
structure Fabric where
  ports : Sparse Port
  routes : Sparse Word
  sent : List Msg
  wire : List (Nat × Flit)
  accepted : List (Nat × Flit)
  /-- Packets held while every route is DOWN (R386). -/
  waiting : List FabricPacket
  deriving DecidableEq, Repr

/-- A rank table (R420). -/
structure RankTable where
  gen : BitVec 64
  base : Nat
  p : Nat
  rank : Nat
  tableId : Word
  nlist : Nat
  valid : Bool
  deriving DecidableEq, Repr

/-- A communicator: its descriptor (R387), its staged and active tables (R420), its tickets and sequence. -/
structure Comm where
  ctx : Nat
  flags : Nat
  elem : Nat
  p : Nat
  rank : Nat
  f : Nat
  statBase : Nat
  staged : RankTable
  active : Option RankTable
  ticket : Nat
  seq : Nat
  /-- The RTSWAP that holds new COLLs and VRLDs at issue, by group (R421). -/
  hold : Option Nat
  deriving DecidableEq, Repr

/-- A device to which a collective sends: its rank (none for a listener), the number of its next unit, how often that unit
has been passed over (R389), and units to be sent once more (R391). -/
structure CollDest where
  dst : Word
  rank : Option Nat
  next : Nat
  passed : Nat
  again : List Nat
  deriving DecidableEq, Repr

/-- A collective in flight (R393, R394). ELEM, P, F, the rank (none for a listener) and the table are those at issue. -/
structure Coll where
  comm : Nat
  ticket : Nat
  seq : Nat
  tableId : Word
  op : Nat
  mode : Nat
  elem : Nat
  p : Nat
  f : Nat
  rank : Option Nat
  ranks : List Word
  /-- The issuing group while it lives, and its core. -/
  g : Option Nat
  core : Nat
  ctx : Nat
  hcl : Nat
  lockOp : Nat
  pri : Nat
  sendVa : Nat
  sendSize : Nat
  recvVa : Nat
  recvSize : Nat
  /-- The write stream of the receive record. -/
  stream : Nat
  dests : List CollDest
  /-- Pieces of the send buffer that have been read, by offset. -/
  own : Sparse (List Byte)
  /-- Some bytes of the result have been written ahead of the others (R263), as this use chose. -/
  early : Option Nat
  /-- Chunks asked for once more (R391). -/
  retried : List Nat
  /-- The status once known: the locks are released. -/
  status : Option Nat
  deriving DecidableEq, Repr

/-- The collective engine: communicators, collectives in flight, retired ones whose terms may still be asked for once more
(R391), what has been received, and the replicated regions of the contexts (R396): base, size and communicator by 16 ×
context + number. -/
structure CollEngine where
  comms : Sparse Comm
  flying : List Coll
  past : List Coll
  inbox : List CollChunk
  replicas : Sparse (Nat × Nat × Nat)
  deriving DecidableEq, Repr

/-! ### Remote invocation (R399 to R411) -/

/-- A record in an invocation queue (R402): `held` for an entry that a LAUNCHX reservation holds; `seq` its journal entry,
`member` this device's rank where LAUNCHX sent it. -/
structure InvItem where
  src : Word
  record : List Byte
  held : Bool
  seq : Nat
  bypassed : Nat
  member : Option Nat
  deriving DecidableEq, Repr

/-- The invocation machinery: handler table bytes, four queues, journal registers, host slots. -/
structure Inv where
  handlers : Sparse Byte
  queue0 : List InvItem
  queue1 : List InvItem
  queue2 : List InvItem
  queue3 : List InvItem
  jcfg : Word
  jnext : Nat
  jbase : Nat
  slots : Sparse Byte
  slotStat : Sparse Word
  /-- Slots submitted and not answered, and the part's copies of them (R408). -/
  submitted : List (Nat × List Byte)
  doorbell : Word
  nextTicket : Nat
  /-- Copies of the invocation records of running handlers: launch ticket, context and record (R401). -/
  copies : List (Nat × Nat × List Byte)
  deriving DecidableEq, Repr

/-! ### Membership (R412 to R434) -/

/-- A neighbour monitor's state (R415). -/
inductive Monitor where
  | idle | live | miss1 | miss2 | suspect | vacant
  deriving DecidableEq, Repr

/-- One neighbour monitor: its state, whether a beacon arrived in this window, windows since the last report. -/
structure MonitorState where
  state : Monitor
  heard : Bool
  since : Nat
  /-- The window judged last, by its number since power-on. -/
  window : Nat
  deriving DecidableEq, Repr

/-- The membership engine and what the arbiter holds. -/
structure Member where
  devId : Word
  /-- The id before GO, taken again when an adoption fails. -/
  homeId : Word
  state : Nat
  refused : Bool
  adopt : Word
  /-- ck of the last GO (R426). -/
  adoptAt : Nat
  /-- The period of 20 µs in which the last beacons were sent (R415). -/
  beaconAt : Nat
  gen : BitVec 64
  monitors : Sparse MonitorState
  /-- The membership block (R416). -/
  arb : Word
  stby : Word
  mtbe0 : Word
  flags : Nat
  pods : Sparse Byte
  /-- Standing reports: reporter and named device; vacant positions; the last expelled device (R417). -/
  reports : List (Word × Word)
  vacant : List Word
  lastDev : Word
  /-- The applied generations as the management controller records them, with the seconds and nanoseconds of IEEE 1588
  (R418). -/
  applied : List (BitVec 64 × Nat × Nat)
  /-- ARB has been expelled: STBY is the arbiter (R417). -/
  arbGone : Bool
  /-- SECSTAT.RISK, expulsions since cold start, times of applied expulsions in µs, the last securing time (R431, R432). -/
  risk : BitVec 16
  expl : Nat
  expelTimes : List Nat
  secured : Option Nat
  deriving DecidableEq, Repr

/-! ### Host interface, start-up, management (R435 to R444), publication (R264) -/

/-- A published window (R264). -/
structure Window where
  half0 : Nat
  half1 : Nat
  size : Nat
  ctx : Nat
  flags : Nat
  vera : Nat
  ver : Nat
  p : Bool
  /-- The PUBLISH instructions of the window in the order of their arrival, by group and path slot: the first is served
  (R265). -/
  busy : List (Nat × Bool)
  deriving DecidableEq, Repr

/-- A context-table entry (R438). -/
structure CtxEntry where
  root : Nat
  pasid : Word
  stbcfg : Word
  flags : Nat
  deriving DecidableEq, Repr

/-- What the host reaches: its memory as the part has written or read it, the windows, the contexts. -/
structure HostIf where
  mem : Sparse Byte
  windows : Sparse Window
  contexts : Sparse CtxEntry
  /-- The firmware load window (R436). -/
  image : Sparse Byte
  deriving DecidableEq, Repr

/-- Start-up and management state (R440 to R444). -/
structure Boot where
  stage : Nat
  code : Nat
  pilot : Bool
  /-- The image verified at the last cold start: its digest and security version (R440, R442). -/
  imageHash : List Byte
  svn : Nat
  warm : Bool
  pwrlim : Nat
  clock : Nat
  /-- IEEE 1588: locked, seconds and nanoseconds at the last lock or step, and the ck of that moment (R443). -/
  ptpSeconds : Nat
  ptpNanos : Nat
  ptpAt : Nat
  /-- ck of the last cold start (R343). -/
  coldAt : Nat
  deriving DecidableEq, Repr

/-- Errors and the fault queue (R343, R361 to R368). -/
structure Ras where
  fqBase : Nat
  fqLog : Nat
  fqHead : Word
  fqTail : Word
  /-- Records held back in order, each of 64 bytes without its SEQ. -/
  held : List (List Byte)
  nextSeq : Nat
  poison : List Nat
  retire : Sparse Word
  retFull : Bool
  corrected : Sparse Nat
  deriving DecidableEq, Repr

/-- Page hotness (R244 to R246): counters by controller, row and column; candidate tables by controller. -/
structure Hot where
  counters : Sparse Nat
  tables : Sparse (List (Nat × Nat))
  hotcfg : Word
  glowBase : Word
  glowBaseH : Word
  interval : Nat
  /-- When the running interval began. -/
  since : Nat
  deriving DecidableEq, Repr

/-! ### The machine -/

/-- Which agent moves next: a path slot's scalar stream, a group's lane stream, an event, or none (time passes). In a turn
`differ` a stream issues an instruction whose two copies in a shade pair differ, once or again after the replay (R358). -/
inductive Turn where
  | scalar (g : Nat) (slotB : Bool)
  | lane (g : Nat)
  | differ (g : Nat) (lane slotB again : Bool)
  | act (i : Instr)
  | pass
  deriving DecidableEq, Repr

/-- The issuer of the instruction that executes: a group and one of its path slots. -/
structure Cursor where
  g : Nat
  slotB : Bool
  deriving DecidableEq, Repr

/-- One K740. -/
structure State where
  /-- The time base (R2), in ck. -/
  ck : Nat
  /-- The agents that move next, in order; when empty, the default order of `Step.lean` chooses. -/
  turns : List Turn
  cur : Cursor
  groups : Sparse Group
  cores : Sparse Core
  hcls : Sparse Hcl
  dies : Sparse Die
  /-- Device memory by physical address, as the active mappings place it. -/
  mem : Memory
  /-- DRAM that no active mapping reaches, and the poisoned sectors there, by DRAM address (R229, R231). -/
  dark : Memory
  darkPoison : List Nat
  llc : Llc
  vm : Vm
  sched : Sched
  dir : Dir
  fabric : Fabric
  coll : CollEngine
  inv : Inv
  member : Member
  host : HostIf
  boot : Boot
  ras : Ras
  hot : Hot
  /-- The model's own counter: each use of a free value advances it. -/
  free : Nat
  deriving DecidableEq, Repr
/-! ### Why a step can stop -/

/-- Faults: steps that leave the part in a state it does not leave by itself. -/
inductive Fault where
  /-- A turn names a path slot or lane queue of a group entry that holds no group: no instruction is there to issue
  (raised by `step`; safe: nothing the manual describes is cut short). -/
  | noGroup
  /-- A lane instruction is executed for a group whose lane queue has no head: no block holds it (raised by `exec` on the
  lane instructions, never by a run of `step`; safe). -/
  | noBlock
  deriving DecidableEq, Repr

/-- Refusals: instructions or events to which the manual gives no effect. -/
inductive Refusal where
  /-- The instruction has no meaning in this model yet; safe. -/
  | notModelled (mnemonic : String)
  deriving DecidableEq, Repr

/-! ### Reset -/

/-- A closed loop level (R25). -/
def LoopLevel.zero : LoopLevel := { high := 0, start := 0, stop := 0, count := 0 }

/-- The four loop levels at group start (R25, R30). -/
def loopsZero : List LoopLevel := [LoopLevel.zero, LoopLevel.zero, LoopLevel.zero, LoopLevel.zero]

/-- A free path slot. -/
def Slot.free : Slot :=
  { live := false, pc := 0, xm := 0, lanes := 0, depth := 0, loops := loopsZero, top := none, sleep := none,
    wait := .none }

/-- The CSRs of a group at start (R25, R337), before the header's and the launch's values. -/
def Csrs.start : Csrs :=
  { part := 4, fpe := 0, fstat := 0, frm := 0, trpc := 0, utvec := 0, tcause := 0, tlmask := 0, tspc := 0, tlpc := 0,
    tiw0 := 0, tiw1 := 0, tiw2 := 0, vstat := 0, amax := 0, budget := 0, tctl := 0, txm := 0, bkpri := 0, secpol := 0 }

/-- The identity of an entry that holds no group. -/
def Ident.vacant : Ident :=
  { role := 0, teamId := 0, clusterId := 0, gridX := 0, gridY := 0, gridZ := 0, stbcfg := 0,
    team := { ticket := 0, cluster := 0, team := 0 }, ctx := 0, privileged := false, deterministic := false,
    shade := none, isShade := false, scalarEntry := 0, lcb := 0, laneSize := 0, index := 0, carryFirst := 0, carryCount := 0 }

/-- A group entry that holds no group. -/
def Group.vacant : Group :=
  { resident := false, age := 0, ident := Ident.vacant, s := [], v := [], k := [], b := [], fmt := [], csr := Csrs.start,
    slotA := Slot.free, slotB := Slot.free, exited := 0, joins := [], conts := [], blocks := [], draining := [],
    loads := [], stores := [], feStores := [], storesOther := [], copies := 0, batches := 0, seq := 0, nb := 0,
    inFlight := [], locks := [], dirtySectors := [], posted := false, handlerDepth := 0, handlerSlotB := false,
    handlerSeq := 0, heldWait := SlotWait.none, lateF := [], lateV := [],
    heldLane := false, pending := [], tickets := [], reservations := [], rateFrom := 0, dueSince := Option.none, secAt := 0,
    laneWait := Option.none, replayLog := [] }

/-- A scratchpad word after a core takes new boundaries, and after a cold start (R211): zero and empty. -/
def ScrWord.zero : ScrWord := { data := 0, full := false }

/-- A core after a cold start: POOLCFG, THRCFG and the quota at their reset values (R204, R210). -/
def Core.reset : Core :=
  { l1 := [], scratch := [], waiters := [], poolcfg := 0x001E1008, acc := [], accEpoch := 0, flame := none, takers := [],
    engine := [], sideLog := [], victims := [], hits := 0, thrcfg := 64, lastHits := 0, quota := 32, idle := true, window := 0 }

/-- A hardware core cluster with nothing queued. -/
def Hcl.reset : Hcl := { tasks := [], copyQueue := [], copyTicket := 0, locks := [], lockOrder := 0, packets := [] }

/-- A die with no graph in flight. -/
def Die.reset : Die := { graphs := [], graphTicket := 0 }

/-- An LLC sector that holds nothing. -/
def Sector.empty : Sector :=
  { way := 0, col := false, valid := 0, dirty := 0, bytes := [], owner := 0, stream := 0, axes := [], used := 0,
    firstOut := false }

/-- A mapping of no addresses: LIMIT = BASE (R229). -/
def RegionMap.off : RegionMap := { base := 0, limit := 0, rows := [], slots := [] }

/-- An address region that is disabled. -/
def AddrRegion.off : AddrRegion := { staged := RegionMap.off, next := RegionMap.off, active := RegionMap.off, status := 0 }

/-- A region of lines that is disabled (R269). -/
def Region.off : Region :=
  { salt := 0, rootVa := 0, rootSize := 0, ctx := 0, flags := 0, quota := 0, live := 0 }

/-- A port after a start: DOWN (R383). -/
def Port.down : Port :=
  { state := 0, half := false, en := false, lfail := 0, replays := 0, corrected := 0, attempts := 0, nextSeq := 0,
    lastAcked := 0xFFFFFFFF, lastAccepted := 0xFFFFFFFF, replay := [], queue := [], noProgress := 0, ackAt := 0, everUp := false }

/-- A rank table that is not valid. -/
def RankTable.off : RankTable :=
  { gen := 0, base := 0, p := 0, rank := 0, tableId := 0, nlist := 0, valid := false }

/-- A communicator that is not enabled (R387); F has its default. -/
def Comm.off : Comm :=
  { ctx := 0, flags := 0, elem := 0, p := 0, rank := 0, f := 40, statBase := 0, staged := RankTable.off,
    active := none, ticket := 0, seq := 0, hold := none }

/-- A published window that is not enabled (R264). -/
def Window.off : Window :=
  { half0 := 0, half1 := 0, size := 0, ctx := 0, flags := 0, vera := 0, ver := 0, p := false, busy := [] }

/-- A context-table entry that is not enabled (R438); STBCFG has the reset values of R226. -/
def CtxEntry.off : CtxEntry := { root := 0, pasid := 0, stbcfg := 0x50000000, flags := 0 }

/-- A neighbour monitor after a start (R415). -/
def MonitorState.idle : MonitorState := { state := .idle, heard := false, since := 0, window := 0 }

/-- The largest PWRLIM of the part's form (R1, R444). -/
def formLimit : Nat := if Config.lowPower then 2800 else 3600

/-- One K740 right after power-on: a cold start has begun and waits for its firmware image (R441, state ROMWAIT). -/
def State.reset : State :=
  { ck := 0, turns := [], cur := { g := 0, slotB := false }, groups := [], cores := [], hcls := [], dies := [], mem := [], dark := [], darkPoison := [],
    llc := { sectors := [], clock := 0, wayDis := [], layer := [], discards := [] },
    vm := { tlb := [], walks := [], faults := [], waiters := [], nextFault := 1, hostReqs := [], nextHostReq := 1, invva := 0, invvah := 0,
            invcmd := 0, fetmocfg := 0x01000000, regions := [] },
    sched := { nextTicket := 1, launches := [], clusters := [], preempt := [], precmd := 0, waiting := [],
               spillBase := 0, spillSize := 0 },
    dir := { base := 0, log := 16, lineBase := 0, lineCount := 1, regions := [], entries := [], reclaim := [], pulls := [] },
    fabric := { ports := [], routes := [], sent := [], wire := [], accepted := [], waiting := [] },
    coll := { comms := [], flying := [], past := [], inbox := [], replicas := [] },
    inv := { handlers := [], queue0 := [], queue1 := [], queue2 := [], queue3 := [], jcfg := 12, jnext := 1, jbase := 0,
             slots := [], slotStat := [], submitted := [], doorbell := 0, nextTicket := 1, copies := [] },
    member := { devId := 0, homeId := 0, state := 2, refused := false, adopt := 0, adoptAt := 0, beaconAt := 0, gen := 0, monitors := [], arb := 0, stby := 0,
                mtbe0 := 0, flags := 0, pods := [], reports := [], vacant := [], lastDev := 0,
                arbGone := false, applied := [], risk := 0, expl := 0, expelTimes := [], secured := none },
    host := { mem := [], windows := [], contexts := [], image := [] },
    boot := { stage := 1, code := 0, pilot := false, imageHash := [], svn := 0, warm := false, pwrlim := formLimit,
              clock := 2000, ptpSeconds := 0, ptpNanos := 0, ptpAt := 0, coldAt := 0 },
    ras := { fqBase := 0, fqLog := 6, fqHead := 0, fqTail := 0, held := [], nextSeq := 1, poison := [], retire := [],
             retFull := false, corrected := [] },
    hot := { counters := [], tables := [], hotcfg := 1000, glowBase := 0, glowBaseH := 0, interval := 0, since := 0 },
    free := 0 }

end Sys2Proof.Machine
end

