-- ==== Sys2Proof/Machine/Mem.lean ====
section
/-! DEFINITION. The levels of memory (R210 to R232, R244, R363): the DRAM placement of physical addresses, the LLC with its
two-axis sectors, the L1 caches, the scratchpads and host memory, and the reads and writes that the rest of the machine is
built on. -/

namespace Sys2Proof.Machine

/-- The `n` consecutive numbers from `a`. -/
def span (a n : Nat) : List Nat := (List.range n).map (a + ·)

/-- The number of 1 bits among the low `n` bits. -/
def popNat : Nat → Nat → Nat
  | 0, _ => 0
  | n + 1, x => x % 2 + popNat n (x / 2)

/-- Keep the first of equal list members. -/
def distinct {α : Type} [DecidableEq α] : List α → List α
  | [] => []
  | a :: rest => a :: (distinct rest).filter (fun b => decide (b ≠ a))

/-- Little-endian value of bytes. -/
def bytesNat : List Byte → Nat
  | [] => 0
  | b :: rest => b.toNat + 256 * bytesNat rest

/-- The `n` little-endian bytes of a value. -/
def natBytes : Nat → Nat → List Byte
  | 0, _ => []
  | n + 1, w => BitVec.ofNat 8 w :: natBytes n (w / 256)

/-! ### Records of the maps -/

def State.group (s : State) (g : Nat) : Group := Sparse.get Group.vacant s.groups g
def State.setGroup (s : State) (g : Nat) (x : Group) : State := { s with groups := Sparse.put s.groups g x }
def State.core (s : State) (c : Nat) : Core := Sparse.get Core.reset s.cores c
def State.setCore (s : State) (c : Nat) (x : Core) : State := { s with cores := Sparse.put s.cores c x }
def State.hcl (s : State) (h : Nat) : Hcl := Sparse.get Hcl.reset s.hcls h
def State.setHcl (s : State) (h : Nat) (x : Hcl) : State := { s with hcls := Sparse.put s.hcls h x }
def State.die (s : State) (d : Nat) : Die := Sparse.get Die.reset s.dies d
def State.setDie (s : State) (d : Nat) (x : Die) : State := { s with dies := Sparse.put s.dies d x }
def State.region (s : State) (k : Nat) : AddrRegion := Sparse.get AddrRegion.off s.vm.regions k
def State.setRegion (s : State) (k : Nat) (x : AddrRegion) : State :=
  { s with vm := { s.vm with regions := Sparse.put s.vm.regions k x } }

/-- Groups of a core are numbered 32 × core + entry; cores 12 × hardware core cluster + place (R188). -/
def coreOf (g : Nat) : Nat := g / 32
def hclOfCore (c : Nat) : Nat := c / 12
def hclOf (g : Nat) : Nat := hclOfCore (coreOf g)
def dieOfHcl (h : Nat) : Nat := h / 12

/-! ### Where a physical address lies (R229, R219) -/

/-- v = M·a: bit i is the parity of MROW[i] ∧ a. -/
def gf2Apply (a : Nat) : List Word → Nat → Nat
  | [], _ => 0
  | r :: rest, i => (popNat 30 (r.toNat &&& a) % 2) * 2 ^ i + gf2Apply a rest (i + 1)

/-- The place of an address: stack, data layer and the vector v. -/
structure Placement where
  stack : Nat
  layer : Nat
  v : Nat
  deriving DecidableEq, Repr

/-- The place that one mapping gives an address (R229). -/
def RegionMap.place (r : RegionMap) (pa : Nat) : Option Placement :=
  if pa < r.base ∨ r.limit ≤ pa then none
  else
    let v := gf2Apply ((pa - r.base) / 1024) r.rows 0
    let slot := (r.slots.getD (v / 2 ^ 22 % 256) 0xFF).toNat
    if slot = 0xFF then none else some { stack := slot / 16, layer := slot % 16, v := v }

/-- The place of an address under the active mappings of the eight regions; none where unmapped. -/
def State.place (s : State) (pa : Nat) : Option Placement :=
  (List.range 8).findSome? (fun k => (s.region k).active.place pa)

/-- An address that an access may reach: below 2^40, in an enabled region, with a slot (R229). -/
def State.mapped (s : State) (pa : Nat) : Bool := decide (pa < 2 ^ 40) && (s.place pa).isSome

/-- The home of sector `n` = PA / 1,024: its die, slice and set (R219). -/
def State.home (s : State) (n : Nat) : Nat × Nat × Nat :=
  let die := match s.place (n * 1024) with
    | some p => p.stack / 3
    | none => 0
  (die, (n ^^^ (n / 2 ^ 13)) % 80, n % 128)

/-! ### Page hotness (R244, R245) -/

/-- Row i of the sketch: the counter's number for page `n`. -/
def sketchIndex (i n : Nat) : Nat :=
  let c := [0x9E3779B1, 0x85EBCA77, 0xC2B2AE3D, 0x27D4EB2F].getD i 0
  i * 4096 + (n * c) % 2 ^ 32 / 2 ^ 20

/-- The smallest of a list of numbers, at most `d`. -/
def leastOf (d : Nat) (l : List Nat) : Nat := l.foldl Nat.min d

/-- The candidate table after a request to page `n` with estimate `e` (R245). -/
def candidates (t : List (Nat × Nat)) (n e : Nat) : List (Nat × Nat) :=
  if t.any (fun x => x.1 == n) then t.map (fun x => if x.1 = n then (n, e) else x)
  else if t.length < 256 then (n, e) :: t
  else
    let low := leastOf 65535 (t.map (·.2))
    if low < e then
      let out := (t.filter (fun x => x.2 == low)).foldl (fun m x => Nat.max m x.1) 0
      (n, e) :: t.filter (fun x => x.1 != out)
    else t

/-- One request reaches the controller of address `pa` (R244): counted while HOTCFG.EN is 1. -/
def State.countHot (s : State) (pa : Nat) : State :=
  if s.hot.hotcfg.getLsbD 31 then
    match s.place pa with
    | none => s
    | some p =>
      let n := pa / 2 ^ 16
      let at_ (i : Nat) : Nat := p.stack * 16384 + sketchIndex i n
      let bump (m : Sparse Nat) (i : Nat) : Sparse Nat :=
        Sparse.set 0 m (at_ i) (Nat.min 65535 (Sparse.get 0 m (at_ i) + 1))
      let counters := (List.range 4).foldl bump s.hot.counters
      let e := leastOf 65535 ((List.range 4).map (fun i => Sparse.get 0 counters (at_ i)))
      let t := candidates (Sparse.get [] s.hot.tables p.stack) n e
      { s with hot := { s.hot with counters := counters, tables := Sparse.put s.hot.tables p.stack t } }
  else s

/-- The running interval of IVAL µs is over (R246): 2,000 ck are a µs. -/
def Hot.over (h : Hot) (now : Nat) : Bool := h.hotcfg.getLsbD 31 && decide (h.since + 2000 * (h.hotcfg.toNat % 65536) ≤ now)

/-! ### The DRAM cache layer (R222) and requests at a memory controller -/

/-- The set of a sector in its stack's cache layer: 2^20 sets of 4 blocks, numbered by the place in the stack (assumption
129). -/
def Placement.layerSet (p : Placement) : Nat := p.stack * 2 ^ 20 + (p.layer * 2 ^ 22 + p.v % 2 ^ 22) % 2 ^ 20

/-- The blocks of a set after a read of sector `n`: a present block becomes the most recently used; an absent one is
allocated where `alloc` says so, and the least recently used of four blocks is evicted, which writes it to its data layer
where it is dirty. -/
def layerRead (n : Nat) (alloc : Bool) (l : List LayerBlock) : List LayerBlock :=
  match l.find? (fun b => b.sector == n) with
  | some b => b :: l.filter (fun b => b.sector != n)
  | none => if alloc then { sector := n, dirty := false } :: l.take 3 else l

/-- The blocks of a set after a write of sector `n`: a present block is updated and dirty; an absent one is written in its
data layer, and nothing is allocated. -/
def layerWrite (n : Nat) (l : List LayerBlock) : List LayerBlock :=
  match l.find? (fun b => b.sector == n) with
  | some _ => { sector := n, dirty := true } :: l.filter (fun b => b.sector != n)
  | none => l

/-- Change the set of sector `n` in its stack's layer. -/
def State.onLayer (s : State) (n : Nat) (f : List LayerBlock → List LayerBlock) : State :=
  match s.place (n * 1024) with
  | none => s
  | some p =>
    { s with llc := { s.llc with
        layer := Sparse.set [] s.llc.layer p.layerSet (f (Sparse.get [] s.llc.layer p.layerSet)) } }

/-- A read of sector `n` reaches its controller: it counts once, and goes through the cache layer as the hint says (R217):
hint 3 skips the layer, hints 1 and 2 allocate nothing. -/
def State.ctlRead (s : State) (n hint : Nat) : State :=
  let s := s.countHot (n * 1024)
  if hint = 3 then s else s.onLayer n (layerRead n (hint == 0))

/-- A write of sector `n` reaches its controller. -/
def State.ctlWrite (s : State) (n : Nat) : State := (s.countHot (n * 1024)).onLayer n (layerWrite n)

/-! ### LLC sectors (R219, R220) -/

/-- All 32 mask bits. -/
def fullMask : Word := 0xFFFFFFFF

/-- Sector byte `k` of line `line` of an axis (true: column). -/
def lineByte (col : Bool) (line k : Nat) : Nat := if col then 32 * k + line else 32 * line + k

/-- The line of an axis that holds a sector byte. -/
def lineOf (col : Bool) (off : Nat) : Nat := if col then off % 32 else off / 32

/-- Set bit `i` of a mask. -/
def setBit (w : Word) (i : Nat) : Word := w ||| BitVec.ofNat 32 (2 ^ i)

/-- Bring one line of axis O of sector `n` from memory; a valid line is left alone. -/
def Sector.fillLine (m : Memory) (n : Nat) (x : Sector) (line : Nat) : Sector :=
  if x.valid.getLsbD line then x
  else
    let put (b : Sparse Byte) (k : Nat) : Sparse Byte :=
      Sparse.set 0 b (lineByte x.col line k) (m.read (n * 1024 + lineByte x.col line k))
    { x with bytes := (List.range 32).foldl put x.bytes, valid := setBit x.valid line }

/-- Fill the sector: every missing line comes from memory. -/
def Sector.fill (m : Memory) (n : Nat) (x : Sector) : Sector := (List.range 32).foldl (Sector.fillLine m n) x

/-- Make the bytes at `offs` present for an access along an axis: its lines, or the whole sector when it crosses. -/
def Sector.ensure (m : Memory) (n : Nat) (x : Sector) (col : Bool) (offs : List Nat) : Sector :=
  if col = x.col then (distinct (offs.map (lineOf col))).foldl (Sector.fillLine m n) x else x.fill m n

/-- An access along an axis leaves at least 4 of the last 8 accesses crossing: O flips (R220). -/
def Sector.flips (x : Sector) (col : Bool) : Bool := decide (4 ≤ (((col :: x.axes).take 8).filter (fun a => a != x.col)).length)

/-- Keep the axes of the last 8 accesses, and flip O when at least 4 of 8 were crossing (R220). -/
def Sector.record (m : Memory) (n : Nat) (x : Sector) (col : Bool) : Sector :=
  let flip := x.flips col
  let x := { x with axes := (col :: x.axes).take 8 }
  if flip then
    let x := x.fill m n
    { x with col := !x.col, dirty := if x.dirty = 0 then 0 else fullMask }
  else x

/-- A store to these offsets first brings bytes of the sector from memory: a row-line that it writes in part and that is not
valid, or, of a crossing store, any missing line. -/
def Sector.lacks (x : Sector) (ws : List (Nat × Byte)) : Bool :=
  if x.col then x.valid != fullMask
  else
    let offs := distinct (ws.map (·.1))
    (distinct (offs.map (lineOf false))).any (fun l =>
      !x.valid.getLsbD l && decide ((offs.filter (fun o => lineOf false o == l)).length ≠ 32))

/-- Write bytes by sector offset, as row accesses: the lines become dirty, all of them when the store crosses. -/
def Sector.write (m : Memory) (n : Nat) (x : Sector) (ws : List (Nat × Byte)) : Sector :=
  let x := x.ensure m n false (ws.map (·.1))
  let lines := distinct (ws.map (fun w => lineOf false w.1))
  { x with bytes := ws.foldl (fun b w => Sparse.set 0 b w.1 w.2) x.bytes,
           dirty := if x.col then fullMask else lines.foldl setBit x.dirty }

/-- Memory after the dirty lines of sector `n`, which are valid, are written back. -/
def Sector.writeBack (n : Nat) (x : Sector) (m : Memory) : Memory :=
  let lines := (List.range 32).filter (fun l => x.dirty.getLsbD l && x.valid.getLsbD l)
  let offs := lines.flatMap (fun l => (List.range 32).map (lineByte x.col l))
  offs.foldl (fun m o => m.write (n * 1024 + o) (Sparse.get 0 x.bytes o)) m

def State.sector? (s : State) (n : Nat) : Option Sector := Sparse.find s.llc.sectors n
def State.setSector (s : State) (n : Nat) (x : Sector) : State :=
  { s with llc := { s.llc with sectors := Sparse.put s.llc.sectors n x } }
def State.dropSector (s : State) (n : Nat) : State :=
  { s with llc := { s.llc with sectors := Sparse.erase s.llc.sectors n } }

/-- Write sector `n` back if it is dirty, and leave it clean (R223). The write-back is one request at the controller. -/
def State.cleanSector (s : State) (n : Nat) : State :=
  match s.sector? n with
  | none => s
  | some x =>
    if x.dirty = 0 then s
    else (State.setSector { s with mem := x.writeBack n s.mem } n { x with dirty := 0 }).ctlWrite n

/-- Key of LLCWAYDIS: die × 80 + slice. -/
def sliceKey (die slice : Nat) : Nat := die * 80 + slice

/-- The sectors held in the set of sector `n`. -/
def State.sameSet (s : State) (n : Nat) : List (Nat × Sector) :=
  let h := s.home n
  s.llc.sectors.filter (fun e => e.1 % 128 == n % 128 && s.home e.1 == h)

/-- The least recently used of some sectors. -/
def oldest : List (Nat × Sector) → Option (Nat × Sector)
  | [] => none
  | e :: rest =>
    match oldest rest with
    | none => some e
    | some f => if f.2.used < e.2.used then some f else some e

/-- Make sector `n` present (R219): the lowest invalid way that is not quarantined, or a replaced sector's. -/
def State.allocSector (s : State) (n : Nat) (firstOut : Bool) : State :=
  match s.sector? n with
  | some _ => s
  | none =>
    let h := s.home n
    let dis := Sparse.get 0 s.llc.wayDis (sliceKey h.1 h.2.1)
    let here := s.sameSet n
    let free := (List.range 16).filter (fun w => !dis.getLsbD w && !here.any (fun e => e.2.way == w))
    let fresh (w : Nat) : Sector := { Sector.empty with way := w, firstOut := firstOut }
    match free with
    | w :: _ => s.setSector n (fresh w)
    | [] =>
      let marked := here.filter (fun e => e.2.firstOut)
      match oldest (if marked.isEmpty then here else marked) with
      | none => s
      | some e => ((s.cleanSector e.1).dropSector e.1).setSector n (fresh e.2.way)

/-- The use counter, after one more use of sector `n`; `last`: the sector becomes first to evict (R217). -/
def State.useSector (s : State) (n : Nat) (last : Bool) : State :=
  match s.sector? n with
  | none => s
  | some x =>
    let x := { x with used := s.llc.clock + 1, firstOut := x.firstOut || last }
    { s with llc := { s.llc with clock := s.llc.clock + 1, sectors := Sparse.put s.llc.sectors n x } }

/-! ### Bytes of device memory -/

/-- The byte at its home (R250): the LLC's where a sector holds its line, memory's otherwise. -/
def State.homeByte (s : State) (pa : Nat) : Byte :=
  match s.sector? (pa / 1024) with
  | some x =>
    if x.valid.getLsbD (lineOf x.col (pa % 1024)) then Sparse.get 0 x.bytes (pa % 1024) else s.mem.read pa
  | none => s.mem.read pa

/-- The value that a read of a byte of device memory returns at its home. A row-line given up by DISCARD returns the value
that it had then or the one that memory held, as the choice of this read says (R228, assumption 6). -/
def State.devByte (s : State) (pa : Nat) : Byte :=
  match Sparse.find s.llc.discards (pa / 32) with
  | some old => if Config.freeChoice s.free (pa / 32) then old.getD (pa % 32) 0 else s.homeByte pa
  | none => s.homeByte pa

/-- The next read makes its own choices for the row-lines given up (R228). -/
def State.noteRead (s : State) : State := if s.llc.discards.isEmpty then s else { s with free := s.free + 1 }

/-- A row-line given up by DISCARD is stored to: what was still open of it is settled, and it is an ordinary line again. -/
def State.settleLine (s : State) (line : Nat) : State :=
  match Sparse.find s.llc.discards line with
  | none => s
  | some old =>
    let t := { s with llc := { s.llc with discards := Sparse.erase s.llc.discards line }, free := s.free + 1 }
    if Config.freeChoice s.free line then
      let n := line / 32
      let ws := (span (line * 32) 32).zip old
      let put (x : Sector) (w : Nat × Byte) : Sector :=
        if x.valid.getLsbD (lineOf x.col (w.1 % 1024)) then { x with bytes := Sparse.set 0 x.bytes (w.1 % 1024) w.2 } else x
      let t := { t with mem := ws.foldl (fun (m : Memory) (w : Nat × Byte) => Memory.write m w.1 w.2) t.mem }
      match t.sector? n with
      | some x => t.setSector n (ws.foldl put x)
      | none => t
    else t

def State.devBytes (s : State) (pa n : Nat) : List Byte := (span pa n).map s.devByte

/-- The flip of sector `n` after an access that leaves it as `x` fills it first where lines are missing: one more read at the
controller (R220, R244). -/
def State.filledBy (s : State) (n hint : Nat) (x : Sector) (col : Bool) : State :=
  if x.flips col && x.valid != fullMask then s.ctlRead n hint else s

/-- What one load does to the LLC (R217, R219, R220), sector by sector: `pas` are the bytes it reads. With hint 3 an absent
sector is not allocated. A sector whose lines are not all valid for the load is read at the controller: one request. -/
def State.touchSector (s : State) (n : Nat) (offs : List Nat) (col : Bool) (hint : Nat) : State :=
  let missing := match s.sector? n with
    | none => true
    | some x => offs.any (fun o => !x.valid.getLsbD (lineOf x.col o))
  let s := if missing then s.ctlRead n hint else s
  let s := if hint = 3 then s else s.allocSector n (hint == 1)
  match s.sector? n with
  | none => s
  | some x => ((s.filledBy n hint (x.ensure s.mem n col offs) col).setSector n ((x.ensure s.mem n col offs).record s.mem n col)).useSector n (hint == 2)

def State.loadTouch (s : State) (pas : List Nat) (col : Bool) (hint : Nat) : State :=
  ((distinct (pas.map (· / 1024))).foldl
    (fun s n => s.touchSector n ((pas.filter (fun a => a / 1024 == n)).map (· % 1024)) col hint) s).noteRead

/-- The poison list without sector `n`. -/
def State.unpoison (s : State) (n : Nat) : State :=
  { s with ras := { s.ras with poison := s.ras.poison.filter (fun p => p != n) } }

/-- The row-lines of sector `n` that a store writes are settled. -/
def State.settleLines (s : State) (n : Nat) (ws : List (Nat × Byte)) : State :=
  if s.llc.discards.isEmpty then s else (distinct (ws.map (fun w => n * 32 + w.1 / 32))).foldl State.settleLine s

/-- One store to one sector by context `ctx` on write stream `stream` (R217, R220, R223, R363). A sector dirty with another
owner is written back first. A store of all 1,024 bytes clears the sector's poison (R366). -/
def State.storeSector (s : State) (n : Nat) (ws : List (Nat × Byte)) (ctx stream hint : Nat) : State :=
  let s := if (distinct (ws.map (·.1))).length = 1024 then s.unpoison n else s
  let s := s.settleLines n ws
  let through : Memory := ws.foldl (fun m w => Memory.write m (n * 1024 + w.1) w.2) s.mem
  if hint = 3 ∧ (s.sector? n).isNone = true then State.ctlWrite { s with mem := through } n
  else
    let s := s.allocSector n (hint == 1)
    match s.sector? n with
    | none => { s with mem := through }
    | some x0 =>
      let s := if x0.dirty ≠ 0 ∧ x0.owner ≠ ctx then s.cleanSector n else s
      let x := match s.sector? n with
        | some x => x
        | none => x0
      let s := if x.lacks ws then s.ctlRead n hint else s
      let y := x.write s.mem n ws
      let s := s.filledBy n hint y false
      let x := y.record s.mem n false
      (s.setSector n { x with owner := ctx, stream := stream }).useSector n (hint == 2)

/-- Store bytes by physical address. -/
def State.storeDev (s : State) (ws : List (Nat × Byte)) (ctx stream hint : Nat) : State :=
  let part (n : Nat) : List (Nat × Byte) := (ws.filter (fun w => w.1 / 1024 == n)).map (fun w => (w.1 % 1024, w.2))
  (distinct (ws.map (fun w => w.1 / 1024))).foldl (fun s n => s.storeSector n (part n) ctx stream hint) s

/-- One store to one sector that goes through to the memory controller (R217, R251): a present sector is written back if
dirty, updated, and left clean. -/
def State.throughSector (s : State) (n : Nat) (ws : List (Nat × Byte)) : State :=
  let s := if (distinct (ws.map (·.1))).length = 1024 then s.unpoison n else s
  let s := (s.settleLines n ws).cleanSector n
  let put (x : Sector) (w : Nat × Byte) : Sector :=
    if x.valid.getLsbD (lineOf x.col w.1) then { x with bytes := Sparse.set 0 x.bytes w.1 w.2 } else x
  let s : State := { s with mem := ws.foldl (fun m w => Memory.write m (n * 1024 + w.1) w.2) s.mem }
  let s := match s.sector? n with
    | some x =>
      let y := ws.foldl put x
      (s.filledBy n 0 y false).setSector n (y.record s.mem n false)
    | none => s
  s.ctlWrite n

/-- Store bytes by physical address through to the memory controllers. -/
def State.storeThrough (s : State) (ws : List (Nat × Byte)) : State :=
  let part (n : Nat) : List (Nat × Byte) := (ws.filter (fun w => w.1 / 1024 == n)).map (fun w => (w.1 % 1024, w.2))
  (distinct (ws.map (fun w => w.1 / 1024))).foldl (fun s n => s.throughSector n (part n)) s

/-- Store a list of bytes from address `pa`. -/
def State.storeDevAt (s : State) (pa : Nat) (bs : List Byte) (ctx stream : Nat) : State :=
  s.storeDev ((span pa bs.length).zip bs) ctx stream 0

/-- An address in a sector that reads as uncorrectable (R366). -/
def State.poisoned (s : State) (pa : Nat) : Bool := s.ras.poison.contains (pa / 1024)

/-- An address on a retired page (R366): RETENT[j] holds V in bit 31 and the page in bits [23:0]. -/
def State.retired (s : State) (pa : Nat) : Bool :=
  s.ras.retire.any (fun e => e.2.getLsbD 31 && decide (e.2.toNat % 2 ^ 24 = pa / 2 ^ 16))

/-! ### The L1 (R217, R218) -/

/-- Fields of POOLCFG (R210), in 64 KiB units: the ends of the register region, the scratchpad and the L1. -/
def Core.pbReg (c : Core) : Nat := c.poolcfg.toNat % 32
def Core.pbScr (c : Core) : Nat := c.poolcfg.toNat / 2 ^ 8 % 32
def Core.pbL1 (c : Core) : Nat := c.poolcfg.toNat / 2 ^ 16 % 32

/-- Sets of the L1: 128-byte lines, 8-way. -/
def Core.l1Sets (c : Core) : Nat := (c.pbL1 - c.pbScr) * 65536 / 128 / 8

/-- The line's copy, if present. The list holds the most recently used line first. -/
def Core.l1Line (c : Core) (line : Nat) : Option L1Line := c.l1.find? (fun x => x.line == line)

/-- The member of a set to evict: the least recently used line marked first to evict, else the least recently used. -/
def l1Victim (set : List L1Line) : Option L1Line :=
  match (set.filter (·.firstOut)).reverse with
  | x :: _ => some x
  | [] => set.reverse.head?

/-- The victim tags after a line is evicted: the most recent 2,048 (R204). -/
def pushVictim (v : List Nat) (line : Nat) : List Nat := (line :: v.filter (· != line)).take 2048

/-- Bring line `x` into the L1 as the most recently used, evicting where its set is full. -/
def Core.l1Fill (c : Core) (x : L1Line) : Core :=
  let set := c.l1.filter (fun y => c.l1Sets != 0 && y.line % c.l1Sets == x.line % c.l1Sets)
  if c.l1Sets = 0 then c
  else if set.length < 8 then { c with l1 := x :: c.l1 }
  else
    match l1Victim set with
    | none => { c with l1 := x :: c.l1 }
    | some v => { c with l1 := x :: c.l1.filter (fun y => y.line != v.line), victims := pushVictim c.victims v.line }

/-- Use a present line: it becomes the most recently used, and first to evict with hint 2 (R217). -/
def Core.l1Use (c : Core) (line : Nat) (hint : Nat) : Core :=
  match c.l1Line line with
  | none => c
  | some x => { c with l1 := { x with firstOut := x.firstOut || hint == 2 } :: c.l1.filter (fun y => y.line != line) }

/-- Update the bytes of present lines as a store of the core passes (R218). -/
def Core.l1Update (c : Core) (ws : List (Nat × Byte)) : Core :=
  let one (x : L1Line) (w : Nat × Byte) : L1Line :=
    if w.1 / 128 = x.line then { x with bytes := x.bytes.set (w.1 % 128) w.2 } else x
  { c with l1 := c.l1.map (fun x => ws.foldl one x) }

/-- The acquire of R218: every line of the core's L1 is invalidated. -/
def State.l1Invalidate (s : State) (core : Nat) : State := s.setCore core { s.core core with l1 := [] }

/-- A load that reads bytes past the L1 leaves no copy of them there: no later load of the core returns an earlier value
(R250). -/
def State.l1Forget (s : State) (core : Nat) (pas : List Nat) : State :=
  let lines := pas.map (· / 128)
  if (s.core core).l1.any (fun x => lines.contains x.line) then
    s.setCore core { s.core core with l1 := (s.core core).l1.filter (fun x => !lines.contains x.line) }
  else s

/-- A miss of one line of the L1 (R204): hits among the victim tags are counted. -/
def Core.l1Miss (c : Core) (line : Nat) : Core :=
  if c.victims.contains line then { c with hits := c.hits + 1 } else c

/-- Bring one line for a load of a core through the L1: present lines are used as they stand; an absent line is read at its
home and allocated unless the hint forbids it. -/
def State.l1Touch (s : State) (core line hint : Nat) : State :=
  match (s.core core).l1Line line with
  | some _ => s.setCore core ((s.core core).l1Use line hint)
  | none =>
    let s := s.loadTouch (span (line * 128) 128) false hint
    let c := (s.core core).l1Miss line
    let x : L1Line := { line := line, bytes := s.devBytes (line * 128) 128, firstOut := hint == 1 || hint == 2 }
    s.setCore core (if hint = 3 then c else c.l1Fill x)

/-- The value of a byte of device memory as a core's loads see it: its L1's copy, or the byte at its home. -/
def State.coreByte (s : State) (core pa : Nat) : Byte :=
  match (s.core core).l1Line (pa / 128) with
  | some x => x.bytes.getD (pa % 128) 0
  | none => s.devByte pa

/-! ### Scratchpads (R213) and host memory -/

def Core.scrWord (c : Core) (w : Nat) : ScrWord := Sparse.get ScrWord.zero c.scratch w
def Core.setScr (c : Core) (w : Nat) (x : ScrWord) : Core := { c with scratch := Sparse.set ScrWord.zero c.scratch w x }

/-- Bytes of a core's scratchpad (R210). -/
def Core.scrSize (c : Core) : Nat := (c.pbScr - c.pbReg) * 65536

/-- Byte `off` of a scratchpad: words are little-endian. -/
def Core.scrByte (c : Core) (off : Nat) : Byte := BitVec.ofNat 8 ((c.scrWord (off / 4)).data.toNat / 256 ^ (off % 4))

/-- Write one byte of a scratchpad word; the full/empty bit stays (R213). -/
def Core.setScrByte (c : Core) (off : Nat) (v : Byte) : Core :=
  let w := c.scrWord (off / 4)
  let sh := 8 * (off % 4)
  let mask : Word := 255#32 <<< sh
  c.setScr (off / 4) { w with data := (w.data &&& ~~~mask) ||| (v.setWidth 32 <<< sh) }

/-- A byte of host memory: the part's own last write or read of it, else the host's. -/
def State.hostByte (s : State) (ha : Nat) : Byte := Sparse.get (Config.freeHostByte ha) s.host.mem ha

def State.setHostByte (s : State) (ha : Nat) (v : Byte) : State :=
  { s with host := { s.host with mem := Sparse.put s.host.mem ha v } }

/-! ### Places -/

/-- The place `k` bytes after a place. -/
def Loc.plus : Loc → Nat → Loc
  | .dev a, k => .dev (a + k)
  | .host a, k => .host (a + k)
  | .scr c o, k => .scr c (o + k)
  | .inv t o, k => .inv t (o + k)

/-- A byte of the part's copy of the invocation record of launch `t` (R401). -/
def State.copyByte (s : State) (t off : Nat) : Byte :=
  match s.inv.copies.find? (fun c => c.1 == t) with
  | some c => c.2.2.getD off 0
  | none => 0

/-- The byte at a place at its home, as an engine or another core sees it. Past the end of a scratchpad, where only a scalar
access can reach, stands no word: the byte is free (assumption 130). -/
def State.locByte (s : State) : Loc → Byte
  | .dev a => s.devByte a
  | .host a => s.hostByte a
  | .scr c o => if (s.core c).scrSize ≤ o then Config.freeByte s.free o else (s.core c).scrByte o
  | .inv t o => s.copyByte t o

/-- The byte at a place as a load of a core sees it. -/
def State.locByteAt (s : State) (core : Nat) : Loc → Byte
  | .dev a => s.coreByte core a
  | l => s.locByte l

/-- Store bytes at a place by context `ctx`; `core` is the storing core, whose L1 is updated (none for an engine). -/
def State.storeLoc (s : State) (core : Option Nat) (l : Loc) (bs : List Byte) (ctx stream hint : Nat) : State :=
  match l with
  | .dev a =>
    let ws := (span a bs.length).zip bs
    let s := s.storeDev ws ctx stream hint
    match core with
    | some c => s.setCore c ((s.core c).l1Update ws)
    | none => s
  | .host a => ((span a bs.length).zip bs).foldl (fun s w => s.setHostByte w.1 w.2) s
  | .scr c o =>
    s.setCore c ((((span o bs.length).zip bs).filter (fun w => decide (w.1 < (s.core c).scrSize))).foldl
      (fun x w => x.setScrByte w.1 w.2) (s.core c))
  | .inv _ _ => s

end Sys2Proof.Machine
end

