-- ==== Sys2Proof/Machine/Numbers.lean ====
section
/-! DEFINITION. Number formats (R64 to R76): exact magnitudes, rounding with its flags, the floating formats and their
operations. -/

namespace Sys2Proof.Machine

/-! ### Exact magnitudes and rounding (R71 to R73) -/

/-- ⌊√n⌋ for n < 4^(k), bit by bit from bit k − 1; `r` is the root so far. -/
def rootFrom (n : Nat) : Nat → Nat → Nat
  | 0, r => r
  | k + 1, r => rootFrom n k (if (r + 2 ^ k) * (r + 2 ^ k) ≤ n then r + 2 ^ k else r)

/-- ⌊√n⌋. -/
def floorRoot (n : Nat) : Nat := rootFrom n (Nat.log2 n / 2 + 1) 0

/-- A positive real: num / den × 2^e, or with `root` its square root. With `approx` the number given lies below the real by
less than one part in 2^200, and the real is no number with finitely many binary digits. -/
structure Mag where
  num : Nat
  den : Nat
  e : Int
  root : Bool
  approx : Bool
  deriving DecidableEq, Repr

/-- The magnitude m × 2^e. -/
def Mag.dyadic (m : Nat) (e : Int) : Mag := { num := m, den := 1, e := e, root := false, approx := false }

/-- 2^n for a power that is not negative; 1 otherwise. -/
def pow2 (n : Int) : Nat := 2 ^ n.toNat

/-- ⌊v × 2^(−k)⌋ and whether that loses anything. -/
def Mag.scale (a : Mag) (k : Int) : Nat × Bool :=
  let t := if a.root then a.e - 2 * k else a.e - k
  let n := a.num * pow2 t
  let d := a.den * pow2 (-t)
  if a.root then
    let r := floorRoot (n / d)
    (r, a.approx || decide (r * r * d ≠ n))
  else (n / d, a.approx || decide (n % d ≠ 0))

/-- ⌊log2 (num / den × 2^e)⌋. -/
def Mag.ratioLog (a : Mag) : Int :=
  let l : Int := (Nat.log2 a.num : Int) - Nat.log2 a.den
  let t : Mag := { a with root := false, e := 0 }
  a.e + (if (t.scale l).1 = 0 then l - 1 else l)

/-- ⌊log2 v⌋. -/
def Mag.log (a : Mag) : Int := if a.root then a.ratioLog / 2 else a.ratioLog

/-- Round a magnitude given with 17 fraction bits, `more` telling whether the exact one is larger: the integer and whether
it differs. Modes are those of R72; `d` is the dither value. -/
def roundFix (mode d : Nat) (neg : Bool) (y : Nat) (more : Bool) : Nat × Bool :=
  let q := y / 2 ^ 17
  let f := y % 2 ^ 17
  let inexact := more || decide (f ≠ 0)
  let above := decide (2 ^ 16 < f) || (decide (f = 2 ^ 16) && more)
  let tie := decide (f = 2 ^ 16) && !more
  let up := match mode with
    | 0 => above || (tie && decide (q % 2 = 1))
    | 2 => inexact && !neg
    | 3 => inexact && neg
    | 4 => above || tie
    | 5 => decide (2 ^ 16 - d ≤ f / 2)
    | _ => false
  (if up then q + 1 else q, inexact)

/-- Round to a multiple of 2^k. -/
def Mag.roundAt (a : Mag) (k : Int) (mode d : Nat) (neg : Bool) : Nat × Bool :=
  let y := a.scale (k - 17)
  roundFix mode d neg y.1 y.2

/-! ### Flags (R70) and formats (R66) -/

def flagNV : Nat := 16
def flagDZ : Nat := 8
def flagOF : Nat := 4
def flagUF : Nat := 2
def flagNX : Nat := 1

/-- A binary interchange format: precision with the hidden bit, exponent bits, smallest and largest exponents. -/
structure FFmt where
  p : Nat
  ebits : Nat
  emin : Int
  emax : Int
  deriving DecidableEq, Repr

def f32 : FFmt := { p := 24, ebits := 8, emin := -126, emax := 127 }
def f64 : FFmt := { p := 53, ebits := 11, emin := -1022, emax := 1023 }
def bf16 : FFmt := { p := 8, ebits := 8, emin := -126, emax := 127 }
def f16 : FFmt := { p := 11, ebits := 5, emin := -14, emax := 15 }

/-- The format of a floating type code (R66). -/
def fmtOf (ty : Nat) : FFmt :=
  match ty with
  | 5 => f64
  | 6 => bf16
  | 7 => f16
  | _ => f32

/-- A floating type code. -/
def isFloat (ty : Nat) : Bool := decide (4 ≤ ty) && decide (ty ≤ 7)

/-- Bits of the format below the sign. -/
def FFmt.low (f : FFmt) : Nat := f.ebits + f.p - 1
/-- The exponent of the unit in the last place of the subnormal range. -/
def FFmt.kmin (f : FFmt) : Int := f.emin - (f.p - 1 : Nat)
/-- +∞. -/
def FFmt.infBits (f : FFmt) : Nat := (2 ^ f.ebits - 1) * 2 ^ (f.p - 1)
/-- The largest finite number. -/
def FFmt.maxBits (f : FFmt) : Nat := f.infBits - 1
/-- The canonical quiet NaN (R66, R68). -/
def FFmt.nanBits (f : FFmt) : Nat := f.infBits + 2 ^ (f.p - 2)
/-- The sign bit, set or not. -/
def FFmt.signBit (f : FFmt) (neg : Bool) : Nat := if neg then 2 ^ f.low else 0

/-- A floating datum. -/
inductive FVal where
  | nan (signalling : Bool)
  | inf (neg : Bool)
  /-- ± m × 2^e; a zero has m = 0. -/
  | fin (neg : Bool) (m : Nat) (e : Int)
  deriving DecidableEq, Repr

/-- The datum of an encoding. -/
def FFmt.val (f : FFmt) (b : Nat) : FVal :=
  let neg := b / 2 ^ f.low % 2 == 1
  let x := b / 2 ^ (f.p - 1) % 2 ^ f.ebits
  let m := b % 2 ^ (f.p - 1)
  if x = 2 ^ f.ebits - 1 then
    if m = 0 then .inf neg else .nan (decide (m < 2 ^ (f.p - 2)))
  else if x = 0 then .fin neg m f.kmin
  else .fin neg (2 ^ (f.p - 1) + m) (f.kmin + (x - 1 : Nat))

/-- A result: its encoding and the flags it raises. -/
structure FRes where
  bits : Nat
  flags : Nat
  deriving DecidableEq, Repr

def FFmt.nan (f : FFmt) (signalling : Bool) : FRes := { bits := f.nanBits, flags := if signalling then flagNV else 0 }
def FFmt.invalid (f : FFmt) : FRes := { bits := f.nanBits, flags := flagNV }
def FFmt.inf (f : FFmt) (neg : Bool) : FRes := { bits := f.signBit neg + f.infBits, flags := 0 }
def FFmt.zero (f : FFmt) (neg : Bool) : FRes := { bits := f.signBit neg, flags := 0 }

/-- What an overflow gives (R72). -/
def FFmt.overflow (f : FFmt) (mode : Nat) (neg : Bool) : FRes :=
  let toMax := match mode with
    | 1 => true
    | 2 => neg
    | 3 => !neg
    | _ => false
  { bits := f.signBit neg + (if toMax then f.maxBits else f.infBits), flags := flagOF + flagNX }

/-- The rounded magnitude is below the smallest normal one (R71). -/
def FFmt.tiny (f : FFmt) (a : Mag) (mode d : Nat) (neg : Bool) (q : Nat) : Bool :=
  if mode = 5 then decide (a.log < f.emin) && decide (q < 2 ^ (f.p - 1))
  else decide (a.log < f.emin)
    && !(decide (a.log = f.emin - 1) && decide ((a.roundAt (a.log - (f.p - 1 : Nat)) mode d neg).1 = 2 ^ f.p))

/-- Round a non-zero magnitude to the format (R71 to R73). -/
def FFmt.round (f : FFmt) (mode d : Nat) (neg : Bool) (a : Mag) : FRes :=
  let k := max (a.log - (f.p - 1 : Nat)) f.kmin
  let r := a.roundAt k mode d neg
  if f.emax + 1 - k ≤ 0 ∨ pow2 (f.emax + 1 - k) ≤ r.1 then f.overflow mode neg
  else
    { bits := f.signBit neg + (k - f.kmin).toNat * 2 ^ (f.p - 1) + r.1,
      flags := if r.2 then flagNX + (if f.tiny a mode d neg r.1 then flagUF else 0) else 0 }

/-- Round an exact number m × 2^e, m an integer; a zero takes the sign `zneg`. -/
def FFmt.roundInt (f : FFmt) (mode d : Nat) (zneg : Bool) (m : Int) (e : Int) : FRes :=
  if m = 0 then f.zero zneg else f.round mode d (decide (m < 0)) (Mag.dyadic m.natAbs e)

/-! ### Operations (R68, R69, R133 to R135) -/

def FVal.isNan : FVal → Bool
  | .nan _ => true
  | _ => false
def FVal.snan : FVal → Bool
  | .nan s => s
  | _ => false
def FVal.isZero : FVal → Bool
  | .fin _ m _ => decide (m = 0)
  | _ => false
def FVal.isInf : FVal → Bool
  | .inf _ => true
  | _ => false
def FVal.neg : FVal → Bool
  | .nan _ => false
  | .inf n => n
  | .fin n _ _ => n

/-- m with its sign. -/
def signed (neg : Bool) (m : Nat) : Int := if neg then -(m : Int) else m

/-- The integer of ± m × 2^e in units of 2^k, k ≤ e. -/
def inUnits (neg : Bool) (m : Nat) (e k : Int) : Int := signed neg (m * pow2 (e - k))

/-- The exact sum of two finite numbers, rounded: an exact zero of operands with different signs is −0 only when rounding
down. -/
def FFmt.sum (f : FFmt) (mode d : Nat) (n1 : Bool) (m1 : Nat) (e1 : Int) (n2 : Bool) (m2 : Nat) (e2 : Int) : FRes :=
  let k := min e1 e2
  let zneg := if n1 = n2 ∧ m1 = 0 ∧ m2 = 0 then n1 else decide (mode = 3)
  f.roundInt mode d zneg (inUnits n1 m1 e1 k + inUnits n2 m2 e2 k) k

def FFmt.add (f : FFmt) (mode d : Nat) (x y : FVal) : FRes :=
  match x, y with
  | .fin n1 m1 e1, .fin n2 m2 e2 => f.sum mode d n1 m1 e1 n2 m2 e2
  | .inf a, .inf b => if a = b then f.inf a else f.invalid
  | .inf a, .fin _ _ _ => f.inf a
  | .fin _ _ _, .inf b => f.inf b
  | _, _ => f.nan (x.snan || y.snan)

/-- The datum with its sign inverted. -/
def FVal.negate : FVal → FVal
  | .nan s => .nan s
  | .inf n => .inf (!n)
  | .fin n m e => .fin (!n) m e

def FFmt.sub (f : FFmt) (mode d : Nat) (x y : FVal) : FRes := f.add mode d x y.negate

def FFmt.mul (f : FFmt) (mode d : Nat) (x y : FVal) : FRes :=
  match x, y with
  | .fin n1 m1 e1, .fin n2 m2 e2 =>
    if m1 * m2 = 0 then f.zero (n1 != n2) else f.round mode d (n1 != n2) (Mag.dyadic (m1 * m2) (e1 + e2))
  | .nan _, _ => f.nan (x.snan || y.snan)
  | _, .nan _ => f.nan (x.snan || y.snan)
  | _, _ => if x.isZero || y.isZero then f.invalid else f.inf (x.neg != y.neg)

/-- a × b + c, rounded once; 0 × ∞ is invalid whatever c holds (R133). -/
def FFmt.fma (f : FFmt) (mode d : Nat) (x y z : FVal) : FRes :=
  if (x.isZero && y.isInf) || (x.isInf && y.isZero) then f.invalid
  else if x.isNan || y.isNan || z.isNan then f.nan (x.snan || y.snan || z.snan)
  else
    match x, y, z with
    | .fin n1 m1 e1, .fin n2 m2 e2, .fin n3 m3 e3 => f.sum mode d (n1 != n2) (m1 * m2) (e1 + e2) n3 m3 e3
    | .fin _ _ _, .fin _ _ _, z => f.inf z.neg
    | _, _, .inf n => if n = (x.neg != y.neg) then f.inf n else f.invalid
    | _, _, _ => f.inf (x.neg != y.neg)

def FFmt.div (f : FFmt) (mode d : Nat) (x y : FVal) : FRes :=
  let s := x.neg != y.neg
  match x, y with
  | .fin _ m1 e1, .fin _ m2 e2 =>
    if m2 = 0 then (if m1 = 0 then f.invalid else { f.inf s with flags := flagDZ })
    else if m1 = 0 then f.zero s
    else f.round mode d s { num := m1, den := m2, e := e1 - e2, root := false, approx := false }
  | .inf _, .inf _ => f.invalid
  | .inf _, .fin _ _ _ => f.inf s
  | .fin _ _ _, .inf _ => f.zero s
  | _, _ => f.nan (x.snan || y.snan)

def FFmt.sqrt (f : FFmt) (mode d : Nat) (x : FVal) : FRes :=
  match x with
  | .nan s => f.nan s
  | .inf n => if n then f.invalid else f.inf false
  | .fin n m e =>
    if m = 0 then f.zero n
    else if n then f.invalid
    else f.round mode d false { num := m, den := 1, e := e, root := true, approx := false }

/-- x < y for numbers that are not NaN, zeros of either sign being equal. -/
def FVal.lt : FVal → FVal → Bool
  | .inf n, .inf k => n && !k
  | .inf n, .fin _ _ _ => n
  | .fin _ _ _, .inf k => !k
  | .fin n m e, .fin k l g => decide (inUnits n m e (min e g) < inUnits k l g (min e g))
  | _, _ => false

/-- Equality of numbers that are not NaN. -/
def FVal.eq : FVal → FVal → Bool
  | .inf n, .inf k => n == k
  | .fin n m e, .fin k l g => decide (inUnits n m e (min e g) = inUnits k l g (min e g))
  | _, _ => false

/-- Minimum or maximum (R69) of two encodings: `number` ignores one NaN. −0 is less than +0. -/
def FFmt.minMax (f : FFmt) (big number : Bool) (a b : Nat) : FRes :=
  let x := f.val a
  let y := f.val b
  let nv := if x.snan || y.snan then flagNV else 0
  let less := x.lt y || (x.eq y && x.neg && !y.neg)
  if x.isNan && y.isNan then { bits := f.nanBits, flags := nv }
  else if x.isNan then { bits := if number then b else f.nanBits, flags := nv }
  else if y.isNan then { bits := if number then a else f.nanBits, flags := nv }
  else { bits := if less != big then a else b, flags := 0 }

/-- A comparison of R52: EQ, NE, LT, LE, GT, GE, UNORD, ORD. LT to GE raise NV for any NaN. -/
def fcompare (c : Nat) (x y : FVal) : Bool × Nat :=
  let un := x.isNan || y.isNan
  let quiet := if x.snan || y.snan then flagNV else 0
  let loud := if un then flagNV else 0
  match c with
  | 0 => (!un && x.eq y, quiet)
  | 1 => (un || !x.eq y, quiet)
  | 2 => (!un && x.lt y, loud)
  | 3 => (!un && (x.lt y || x.eq y), loud)
  | 4 => (!un && y.lt x, loud)
  | 5 => (!un && (y.lt x || x.eq y), loud)
  | 6 => (un, quiet)
  | _ => (!un, quiet)

/-- The class mask of R134. -/
def FFmt.classMask (f : FFmt) (x : FVal) : Nat :=
  match x with
  | .nan s => if s then 2 ^ 8 else 2 ^ 9
  | .inf n => if n then 1 else 2 ^ 7
  | .fin n m _ =>
    if m = 0 then (if n then 2 ^ 3 else 2 ^ 4)
    else if m < 2 ^ (f.p - 1) then (if n then 2 ^ 2 else 2 ^ 5)
    else (if n then 2 ^ 1 else 2 ^ 6)

/-- a × 2^n, rounded once (R135). Beyond ±5,000 every n gives the same result in every format. -/
def FFmt.scaleB (f : FFmt) (mode d : Nat) (x : FVal) (n : Int) : FRes :=
  match x with
  | .nan s => f.nan s
  | .inf k => f.inf k
  | .fin k m e =>
    if m = 0 then f.zero k else f.round mode d k (Mag.dyadic m (e + max (-5000) (min 5000 n)))

/-- Round to an integer (R133, VFRND); `exact` raises NX. -/
def FFmt.toIntegral (f : FFmt) (mode d : Nat) (exact : Bool) (x : FVal) : FRes :=
  match x with
  | .nan s => f.nan s
  | .inf k => f.inf k
  | .fin k m e =>
    if m = 0 then f.zero k
    else
      let r := (Mag.dyadic m e).roundAt 0 mode d k
      { f.roundInt 0 0 k (signed k r.1) 0 with flags := if exact && r.2 then flagNX else 0 }

/-! ### Integers and conversions (R64, R65, R75) -/

/-- Element `k` of width `w` of a value. -/
def elemAt (w k v : Nat) : Nat := v / 2 ^ (w * k) % 2 ^ w

/-- Put elements of width `w` together, the first lowest. -/
def joinElems (w : Nat) : List Nat → Nat
  | [] => 0
  | e :: rest => e % 2 ^ w + 2 ^ w * joinElems w rest

/-- A signed integer type code. -/
def isSigned (ty : Nat) : Bool := [0, 2, 8, 10].contains ty

/-- The value of a `w`-bit element. -/
def elemInt (ty w b : Nat) : Int := if isSigned ty && decide (2 ^ (w - 1) ≤ b) then (b : Int) - 2 ^ w else b

/-- The least and the largest value of a `w`-bit element. -/
def elemLow (ty w : Nat) : Int := if isSigned ty then -(2 ^ (w - 1)) else 0
def elemHigh (ty w : Nat) : Int := if isSigned ty then 2 ^ (w - 1) - 1 else 2 ^ w - 1

/-- The `w` bits of an integer. -/
def intBits (w : Nat) (v : Int) : Nat := (v % 2 ^ w).toNat

/-- Wrap, or clamp with .sat: the element's bits and whether it was clamped (R65). -/
def fitInt (ty w : Nat) (sat : Bool) (v : Int) : Nat × Bool :=
  if sat ∧ v < elemLow ty w then (intBits w (elemLow ty w), true)
  else if sat ∧ elemHigh ty w < v then (intBits w (elemHigh ty w), true)
  else (intBits w v, false)

/-- A converted element: its bits, the flags, and whether it was clamped. -/
structure Cvt where
  bits : Nat
  flags : Nat
  sat : Bool
  deriving DecidableEq, Repr

def FRes.cvt (r : FRes) : Cvt := { bits := r.bits, flags := r.flags, sat := false }

/-- Convert a floating datum to a format. -/
def FFmt.convert (f : FFmt) (mode d : Nat) (x : FVal) : FRes :=
  match x with
  | .nan s => f.nan s
  | .inf n => f.inf n
  | .fin n m e => if m = 0 then f.zero n else f.round mode d n (Mag.dyadic m e)

/-- Convert a floating datum to an integer: out of range gives the nearest bound with NV. -/
def floatToInt (ty w mode d : Nat) (x : FVal) : Cvt :=
  let bound (neg : Bool) : Cvt :=
    { bits := intBits w (if neg then elemLow ty w else elemHigh ty w), flags := flagNV, sat := false }
  match x with
  | .nan _ => { bits := 0, flags := flagNV, sat := false }
  | .inf n => bound n
  | .fin n m e =>
    let r := (Mag.dyadic m e).roundAt 0 mode d n
    let v := signed n r.1
    if m = 0 then { bits := 0, flags := 0, sat := false }
    else if v < elemLow ty w ∨ elemHigh ty w < v then bound n
    else { bits := intBits w v, flags := if r.2 then flagNX else 0, sat := false }

/-- Convert one element from type `src` to type `dst` (R75). -/
def convertElem (src dst mode d : Nat) (sat : Bool) (b : Nat) : Cvt :=
  let w := elemBits dst
  if isFloat src then
    if isFloat dst then ((fmtOf dst).convert mode d ((fmtOf src).val b)).cvt
    else floatToInt dst w mode d ((fmtOf src).val b)
  else
    let v := elemInt src (elemBits src) b
    if isFloat dst then ((fmtOf dst).roundInt mode d false v 0).cvt
    else
      let r := fitInt dst w sat v
      { bits := r.1, flags := 0, sat := r.2 }

/-! ### Special functions (R76, R77) -/

/-- The fraction bits that the special functions work with. -/
def workBits : Nat := 320

/-- ⌊π × 2^320⌋. -/
def piFix : Nat := 0x3243f6a8885a308d313198a2e03707344a4093822299f31d0082efa98ec4e6c89452821e638d01377

/-- ⌊ln 2 × 2^320⌋. -/
def ln2Fix : Nat := 0xb17217f7d1cf79abc9e3b39803f2f6af40f343267298b62d8a0d175b8baafa2be7b876206debac98

/-- The product of two fixed-point numbers. -/
def fixMul (a b : Nat) : Nat := a * b / 2 ^ workBits

/-- Σ t^i / i!, `n` terms from term `i`, whose value is `term`. -/
def expSum (t : Nat) : Nat → Nat → Nat → Nat
  | 0, _, _ => 0
  | n + 1, i, term => term + expSum t n (i + 1) (fixMul term t / (i + 1))

/-- e^t for 0 ≤ t < 1. -/
def expFix (t : Nat) : Nat := expSum t 80 0 (2 ^ workBits)

/-- Σ z^(2i+1) / (2i + 1), `n` terms; `p` is the power. -/
def atanhSum (z2 : Nat) : Nat → Nat → Nat → Nat
  | 0, _, _ => 0
  | n + 1, i, p => p / (2 * i + 1) + atanhSum z2 n (i + 1) (fixMul p z2)

/-- ln f for 1 ≤ f < 2. -/
def lnFix (f : Nat) : Nat :=
  let z := (f - 2 ^ workBits) * 2 ^ workBits / (f + 2 ^ workBits)
  2 * atanhSum (fixMul z z) 110 0 z

/-- Alternating Σ of t^(i) / i! in steps of 2 from term `i`. -/
def trigSum (t2 : Nat) : Nat → Nat → Nat → Int
  | 0, _, _ => 0
  | n + 1, i, term => (term : Int) - trigSum t2 n (i + 2) (fixMul term t2 / ((i + 1) * (i + 2)))

/-- sin t and cos t for 0 ≤ t < 1. -/
def sinFix (t : Nat) : Nat := (trigSum (fixMul t t) 40 1 t).toNat
def cosFix (t : Nat) : Nat := (trigSum (fixMul t t) 40 0 (2 ^ workBits)).toNat

/-- Round a fixed-point approximation from below, in units of 2^(e − 320), of an irrational magnitude. -/
def roundFixed (neg : Bool) (v : Nat) (e : Int) : FRes :=
  f32.round 0 0 neg { num := v, den := 1, e := e - workBits, root := false, approx := true }

/-- 1/x. -/
def rcpOf (x : FVal) : FRes :=
  match x with
  | .nan s => f32.nan s
  | .inf n => f32.zero n
  | .fin n m e =>
    if m = 0 then { f32.inf n with flags := flagDZ }
    else f32.round 0 0 n { num := 1, den := m, e := -e, root := false, approx := false }

/-- 1/√x. -/
def rsqOf (x : FVal) : FRes :=
  match x with
  | .nan s => f32.nan s
  | .inf n => if n then f32.invalid else f32.zero false
  | .fin n m e =>
    if m = 0 then { f32.inf n with flags := flagDZ }
    else if n then f32.invalid
    else f32.round 0 0 false { num := 1, den := m, e := -e, root := true, approx := false }

/-- A number of magnitude at most 512 as an integer part and a fraction in units of 2^−320, rounding down. -/
def splitFix (n : Bool) (m : Nat) (e : Int) : Int × Nat :=
  let v := inUnits n m (e + workBits) 0
  (v / 2 ^ workBits, (v % 2 ^ workBits).toNat)

/-- 2^x. Beyond ±512 every x gives the same result. -/
def exp2Of (x : FVal) : FRes :=
  match x with
  | .nan s => f32.nan s
  | .inf n => if n then f32.zero false else f32.inf false
  | .fin n m e =>
    let big := decide (0 < m) && decide (9 ≤ (Mag.dyadic m e).log)
    let r := if big then (if n then -512 else 512, 0) else splitFix n m e
    if r.2 = 0 then f32.round 0 0 false (Mag.dyadic 1 r.1)
    else roundFixed false (expFix (fixMul r.2 ln2Fix)) r.1

/-- log2 x. -/
def log2Of (x : FVal) : FRes :=
  match x with
  | .nan s => f32.nan s
  | .inf n => if n then f32.invalid else f32.inf false
  | .fin n m e =>
    if m = 0 then { f32.inf true with flags := flagDZ }
    else if n then f32.invalid
    else
      let l := (Nat.log2 m : Int)
      let k := e + l
      let f := m * 2 ^ workBits / 2 ^ Nat.log2 m
      if f = 2 ^ workBits then f32.roundInt 0 0 false k 0
      else
        let v : Int := k * 2 ^ workBits + (lnFix f * 2 ^ workBits / ln2Fix : Nat)
        roundFixed (decide (v < 0)) v.natAbs 0

/-- The fraction of |x| modulo 2 in units of 2^−320, for a dyadic |x| = m × 2^e with e at least −320. -/
def modTwo (m : Nat) (e : Int) : Nat := m * pow2 (e + workBits) % 2 ^ (workBits + 1)

/-- |sin πt| and its sign for t in [0, 2) in units of 2^−320; an exact 0 or 1 keeps its form. -/
def sinPiFix (t : Nat) : Bool × Mag :=
  let one := 2 ^ workBits
  let neg := decide (one ≤ t)
  let u := t % one
  let u := if one / 2 < u then one - u else u
  if u = 0 then (neg, Mag.dyadic 0 0)
  else if u = one / 2 then (neg, Mag.dyadic 1 0)
  else
    let v := if one / 4 < u then cosFix (fixMul (one / 2 - u) piFix) else sinFix (fixMul u piFix)
    (neg, { num := v, den := 1, e := -(workBits : Int), root := false, approx := true })

/-- sin πx. Every f32 of magnitude 2^24 or more is an even integer. -/
def sinPiOf (x : FVal) : FRes :=
  match x with
  | .nan s => f32.nan s
  | .inf _ => f32.invalid
  | .fin n m e =>
    let r := sinPiFix (modTwo m e)
    if r.2.num = 0 then f32.zero n else f32.round 0 0 (n != r.1) r.2

/-- cos πx = sin π(x + ½), an even function. -/
def cosPiOf (x : FVal) : FRes :=
  match x with
  | .nan s => f32.nan s
  | .inf _ => f32.invalid
  | .fin _ m e =>
    let r := sinPiFix ((modTwo m e + 2 ^ (workBits - 1)) % 2 ^ (workBits + 1))
    if r.2.num = 0 then f32.zero false else f32.round 0 0 r.1 r.2

/-- tanh x = (y − 1) / (y + 1), y = e^(2|x|). From 64 on every x gives the same result. -/
def tanhOf (x : FVal) : FRes :=
  match x with
  | .nan s => f32.nan s
  | .inf n => { bits := f32.signBit n + 0x3F800000, flags := 0 }
  | .fin n m e =>
    if m = 0 then f32.zero n
    else
      let big := decide (6 ≤ (Mag.dyadic m e).log)
      let t := if big then 128 * 2 ^ workBits else m * pow2 (e + 1 + workBits)
      let k := t / ln2Fix
      let y := expFix (t - k * ln2Fix) * 2 ^ k
      let one := 2 ^ workBits
      roundFixed n ((y - one) * one / (y + one)) 0

end Sys2Proof.Machine
end

