-- ==== Sys2Proof/WellFormed.lean ====
section
/-! DEFINITION. Well-formed instructions: those whose fields obey the rules of their format (R55). The decoder answers
only such instructions; every other encoding raises ILLEGAL. -/

namespace Sys2Proof

/-- An instruction whose every field holds a value its encoding accepts (R55). -/
def Instr.wf (i : Instr) : Bool :=
  match laneForm i with
  | some f => f.ok
  | none => scalarFields i

end Sys2Proof
end

