-- ==== Sys2Proof/Decode.lean ====
section
/-! DEFINITION. The encodings of both streams (R32 to R57): the encoder of a well-formed instruction and the decoder,
total on any bytes. A word that is no instruction is rejected by name; the part raises ILLEGAL for each of them (R55).
Compiled Lean builds no constructor beyond the 244th of a type, so the six lane instructions that `Instr` lists later are
read as a `LaneWord` first; only the definitions that name them as an `Instr` are noncomputable. -/

namespace Sys2Proof

/-- Why an encoding is no instruction (R55). -/
inductive Reject where
  /-- An unassigned major, fn, sub-op, op or sub value. -/
  | unassigned
  /-- A reserved or unused bit that is not zero. -/
  | reserved
  /-- A field value that the instruction does not accept: a type, rounding, condition, register or count. -/
  | field
  /-- Not the 4 bytes of a scalar instruction or the 12 bytes of a lane instruction (R32). -/
  | length
  deriving DecidableEq, Repr

/-- The field of `len` bits of word `w` that starts at bit `lo`. -/
def bits (w lo len : Nat) : BitVec len := BitVec.ofNat len (w / 2 ^ lo)

/-- The little-endian value of a list of bytes. -/
def leNat : List Byte → Nat
  | [] => 0
  | b :: rest => b.toNat + 256 * leNat rest

/-- The `n` little-endian bytes of a value. -/
def leBytes : Nat → Nat → List Byte
  | 0, _ => []
  | n + 1, w => BitVec.ofNat 8 w :: leBytes n (w / 256)

/-! ### The encoder -/

/-- A word with fields placed in it, each as its value and its lowest bit. -/
def place (w : Nat) : List (Nat × Nat) → Nat
  | [] => w
  | (v, lo) :: rest => place (w + v * 2 ^ lo) rest

/-- The word of a scalar instruction (R33 to R46); none for the others. -/
def encodeScalar : Instr → Option Nat
  | .nop => some (place 0x00000000 [])
  | .add d a b => some (place 0x04000000 [(d.toNat, 20), (a.toNat, 14), (b.toNat, 8)])
  | .sub d a b => some (place 0x04000001 [(d.toNat, 20), (a.toNat, 14), (b.toNat, 8)])
  | .mul d a b => some (place 0x04000002 [(d.toNat, 20), (a.toNat, 14), (b.toNat, 8)])
  | .mulh d a b => some (place 0x04000003 [(d.toNat, 20), (a.toNat, 14), (b.toNat, 8)])
  | .mulhn d a b => some (place 0x04000004 [(d.toNat, 20), (a.toNat, 14), (b.toNat, 8)])
  | .div d a b => some (place 0x04000005 [(d.toNat, 20), (a.toNat, 14), (b.toNat, 8)])
  | .divn d a b => some (place 0x04000006 [(d.toNat, 20), (a.toNat, 14), (b.toNat, 8)])
  | .rem d a b => some (place 0x04000007 [(d.toNat, 20), (a.toNat, 14), (b.toNat, 8)])
  | .remn d a b => some (place 0x04000008 [(d.toNat, 20), (a.toNat, 14), (b.toNat, 8)])
  | .and d a b => some (place 0x04000009 [(d.toNat, 20), (a.toNat, 14), (b.toNat, 8)])
  | .or d a b => some (place 0x0400000A [(d.toNat, 20), (a.toNat, 14), (b.toNat, 8)])
  | .xor d a b => some (place 0x0400000B [(d.toNat, 20), (a.toNat, 14), (b.toNat, 8)])
  | .andn d a b => some (place 0x0400000C [(d.toNat, 20), (a.toNat, 14), (b.toNat, 8)])
  | .shl d a b => some (place 0x0400000D [(d.toNat, 20), (a.toNat, 14), (b.toNat, 8)])
  | .shr d a b => some (place 0x0400000E [(d.toNat, 20), (a.toNat, 14), (b.toNat, 8)])
  | .sar d a b => some (place 0x0400000F [(d.toNat, 20), (a.toNat, 14), (b.toNat, 8)])
  | .rotl d a b => some (place 0x04000010 [(d.toNat, 20), (a.toNat, 14), (b.toNat, 8)])
  | .min d a b => some (place 0x04000011 [(d.toNat, 20), (a.toNat, 14), (b.toNat, 8)])
  | .max d a b => some (place 0x04000012 [(d.toNat, 20), (a.toNat, 14), (b.toNat, 8)])
  | .minn d a b => some (place 0x04000013 [(d.toNat, 20), (a.toNat, 14), (b.toNat, 8)])
  | .maxn d a b => some (place 0x04000014 [(d.toNat, 20), (a.toNat, 14), (b.toNat, 8)])
  | .seq d a b => some (place 0x04000015 [(d.toNat, 20), (a.toNat, 14), (b.toNat, 8)])
  | .sne d a b => some (place 0x04000016 [(d.toNat, 20), (a.toNat, 14), (b.toNat, 8)])
  | .slt d a b => some (place 0x04000017 [(d.toNat, 20), (a.toNat, 14), (b.toNat, 8)])
  | .sltn d a b => some (place 0x04000018 [(d.toNat, 20), (a.toNat, 14), (b.toNat, 8)])
  | .sle d a b => some (place 0x04000019 [(d.toNat, 20), (a.toNat, 14), (b.toNat, 8)])
  | .slen d a b => some (place 0x0400001A [(d.toNat, 20), (a.toNat, 14), (b.toNat, 8)])
  | .clz d a => some (place 0x0400001B [(d.toNat, 20), (a.toNat, 14)])
  | .popc d a => some (place 0x0400001C [(d.toNat, 20), (a.toNat, 14)])
  | .brev d a => some (place 0x0400001D [(d.toNat, 20), (a.toNat, 14)])
  | .add64 d a b => some (place 0x04000020 [(d.toNat, 20), (a.toNat, 14), (b.toNat, 8)])
  | .sub64 d a b => some (place 0x04000021 [(d.toNat, 20), (a.toNat, 14), (b.toNat, 8)])
  | .shl64 d a b => some (place 0x04000022 [(d.toNat, 20), (a.toNat, 14), (b.toNat, 8)])
  | .shr64 d a b => some (place 0x04000023 [(d.toNat, 20), (a.toNat, 14), (b.toNat, 8)])
  | .sar64 d a b => some (place 0x04000024 [(d.toNat, 20), (a.toNat, 14), (b.toNat, 8)])
  | .movp d a => some (place 0x04000025 [(d.toNat, 20), (a.toNat, 14)])
  | .selz d a b => some (place 0x04000026 [(d.toNat, 20), (a.toNat, 14), (b.toNat, 8)])
  | .addi d a i => some (place 0x08000000 [(d.toNat, 20), (a.toNat, 14), (i.toNat, 0)])
  | .andi d a i => some (place 0x0C000000 [(d.toNat, 20), (a.toNat, 14), (i.toNat, 0)])
  | .ori d a i => some (place 0x10000000 [(d.toNat, 20), (a.toNat, 14), (i.toNat, 0)])
  | .xori d a i => some (place 0x14000000 [(d.toNat, 20), (a.toNat, 14), (i.toNat, 0)])
  | .shli d a i => some (place 0x18000000 [(d.toNat, 20), (a.toNat, 14), (i.toNat, 0)])
  | .shri d a i => some (place 0x1C000000 [(d.toNat, 20), (a.toNat, 14), (i.toNat, 0)])
  | .sari d a i => some (place 0x20000000 [(d.toNat, 20), (a.toNat, 14), (i.toNat, 0)])
  | .slti d a i => some (place 0x24000000 [(d.toNat, 20), (a.toNat, 14), (i.toNat, 0)])
  | .sltni d a i => some (place 0x28000000 [(d.toNat, 20), (a.toNat, 14), (i.toNat, 0)])
  | .lih d i => some (place 0x2C000000 [(d.toNat, 20), (i.toNat, 0)])
  | .muli d a i => some (place 0x30000000 [(d.toNat, 20), (a.toNat, 14), (i.toNat, 0)])
  | .kand d a b => some (place 0x34000000 [(d.toNat, 16), (a.toNat, 12), (b.toNat, 8)])
  | .kor d a b => some (place 0x34100000 [(d.toNat, 16), (a.toNat, 12), (b.toNat, 8)])
  | .kxor d a b => some (place 0x34200000 [(d.toNat, 16), (a.toNat, 12), (b.toNat, 8)])
  | .kandn d a b => some (place 0x34300000 [(d.toNat, 16), (a.toNat, 12), (b.toNat, 8)])
  | .knot d a => some (place 0x34400000 [(d.toNat, 16), (a.toNat, 12)])
  | .kmov d a => some (place 0x34500000 [(d.toNat, 16), (a.toNat, 12)])
  | .kset d x => some (place 0x34600000 [(d.toNat, 16), (x.toNat, 2)])
  | .kget a x => some (place 0x34700000 [(a.toNat, 12), (x.toNat, 2)])
  | .kpop a x => some (place 0x34800000 [(a.toNat, 12), (x.toNat, 2)])
  | .kff a x => some (place 0x34900000 [(a.toNat, 12), (x.toNat, 2)])
  | .xmset a => some (place 0x34A00000 [(a.toNat, 12)])
  | .xmget d => some (place 0x34B00000 [(d.toNat, 16)])
  | .b c s d => some (place 0x40000000 [(c.toNat, 21), (s.toNat, 15), (d.toNat, 0)])
  | .bk c k d => some (place 0x46000000 [(c.toNat, 21), (k.toNat, 15), (d.toNat, 0)])
  | .j d => some (place 0x48000000 [(d.toNat, 0)])
  | .call d => some (place 0x4C000000 [(d.toNat, 0)])
  | .ji a => some (place 0x50000000 [(a.toNat, 14)])
  | .calli a => some (place 0x50000001 [(a.toNat, 14)])
  | .ret => some (place 0x50000002 [])
  | .loopImm l c e => some (place 0x54000000 [(l.toNat, 24), (c.toNat, 15), (e.toNat, 0)])
  | .loopReg l s e => some (place 0x54800000 [(l.toNat, 24), (s.toNat, 15), (e.toNat, 0)])
  | .loopx => some (place 0x58000000 [])
  | .brd k d => some (place 0x60000000 [(k.toNat, 15), (d.toNat, 0)])
  | .jset d => some (place 0x64000000 [(d.toNat, 0)])
  | .join => some (place 0x68000000 [])
  | .brx v p n => some (place 0x6C000000 [(v.toNat, 18), (p.toNat, 12), (n.toNat, 0)])
  | .callx v p n => some (place 0x70000000 [(v.toNat, 18), (p.toNat, 12), (n.toNat, 0)])
  | .retx => some (place 0x74000000 [])
  | .lrun k r b => some (place 0x80000000 [(k.toNat, 22), (r.toNat, 20), (b.toNat, 0)])
  | .trap c => some (place 0x00100000 [(c.toNat, 0)])
  | .tret => some (place 0x00200000 [])
  | .brk c => some (place 0x00300000 [(c.toNat, 0)])
  | .csrr d c => some (place 0x00400000 [(d.toNat, 14), (c.toNat, 0)])
  | .csrw a c => some (place 0x00500000 [(a.toNat, 14), (c.toNat, 0)])
  | .csrs a c => some (place 0x00600000 [(a.toNat, 14), (c.toNat, 0)])
  | .csrc a c => some (place 0x00700000 [(a.toNat, 14), (c.toNat, 0)])
  | .waitc b l s c t => some (place 0x00800000 [(b.toNat, 16), (l.toNat, 12), (s.toNat, 8), (c.toNat, 4), (t.toNat, 0)])
  | .waitb a => some (place 0x00900000 [(a.toNat, 14)])
  | .tbatch d => some (place 0x00A00000 [(d.toNat, 14)])
  | .fenceAcquire s => some (place 0x00B00000 [(s.toNat, 17)])
  | .fenceRelease s => some (place 0x00B08000 [(s.toNat, 17)])
  | .fenceFull s => some (place 0x00B10000 [(s.toNat, 17)])
  | .fenceS s w => some (place 0x00B18000 [(s.toNat, 17), (w.toNat, 11)])
  | .publish a => some (place 0x00C00000 [(a.toNat, 14)])
  | .phend => some (place 0x00D00000 [])
  | .bar => some (place 0x00E00000 [])
  | .give n => some (place 0x00F00000 [(n.toNat, 0)])
  | .claim n => some (place 0x01000000 [(n.toNat, 0)])
  | .flameTake => some (place 0x01100000 [])
  | .flamePass a => some (place 0x01200000 [(a.toNat, 14)])
  | .rtswap a => some (place 0x01300000 [(a.toNat, 14)])
  | .genr d => some (place 0x01400000 [(d.toNat, 14)])
  | .discard b => some (place 0x01500000 [(b.toNat, 16)])
  | .sleep n => some (place 0x01600000 [(n.toNat, 0)])
  | .exit k => some (place 0x01700000 [(k.toNat, 16)])
  | .launch d a => some (place 0x90000000 [(d.toNat, 20), (a.toNat, 14)])
  | .graph d a b => some (place 0x94000000 [(d.toNat, 20), (a.toNat, 14), (b.toNat, 8)])
  | .cpy d a => some (place 0x98000000 [(d.toNat, 20), (a.toNat, 14)])
  | .collSumAi d a s r => some (place 0x9C000000 [(d.toNat, 20), (a.toNat, 14), (s.toNat, 10), (r.toNat, 6)])
  | .collSumFix d a s r => some (place 0x9C000002 [(d.toNat, 20), (a.toNat, 14), (s.toNat, 10), (r.toNat, 6)])
  | .collMax d a s r => some (place 0x9C00000C [(d.toNat, 20), (a.toNat, 14), (s.toNat, 10), (r.toNat, 6)])
  | .collMin d a s r => some (place 0x9C000014 [(d.toNat, 20), (a.toNat, 14), (s.toNat, 10), (r.toNat, 6)])
  | .collGather d a s r => some (place 0x9C00001C [(d.toNat, 20), (a.toNat, 14), (s.toNat, 10), (r.toNat, 6)])
  | .collRscatAi d a s r => some (place 0x9C000020 [(d.toNat, 20), (a.toNat, 14), (s.toNat, 10), (r.toNat, 6)])
  | .collRscatFix d a s r => some (place 0x9C000022 [(d.toNat, 20), (a.toNat, 14), (s.toNat, 10), (r.toNat, 6)])
  | .collBcast d a s r => some (place 0x9C00002C [(d.toNat, 20), (a.toNat, 14), (s.toNat, 10), (r.toNat, 6)])
  | .collA2a d a s r => some (place 0x9C000034 [(d.toNat, 20), (a.toNat, 14), (s.toNat, 10), (r.toNat, 6)])
  | .rinv d a f n p r m => some (place 0xA0000000 [(d.toNat, 20), (a.toNat, 14), (f.toNat, 8), (n.toNat, 4), (p.toNat, 2), (r.toNat, 1), (m.toNat, 0)])
  | .rinvw d a => some (place 0xA4000000 [(d.toNat, 20), (a.toNat, 14)])
  | .launchxRsv d a => some (place 0xA8000000 [(d.toNat, 20), (a.toNat, 14)])
  | .launchxCmt d a => some (place 0xA8000001 [(d.toNat, 20), (a.toNat, 14)])
  | .launchxAbt d a => some (place 0xA8000002 [(d.toNat, 20), (a.toNat, 14)])
  | .swaproot d e w b => some (place 0xB0000000 [(d.toNat, 20), (e.toNat, 14), (w.toNat, 8), (b.toNat, 4)])
  | .rcadj d q x => some (place 0xB4000000 [(d.toNat, 20), (q.toNat, 14), (x.toNat, 8)])
  | .brld d b o i => some (place 0xB8000000 [(d.toNat, 20), (b.toNat, 16), (o.toNat, 10), (i.toNat, 0)])
  | .brnarAdd d o s => some (place 0xBC000000 [(d.toNat, 20), (o.toNat, 10), (s.toNat, 4)])
  | .brnarMin d o s => some (place 0xBC000100 [(d.toNat, 20), (o.toNat, 10), (s.toNat, 4)])
  | .brnarRo d s => some (place 0xBC000200 [(d.toNat, 20), (s.toNat, 4)])
  | .brget d b s => some (place 0xC0000000 [(d.toNat, 20), (b.toNat, 16), (s.toNat, 0)])
  | .sld4 d b o i => some (place 0xC4000000 [(d.toNat, 20), (b.toNat, 16), (o.toNat, 10), (i.toNat, 0)])
  | .sld8 d b o i => some (place 0xC4000100 [(d.toNat, 20), (b.toNat, 16), (o.toNat, 10), (i.toNat, 0)])
  | .sst4 a b o i => some (place 0xC8000000 [(a.toNat, 20), (b.toNat, 16), (o.toNat, 10), (i.toNat, 0)])
  | .sst8 a b o i => some (place 0xC8000100 [(a.toNat, 20), (b.toNat, 16), (o.toNat, 10), (i.toNat, 0)])
  | .caout d a => some (place 0xCC000000 [(d.toNat, 20), (a.toNat, 14)])
  | _ => none

/-- Layout L.A below op (R47). -/
def encodeLA (f : LA) : Nat :=
  f.ty.toNat * 2 ^ 84 + f.kq.toNat * 2 ^ 80 + f.vd.toNat * 2 ^ 72 + f.va.toNat * 2 ^ 64 + f.vb.toNat * 2 ^ 56
    + f.vc.toNat * 2 ^ 48 + f.e.toNat * 2 ^ 47 + f.rnd.toNat * 2 ^ 44 + f.sat.toNat * 2 ^ 43 + f.m.toNat * 2 ^ 40
    + f.sub.toNat * 2 ^ 32 + f.imm.toNat

/-- Layout L.M below op (R47). -/
def encodeLM (f : LM) : Nat :=
  f.ty.toNat * 2 ^ 84 + f.kq.toNat * 2 ^ 80 + f.vd.toNat * 2 ^ 72 + f.voff.toNat * 2 ^ 64 + f.b.toNat * 2 ^ 60
    + f.stream.toNat * 2 ^ 58 + f.hint.toNat * 2 ^ 56 + f.second.toNat * 2 ^ 48 + f.e.toNat * 2 ^ 47
    + f.m.toNat * 2 ^ 40 + f.wc.toNat * 2 ^ 32 + f.disp.toNat

/-- Layout L.T below op (R47, R54). -/
def encodeLT (f : LT) : Nat :=
  f.shape.toNat * 2 ^ 84 + f.fmt.toNat * 2 ^ 81 + f.sparse.toNat * 2 ^ 80 + f.a.toNat * 2 ^ 72 + f.b.toNat * 2 ^ 64
    + f.ea.toNat * 2 ^ 56 + f.eb.toNat * 2 ^ 48 + f.e.toNat * 2 ^ 47 + f.md.toNat * 2 ^ 40 + f.row0.toNat * 2 ^ 28
    + f.col0.toNat * 2 ^ 24 + f.flags.toNat * 2 ^ 16

/-- op in bits [95:88] above the other fields (R47). -/
def withOp (op body : Nat) : Nat := op * 2 ^ 88 + body

/-- The 96 bits of a lane instruction (R47, R51); none for the others. -/
def encodeLane : Instr → Option Nat
  | .vadd f => some (withOp 0x00 (encodeLA f))
  | .vsub f => some (withOp 0x01 (encodeLA f))
  | .vmul f => some (withOp 0x02 (encodeLA f))
  | .vmulh f => some (withOp 0x03 (encodeLA f))
  | .vmad f => some (withOp 0x04 (encodeLA f))
  | .vdiv f => some (withOp 0x05 (encodeLA f))
  | .vrem f => some (withOp 0x06 (encodeLA f))
  | .vmin f => some (withOp 0x07 (encodeLA f))
  | .vmax f => some (withOp 0x08 (encodeLA f))
  | .vabs f => some (withOp 0x09 (encodeLA f))
  | .vneg f => some (withOp 0x0A (encodeLA f))
  | .vand f => some (withOp 0x0B (encodeLA f))
  | .vor f => some (withOp 0x0C (encodeLA f))
  | .vxor f => some (withOp 0x0D (encodeLA f))
  | .vnot f => some (withOp 0x0E (encodeLA f))
  | .vshl f => some (withOp 0x0F (encodeLA f))
  | .vshr f => some (withOp 0x10 (encodeLA f))
  | .vsar f => some (withOp 0x11 (encodeLA f))
  | .vrot f => some (withOp 0x12 (encodeLA f))
  | .vclz f => some (withOp 0x13 (encodeLA f))
  | .vpopc f => some (withOp 0x14 (encodeLA f))
  | .vbfe f => some (withOp 0x15 (encodeLA f))
  | .vbfi f => some (withOp 0x16 (encodeLA f))
  | .vcmp f => some (withOp 0x17 (encodeLA f))
  | .vsel f => some (withOp 0x18 (encodeLA f))
  | .vmov f => some (withOp 0x19 (encodeLA f))
  | .vmovs f => some (withOp 0x1A (encodeLA f))
  | .vlane f => some (withOp 0x1B (encodeLA f))
  | .vwrx f => some (withOp 0x1C (encodeLA f))
  | .vrdx f => some (withOp 0x1D (encodeLA f))
  | .vtos f => some (withOp 0x1E (encodeLA f))
  | .vfadd f => some (withOp 0x20 (encodeLA f))
  | .vfsub f => some (withOp 0x21 (encodeLA f))
  | .vfmul f => some (withOp 0x22 (encodeLA f))
  | .vfma f => some (withOp 0x23 (encodeLA f))
  | .vfdiv f => some (withOp 0x24 (encodeLA f))
  | .vfsqrt f => some (withOp 0x25 (encodeLA f))
  | .vfmin f => some (withOp 0x26 (encodeLA f))
  | .vfmax f => some (withOp 0x27 (encodeLA f))
  | .vfabs f => some (withOp 0x28 (encodeLA f))
  | .vfneg f => some (withOp 0x29 (encodeLA f))
  | .vfcmp f => some (withOp 0x2A (encodeLA f))
  | .vfclass f => some (withOp 0x2B (encodeLA f))
  | .vfscale f => some (withOp 0x2C (encodeLA f))
  | .vfrnd f => some (withOp 0x2D (encodeLA f))
  | .vrcp f => some (withOp 0x40 (encodeLA f))
  | .vrsq f => some (withOp 0x41 (encodeLA f))
  | .vexp2 f => some (withOp 0x42 (encodeLA f))
  | .vlog2 f => some (withOp 0x43 (encodeLA f))
  | .vsinpi f => some (withOp 0x44 (encodeLA f))
  | .vcospi f => some (withOp 0x45 (encodeLA f))
  | .vtanh f => some (withOp 0x46 (encodeLA f))
  | .vcvt f => some (withOp 0x50 (encodeLA f))
  | .vqnt f => some (withOp 0x51 (encodeLA f))
  | .vdqn f => some (withOp 0x52 (encodeLA f))
  | .vaic f => some (withOp 0x53 (encodeLA f))
  | .vaif f => some (withOp 0x54 (encodeLA f))
  | .vrand f => some (withOp 0xB0 (encodeLA f))
  | .voptAdamw f => some (withOp 0x7F (encodeLA f))
  | .voptAdam f => some (withOp 0x7F (encodeLA f))
  | .voptLion f => some (withOp 0x7F (encodeLA f))
  | .voptSgd f => some (withOp 0x7F (encodeLA f))
  | .vshflIdx f => some (withOp 0x60 (encodeLA f))
  | .vshflUp f => some (withOp 0x60 (encodeLA f))
  | .vshflDown f => some (withOp 0x60 (encodeLA f))
  | .vshflXor f => some (withOp 0x60 (encodeLA f))
  | .vvoteAny f => some (withOp 0x61 (encodeLA f))
  | .vvoteAll f => some (withOp 0x61 (encodeLA f))
  | .vvoteBallot f => some (withOp 0x61 (encodeLA f))
  | .vvoteUni f => some (withOp 0x61 (encodeLA f))
  | .vredAdd f => some (withOp 0x62 (encodeLA f))
  | .vredMin f => some (withOp 0x62 (encodeLA f))
  | .vredMax f => some (withOp 0x62 (encodeLA f))
  | .vredAnd f => some (withOp 0x62 (encodeLA f))
  | .vredOr f => some (withOp 0x62 (encodeLA f))
  | .vredXor f => some (withOp 0x62 (encodeLA f))
  | .vscanAdd f => some (withOp 0x63 (encodeLA f))
  | .vscanMin f => some (withOp 0x63 (encodeLA f))
  | .vscanMax f => some (withOp 0x63 (encodeLA f))
  | .vscanAnd f => some (withOp 0x63 (encodeLA f))
  | .vscanOr f => some (withOp 0x63 (encodeLA f))
  | .vscanXor f => some (withOp 0x63 (encodeLA f))
  | .vmatchAny f => some (withOp 0x64 (encodeLA f))
  | .vmatchAll f => some (withOp 0x64 (encodeLA f))
  | .vld f => some (withOp 0x70 (encodeLM f))
  | .vst f => some (withOp 0x71 (encodeLM f))
  | .vstnb f => some (withOp 0x72 (encodeLM f))
  | .vldt f => some (withOp 0x73 (encodeLM f))
  | .vldb f => some (withOp 0x74 (encodeLM f))
  | .vstb f => some (withOp 0x75 (encodeLM f))
  | .vldf f => some (withOp 0x76 (encodeLM f))
  | .vldfk f => some (withOp 0x77 (encodeLM f))
  | .vste f => some (withOp 0x78 (encodeLM f))
  | .vstf f => some (withOp 0x79 (encodeLM f))
  | .vfecEmpty f => some (withOp 0x7A (encodeLM f))
  | .vfecFull f => some (withOp 0x7A (encodeLM f))
  | .vatomAdd f => some (withOp 0x7C (encodeLM f))
  | .vatomMin f => some (withOp 0x7C (encodeLM f))
  | .vatomMax f => some (withOp 0x7C (encodeLM f))
  | .vatomAnd f => some (withOp 0x7C (encodeLM f))
  | .vatomOr f => some (withOp 0x7C (encodeLM f))
  | .vatomXor f => some (withOp 0x7C (encodeLM f))
  | .vatomXchg f => some (withOp 0x7C (encodeLM f))
  | .vatomCas f => some (withOp 0x7C (encodeLM f))
  | .vatomFadd f => some (withOp 0x7C (encodeLM f))
  | .vatomAiadd f => some (withOp 0x7C (encodeLM f))
  | .vredmAdd f => some (withOp 0x7D (encodeLM f))
  | .vredmMin f => some (withOp 0x7D (encodeLM f))
  | .vredmMax f => some (withOp 0x7D (encodeLM f))
  | .vredmAnd f => some (withOp 0x7D (encodeLM f))
  | .vredmOr f => some (withOp 0x7D (encodeLM f))
  | .vredmXor f => some (withOp 0x7D (encodeLM f))
  | .vredmFadd f => some (withOp 0x7D (encodeLM f))
  | .vredmAiadd f => some (withOp 0x7D (encodeLM f))
  | .vrld f => some (withOp 0x7E (encodeLM f))
  | .vlalLeaf f => some (withOp 0x90 (encodeLA f))
  | .vlalNode f => some (withOp 0x90 (encodeLA f))
  | .vlkp f => some (withOp 0x91 (encodeLA f))
  | .mma f => some (withOp 0xA0 (encodeLT f))
  | .mmas f => some (withOp 0xA1 (encodeLT f))
  | .mperm f => some (withOp 0xA2 (encodeLT f))
  | .mzero f => some (withOp 0xA3 (encodeLT f))
  | .mlda f => some (withOp 0xA4 (encodeLT f))
  | .msta f => some (withOp 0xA5 (encodeLT f))
  | .mcpySt f => some (withOp 0xA6 (encodeLT f))
  | .mcpyLd f => some (withOp 0xA6 (encodeLT f))
  | _ => none

/-- The bytes of an instruction as they stand in memory (R32); an event has none. -/
def encode (i : Instr) : List Byte :=
  match encodeScalar i with
  | some w => leBytes 4 w
  | none =>
    match encodeLane i with
    | some w => leBytes 12 w
    | none => []

/-! ### The decoder -/

/-- The fields of layout L.A (R47). -/
def laOf (w : Nat) : LA :=
  { ty := bits w 84 4, kq := bits w 80 4, vd := bits w 72 8, va := bits w 64 8, vb := bits w 56 8, vc := bits w 48 8,
    e := bits w 47 1 == 1, rnd := bits w 44 3, sat := bits w 43 1 == 1, m := bits w 40 3, sub := bits w 32 8,
    imm := bits w 0 32 }

/-- The fields of layout L.M (R47). -/
def lmOf (w : Nat) : LM :=
  { ty := bits w 84 4, kq := bits w 80 4, vd := bits w 72 8, voff := bits w 64 8, b := bits w 60 4,
    stream := bits w 58 2, hint := bits w 56 2, second := bits w 48 8, e := bits w 47 1 == 1, m := bits w 40 3,
    wc := bits w 32 8, disp := bits w 0 32 }

/-- The fields of layout L.T (R47, R54). -/
def ltOf (w : Nat) : LT :=
  { shape := bits w 84 4, fmt := bits w 81 3, sparse := bits w 80 1 == 1, a := bits w 72 8, b := bits w 64 8,
    ea := bits w 56 8, eb := bits w 48 8, e := bits w 47 1 == 1, md := bits w 40 7, row0 := bits w 28 4,
    col0 := bits w 24 4, flags := bits w 16 8 }

/-- The kinds of FENCE (R42). -/
def fenceOf (w : Nat) : Option Instr :=
  match w / 2 ^ 15 % 4 with
  | 0 => some (.fenceAcquire (bits w 17 3))
  | 1 => some (.fenceRelease (bits w 17 3))
  | 2 => some (.fenceFull (bits w 17 3))
  | 3 => some (.fenceS (bits w 17 3) (bits w 11 4))
  | _ => none

/-- The SYS sub-ops (R41). -/
def sysOf (w : Nat) : Option Instr :=
  match w / 2 ^ 20 % 64 with
  | 0x00 => some (.nop)
  | 0x01 => some (.trap (bits w 0 16))
  | 0x02 => some (.tret)
  | 0x03 => some (.brk (bits w 0 16))
  | 0x04 => some (.csrr (bits w 14 6) (bits w 0 12))
  | 0x05 => some (.csrw (bits w 14 6) (bits w 0 12))
  | 0x06 => some (.csrs (bits w 14 6) (bits w 0 12))
  | 0x07 => some (.csrc (bits w 14 6) (bits w 0 12))
  | 0x08 => some (.waitc (bits w 16 4) (bits w 12 4) (bits w 8 4) (bits w 4 4) (bits w 0 4))
  | 0x09 => some (.waitb (bits w 14 6))
  | 0x0A => some (.tbatch (bits w 14 6))
  | 0x0C => some (.publish (bits w 14 6))
  | 0x0D => some (.phend)
  | 0x0E => some (.bar)
  | 0x0F => some (.give (bits w 0 6))
  | 0x10 => some (.claim (bits w 0 6))
  | 0x11 => some (.flameTake)
  | 0x12 => some (.flamePass (bits w 14 6))
  | 0x13 => some (.rtswap (bits w 14 6))
  | 0x14 => some (.genr (bits w 14 6))
  | 0x15 => some (.discard (bits w 16 4))
  | 0x16 => some (.sleep (bits w 0 16))
  | 0x17 => some (.exit (bits w 16 4))
  | 0x0B => fenceOf w
  | _ => none

/-- The ALU fn codes (R40). -/
def aluOf (w : Nat) : Option Instr :=
  match w % 256 with
  | 0x00 => some (.add (bits w 20 6) (bits w 14 6) (bits w 8 6))
  | 0x01 => some (.sub (bits w 20 6) (bits w 14 6) (bits w 8 6))
  | 0x02 => some (.mul (bits w 20 6) (bits w 14 6) (bits w 8 6))
  | 0x03 => some (.mulh (bits w 20 6) (bits w 14 6) (bits w 8 6))
  | 0x04 => some (.mulhn (bits w 20 6) (bits w 14 6) (bits w 8 6))
  | 0x05 => some (.div (bits w 20 6) (bits w 14 6) (bits w 8 6))
  | 0x06 => some (.divn (bits w 20 6) (bits w 14 6) (bits w 8 6))
  | 0x07 => some (.rem (bits w 20 6) (bits w 14 6) (bits w 8 6))
  | 0x08 => some (.remn (bits w 20 6) (bits w 14 6) (bits w 8 6))
  | 0x09 => some (.and (bits w 20 6) (bits w 14 6) (bits w 8 6))
  | 0x0A => some (.or (bits w 20 6) (bits w 14 6) (bits w 8 6))
  | 0x0B => some (.xor (bits w 20 6) (bits w 14 6) (bits w 8 6))
  | 0x0C => some (.andn (bits w 20 6) (bits w 14 6) (bits w 8 6))
  | 0x0D => some (.shl (bits w 20 6) (bits w 14 6) (bits w 8 6))
  | 0x0E => some (.shr (bits w 20 6) (bits w 14 6) (bits w 8 6))
  | 0x0F => some (.sar (bits w 20 6) (bits w 14 6) (bits w 8 6))
  | 0x10 => some (.rotl (bits w 20 6) (bits w 14 6) (bits w 8 6))
  | 0x11 => some (.min (bits w 20 6) (bits w 14 6) (bits w 8 6))
  | 0x12 => some (.max (bits w 20 6) (bits w 14 6) (bits w 8 6))
  | 0x13 => some (.minn (bits w 20 6) (bits w 14 6) (bits w 8 6))
  | 0x14 => some (.maxn (bits w 20 6) (bits w 14 6) (bits w 8 6))
  | 0x15 => some (.seq (bits w 20 6) (bits w 14 6) (bits w 8 6))
  | 0x16 => some (.sne (bits w 20 6) (bits w 14 6) (bits w 8 6))
  | 0x17 => some (.slt (bits w 20 6) (bits w 14 6) (bits w 8 6))
  | 0x18 => some (.sltn (bits w 20 6) (bits w 14 6) (bits w 8 6))
  | 0x19 => some (.sle (bits w 20 6) (bits w 14 6) (bits w 8 6))
  | 0x1A => some (.slen (bits w 20 6) (bits w 14 6) (bits w 8 6))
  | 0x1B => some (.clz (bits w 20 6) (bits w 14 6))
  | 0x1C => some (.popc (bits w 20 6) (bits w 14 6))
  | 0x1D => some (.brev (bits w 20 6) (bits w 14 6))
  | 0x20 => some (.add64 (bits w 20 6) (bits w 14 6) (bits w 8 6))
  | 0x21 => some (.sub64 (bits w 20 6) (bits w 14 6) (bits w 8 6))
  | 0x22 => some (.shl64 (bits w 20 6) (bits w 14 6) (bits w 8 6))
  | 0x23 => some (.shr64 (bits w 20 6) (bits w 14 6) (bits w 8 6))
  | 0x24 => some (.sar64 (bits w 20 6) (bits w 14 6) (bits w 8 6))
  | 0x25 => some (.movp (bits w 20 6) (bits w 14 6))
  | 0x26 => some (.selz (bits w 20 6) (bits w 14 6) (bits w 8 6))
  | _ => none

/-- The mask-group sub-ops (R43). -/
def maskOf (w : Nat) : Option Instr :=
  match w / 2 ^ 20 % 64 with
  | 0x00 => some (.kand (bits w 16 4) (bits w 12 4) (bits w 8 4))
  | 0x01 => some (.kor (bits w 16 4) (bits w 12 4) (bits w 8 4))
  | 0x02 => some (.kxor (bits w 16 4) (bits w 12 4) (bits w 8 4))
  | 0x03 => some (.kandn (bits w 16 4) (bits w 12 4) (bits w 8 4))
  | 0x04 => some (.knot (bits w 16 4) (bits w 12 4))
  | 0x05 => some (.kmov (bits w 16 4) (bits w 12 4))
  | 0x06 => some (.kset (bits w 16 4) (bits w 2 6))
  | 0x07 => some (.kget (bits w 12 4) (bits w 2 6))
  | 0x08 => some (.kpop (bits w 12 4) (bits w 2 6))
  | 0x09 => some (.kff (bits w 12 4) (bits w 2 6))
  | 0x0A => some (.xmset (bits w 12 4))
  | 0x0B => some (.xmget (bits w 16 4))
  | _ => none

/-- The fn codes of major 0x14 (R40). -/
def jumpOf (w : Nat) : Option Instr :=
  match w % 256 with
  | 0x00 => some (.ji (bits w 14 6))
  | 0x01 => some (.calli (bits w 14 6))
  | 0x02 => some (.ret)
  | _ => none

/-- The two kinds of LOOP (R35). -/
def loopOf (w : Nat) : Option Instr :=
  match w / 2 ^ 23 % 2 with
  | 0x00 => some (.loopImm (bits w 24 2) (bits w 15 8) (bits w 0 15))
  | 0x01 => some (.loopReg (bits w 24 2) (bits w 15 6) (bits w 0 15))
  | _ => none

/-- COLL by op and mode, bits [5:1] (R46). -/
def collOf (w : Nat) : Option Instr :=
  match w / 2 % 32 with
  | 0x00 => some (.collSumAi (bits w 20 6) (bits w 14 6) (bits w 10 4) (bits w 6 4))
  | 0x01 => some (.collSumFix (bits w 20 6) (bits w 14 6) (bits w 10 4) (bits w 6 4))
  | 0x06 => some (.collMax (bits w 20 6) (bits w 14 6) (bits w 10 4) (bits w 6 4))
  | 0x0A => some (.collMin (bits w 20 6) (bits w 14 6) (bits w 10 4) (bits w 6 4))
  | 0x0E => some (.collGather (bits w 20 6) (bits w 14 6) (bits w 10 4) (bits w 6 4))
  | 0x10 => some (.collRscatAi (bits w 20 6) (bits w 14 6) (bits w 10 4) (bits w 6 4))
  | 0x11 => some (.collRscatFix (bits w 20 6) (bits w 14 6) (bits w 10 4) (bits w 6 4))
  | 0x16 => some (.collBcast (bits w 20 6) (bits w 14 6) (bits w 10 4) (bits w 6 4))
  | 0x1A => some (.collA2a (bits w 20 6) (bits w 14 6) (bits w 10 4) (bits w 6 4))
  | _ => none

/-- The sub-ops of LAUNCHX, bits [1:0] (R46). -/
def launchxOf (w : Nat) : Option Instr :=
  match w % 4 with
  | 0x00 => some (.launchxRsv (bits w 20 6) (bits w 14 6))
  | 0x01 => some (.launchxCmt (bits w 20 6) (bits w 14 6))
  | 0x02 => some (.launchxAbt (bits w 20 6) (bits w 14 6))
  | _ => none

/-- The w codes of BRNAR (R45). -/
def brnarOf (w : Nat) : Option Instr :=
  match w / 2 ^ 8 % 4 with
  | 0x00 => some (.brnarAdd (bits w 20 4) (bits w 10 6) (bits w 4 4))
  | 0x01 => some (.brnarMin (bits w 20 4) (bits w 10 6) (bits w 4 4))
  | 0x02 => some (.brnarRo (bits w 20 4) (bits w 4 4))
  | _ => none

/-- The w codes of SLD (R45). -/
def sldOf (w : Nat) : Option Instr :=
  match w / 2 ^ 8 % 4 with
  | 0x00 => some (.sld4 (bits w 20 6) (bits w 16 4) (bits w 10 6) (bits w 0 8))
  | 0x01 => some (.sld8 (bits w 20 6) (bits w 16 4) (bits w 10 6) (bits w 0 8))
  | _ => none

/-- The w codes of SST (R45). -/
def sstOf (w : Nat) : Option Instr :=
  match w / 2 ^ 8 % 4 with
  | 0x00 => some (.sst4 (bits w 20 6) (bits w 16 4) (bits w 10 6) (bits w 0 8))
  | 0x01 => some (.sst8 (bits w 20 6) (bits w 16 4) (bits w 10 6) (bits w 0 8))
  | _ => none

/-- VSHFL by sub (R52). -/
def shuffleOf (w : Nat) : Option Instr :=
  match w / 2 ^ 32 % 256 with
  | 0 => some (.vshflIdx (laOf w))
  | 1 => some (.vshflUp (laOf w))
  | 2 => some (.vshflDown (laOf w))
  | 3 => some (.vshflXor (laOf w))
  | _ => none

/-- VVOTE by sub (R52). -/
def voteOf (w : Nat) : Option Instr :=
  match w / 2 ^ 32 % 256 with
  | 0 => some (.vvoteAny (laOf w))
  | 1 => some (.vvoteAll (laOf w))
  | 2 => some (.vvoteBallot (laOf w))
  | 3 => some (.vvoteUni (laOf w))
  | _ => none

/-- VRED by sub (R52). -/
def redOf (w : Nat) : Option Instr :=
  match w / 2 ^ 32 % 256 with
  | 0 => some (.vredAdd (laOf w))
  | 1 => some (.vredMin (laOf w))
  | 2 => some (.vredMax (laOf w))
  | 3 => some (.vredAnd (laOf w))
  | 4 => some (.vredOr (laOf w))
  | 5 => some (.vredXor (laOf w))
  | _ => none

/-- VSCAN by sub (R52). -/
def scanOf (w : Nat) : Option Instr :=
  match w / 2 ^ 32 % 256 with
  | 0 => some (.vscanAdd (laOf w))
  | 1 => some (.vscanMin (laOf w))
  | 2 => some (.vscanMax (laOf w))
  | 3 => some (.vscanAnd (laOf w))
  | 4 => some (.vscanOr (laOf w))
  | 5 => some (.vscanXor (laOf w))
  | _ => none

/-- VMATCH by sub (R52). -/
def matchOf (w : Nat) : Option Instr :=
  match w / 2 ^ 32 % 256 with
  | 0 => some (.vmatchAny (laOf w))
  | 1 => some (.vmatchAll (laOf w))
  | _ => none

/-- VFEC by the bit it sets (R53). -/
def fecOf (w : Nat) : Option Instr :=
  match w / 2 ^ 32 % 256 with
  | 0 => some (.vfecEmpty (lmOf w))
  | 1 => some (.vfecFull (lmOf w))
  | _ => none

/-- VATOM by sub, bits [39:35] (R52). -/
def atomOf (w : Nat) : Option Instr :=
  match w / 2 ^ 35 % 32 with
  | 0 => some (.vatomAdd (lmOf w))
  | 1 => some (.vatomMin (lmOf w))
  | 2 => some (.vatomMax (lmOf w))
  | 3 => some (.vatomAnd (lmOf w))
  | 4 => some (.vatomOr (lmOf w))
  | 5 => some (.vatomXor (lmOf w))
  | 6 => some (.vatomXchg (lmOf w))
  | 7 => some (.vatomCas (lmOf w))
  | 8 => some (.vatomFadd (lmOf w))
  | 9 => some (.vatomAiadd (lmOf w))
  | _ => none

/-- VREDM.ADD and MIN by sub, bits [39:35] (R52); `lateOf` reads the other six. -/
def redmOf (w : Nat) : Option Instr :=
  match w / 2 ^ 35 % 32 with
  | 0 => some (.vredmAdd (lmOf w))
  | 1 => some (.vredmMin (lmOf w))
  | _ => none

/-- VOPT by sub (R52). -/
def optOf (w : Nat) : Option Instr :=
  match w / 2 ^ 32 % 256 with
  | 0 => some (.voptAdamw (laOf w))
  | 1 => some (.voptAdam (laOf w))
  | 2 => some (.voptLion (laOf w))
  | 3 => some (.voptSgd (laOf w))
  | _ => none

/-- VLAL by kind, the vb field (R274). -/
def vlalOf (w : Nat) : Option Instr :=
  match w / 2 ^ 56 % 256 with
  | 0 => some (.vlalLeaf (laOf w))
  | 1 => some (.vlalNode (laOf w))
  | _ => none

/-- MCPY by direction, bit 75 (R302). -/
def mcpyOf (w : Nat) : Option Instr :=
  match w / 2 ^ 75 % 2 with
  | 0 => some (.mcpySt (ltOf w))
  | 1 => some (.mcpyLd (ltOf w))
  | _ => none

/-- The scalar instruction that a word's opcode bits select, with its fields (R39). -/
def scalarOf (w : Nat) : Option Instr :=
  match w / 2 ^ 26 with
  | 0x00 => sysOf w
  | 0x01 => aluOf w
  | 0x02 => some (.addi (bits w 20 6) (bits w 14 6) (bits w 0 14))
  | 0x03 => some (.andi (bits w 20 6) (bits w 14 6) (bits w 0 14))
  | 0x04 => some (.ori (bits w 20 6) (bits w 14 6) (bits w 0 14))
  | 0x05 => some (.xori (bits w 20 6) (bits w 14 6) (bits w 0 14))
  | 0x06 => some (.shli (bits w 20 6) (bits w 14 6) (bits w 0 5))
  | 0x07 => some (.shri (bits w 20 6) (bits w 14 6) (bits w 0 5))
  | 0x08 => some (.sari (bits w 20 6) (bits w 14 6) (bits w 0 5))
  | 0x09 => some (.slti (bits w 20 6) (bits w 14 6) (bits w 0 14))
  | 0x0A => some (.sltni (bits w 20 6) (bits w 14 6) (bits w 0 14))
  | 0x0B => some (.lih (bits w 20 6) (bits w 0 20))
  | 0x0C => some (.muli (bits w 20 6) (bits w 14 6) (bits w 0 14))
  | 0x0D => maskOf w
  | 0x10 => some (.b (bits w 21 5) (bits w 15 6) (bits w 0 15))
  | 0x11 => some (.bk (bits w 21 2) (bits w 15 4) (bits w 0 15))
  | 0x12 => some (.j (bits w 0 26))
  | 0x13 => some (.call (bits w 0 26))
  | 0x14 => jumpOf w
  | 0x15 => loopOf w
  | 0x16 => some (.loopx)
  | 0x18 => some (.brd (bits w 15 4) (bits w 0 15))
  | 0x19 => some (.jset (bits w 0 15))
  | 0x1A => some (.join)
  | 0x1B => some (.brx (bits w 18 8) (bits w 12 6) (bits w 0 12))
  | 0x1C => some (.callx (bits w 18 8) (bits w 12 6) (bits w 0 12))
  | 0x1D => some (.retx)
  | 0x20 => some (.lrun (bits w 22 4) (bits w 20 1 == 1) (bits w 0 20))
  | 0x24 => some (.launch (bits w 20 6) (bits w 14 6))
  | 0x25 => some (.graph (bits w 20 6) (bits w 14 6) (bits w 8 6))
  | 0x26 => some (.cpy (bits w 20 6) (bits w 14 6))
  | 0x27 => collOf w
  | 0x28 => some (.rinv (bits w 20 6) (bits w 14 6) (bits w 8 6) (bits w 4 4) (bits w 2 2) (bits w 1 1 == 1) (bits w 0 1 == 1))
  | 0x29 => some (.rinvw (bits w 20 6) (bits w 14 6))
  | 0x2A => launchxOf w
  | 0x2C => some (.swaproot (bits w 20 6) (bits w 14 6) (bits w 8 6) (bits w 4 4))
  | 0x2D => some (.rcadj (bits w 20 6) (bits w 14 6) (bits w 8 6))
  | 0x2E => some (.brld (bits w 20 4) (bits w 16 4) (bits w 10 6) (bits w 0 8))
  | 0x2F => brnarOf w
  | 0x30 => some (.brget (bits w 20 6) (bits w 16 4) (bits w 0 8))
  | 0x31 => sldOf w
  | 0x32 => sstOf w
  | 0x33 => some (.caout (bits w 20 6) (bits w 14 6))
  | _ => none

/-- The lane instruction that 96 bits' opcode bits select, with its fields (R51). -/
def laneOf (w : Nat) : Option Instr :=
  match w / 2 ^ 88 with
  | 0x00 => some (.vadd (laOf w))
  | 0x01 => some (.vsub (laOf w))
  | 0x02 => some (.vmul (laOf w))
  | 0x03 => some (.vmulh (laOf w))
  | 0x04 => some (.vmad (laOf w))
  | 0x05 => some (.vdiv (laOf w))
  | 0x06 => some (.vrem (laOf w))
  | 0x07 => some (.vmin (laOf w))
  | 0x08 => some (.vmax (laOf w))
  | 0x09 => some (.vabs (laOf w))
  | 0x0A => some (.vneg (laOf w))
  | 0x0B => some (.vand (laOf w))
  | 0x0C => some (.vor (laOf w))
  | 0x0D => some (.vxor (laOf w))
  | 0x0E => some (.vnot (laOf w))
  | 0x0F => some (.vshl (laOf w))
  | 0x10 => some (.vshr (laOf w))
  | 0x11 => some (.vsar (laOf w))
  | 0x12 => some (.vrot (laOf w))
  | 0x13 => some (.vclz (laOf w))
  | 0x14 => some (.vpopc (laOf w))
  | 0x15 => some (.vbfe (laOf w))
  | 0x16 => some (.vbfi (laOf w))
  | 0x17 => some (.vcmp (laOf w))
  | 0x18 => some (.vsel (laOf w))
  | 0x19 => some (.vmov (laOf w))
  | 0x1A => some (.vmovs (laOf w))
  | 0x1B => some (.vlane (laOf w))
  | 0x1C => some (.vwrx (laOf w))
  | 0x1D => some (.vrdx (laOf w))
  | 0x1E => some (.vtos (laOf w))
  | 0x20 => some (.vfadd (laOf w))
  | 0x21 => some (.vfsub (laOf w))
  | 0x22 => some (.vfmul (laOf w))
  | 0x23 => some (.vfma (laOf w))
  | 0x24 => some (.vfdiv (laOf w))
  | 0x25 => some (.vfsqrt (laOf w))
  | 0x26 => some (.vfmin (laOf w))
  | 0x27 => some (.vfmax (laOf w))
  | 0x28 => some (.vfabs (laOf w))
  | 0x29 => some (.vfneg (laOf w))
  | 0x2A => some (.vfcmp (laOf w))
  | 0x2B => some (.vfclass (laOf w))
  | 0x2C => some (.vfscale (laOf w))
  | 0x2D => some (.vfrnd (laOf w))
  | 0x40 => some (.vrcp (laOf w))
  | 0x41 => some (.vrsq (laOf w))
  | 0x42 => some (.vexp2 (laOf w))
  | 0x43 => some (.vlog2 (laOf w))
  | 0x44 => some (.vsinpi (laOf w))
  | 0x45 => some (.vcospi (laOf w))
  | 0x46 => some (.vtanh (laOf w))
  | 0x50 => some (.vcvt (laOf w))
  | 0x51 => some (.vqnt (laOf w))
  | 0x52 => some (.vdqn (laOf w))
  | 0x53 => some (.vaic (laOf w))
  | 0x54 => some (.vaif (laOf w))
  | 0x60 => shuffleOf w
  | 0x61 => voteOf w
  | 0x62 => redOf w
  | 0x63 => scanOf w
  | 0x64 => matchOf w
  | 0x70 => some (.vld (lmOf w))
  | 0x71 => some (.vst (lmOf w))
  | 0x72 => some (.vstnb (lmOf w))
  | 0x73 => some (.vldt (lmOf w))
  | 0x74 => some (.vldb (lmOf w))
  | 0x75 => some (.vstb (lmOf w))
  | 0x76 => some (.vldf (lmOf w))
  | 0x77 => some (.vldfk (lmOf w))
  | 0x78 => some (.vste (lmOf w))
  | 0x79 => some (.vstf (lmOf w))
  | 0x7A => fecOf w
  | 0x7C => atomOf w
  | 0x7D => redmOf w
  | 0x7E => some (.vrld (lmOf w))
  | 0x7F => optOf w
  | 0x90 => vlalOf w
  | 0x91 => some (.vlkp (laOf w))
  | 0xA0 => some (.mma (ltOf w))
  | 0xA1 => some (.mmas (ltOf w))
  | 0xA2 => some (.mperm (ltOf w))
  | 0xA3 => some (.mzero (ltOf w))
  | 0xA4 => some (.mlda (ltOf w))
  | 0xA5 => some (.msta (ltOf w))
  | 0xA6 => mcpyOf w
  | 0xB0 => some (.vrand (laOf w))
  | _ => none

/-- Accept a selected scalar instruction: every bit that its fields do not hold is the encoding's own (R55), and it is
well-formed. -/
def accept (w : Nat) : Option Instr → Except Reject Instr
  | none => .error .unassigned
  | some i =>
    if encodeScalar i ≠ some w then .error .reserved
    else if i.wf then .ok i else .error .field

/-- Decode a scalar word. -/
def decodeScalar (w : Nat) : Except Reject Instr := accept w (scalarOf w)

/-- The six VREDM operations that `Instr` lists last among the lane instructions. -/
inductive LateReduce where
  | max | and | or | xor | fadd | aiadd
  deriving DecidableEq, Repr

/-- A lane instruction as the machine reads it. -/
inductive LaneWord where
  | instr (i : Instr)
  | reduce (k : LateReduce) (f : LM)
  deriving DecidableEq, Repr

/-- The instruction that is read. -/
noncomputable def LaneWord.toInstr : LaneWord → Instr
  | .instr i => i
  | .reduce .max f => .vredmMax f
  | .reduce .and f => .vredmAnd f
  | .reduce .or f => .vredmOr f
  | .reduce .xor f => .vredmXor f
  | .reduce .fadd f => .vredmFadd f
  | .reduce .aiadd f => .vredmAiadd f

/-- Its 96 bits. -/
def LaneWord.code : LaneWord → Option Nat
  | .instr i => encodeLane i
  | .reduce _ f => some (withOp 0x7D (encodeLM f))

/-- Its fields obey the rules of its format. -/
def LaneWord.ok : LaneWord → Bool
  | .instr i => i.wf
  | .reduce .max f => (reduceForm f 2 [0, 1, 2, 3]).ok
  | .reduce .and f => (reduceForm f 3 [0, 1, 2, 3]).ok
  | .reduce .or f => (reduceForm f 4 [0, 1, 2, 3]).ok
  | .reduce .xor f => (reduceForm f 5 [0, 1, 2, 3]).ok
  | .reduce .fadd f => (reduceForm f 8 [4]).ok
  | .reduce .aiadd f => (reduceForm f 9 [2]).ok

/-- The six late operations by sub (R52). -/
def lateOf (w : Nat) : Option LaneWord :=
  match w / 2 ^ 35 % 32 with
  | 2 => some (.reduce .max (lmOf w))
  | 3 => some (.reduce .and (lmOf w))
  | 4 => some (.reduce .or (lmOf w))
  | 5 => some (.reduce .xor (lmOf w))
  | 8 => some (.reduce .fadd (lmOf w))
  | 9 => some (.reduce .aiadd (lmOf w))
  | _ => none

/-- The lane instruction that 96 bits select, with its fields. -/
def laneWordOf (w : Nat) : Option LaneWord :=
  match laneOf w with
  | some i => some (.instr i)
  | none => if w / 2 ^ 88 = 0x7D then lateOf w else none

/-- Read the 96 bits of a lane instruction, accepting as `accept` does. -/
def readLane (w : Nat) : Except Reject LaneWord :=
  match laneWordOf w with
  | none => .error .unassigned
  | some x => if x.code ≠ some w then .error .reserved else if x.ok then .ok x else .error .field

/-- Decode the 96 bits of a lane instruction. -/
noncomputable def decodeLane (w : Nat) : Except Reject Instr :=
  match readLane w with
  | .ok x => .ok x.toInstr
  | .error e => .error e

/-- Decode the bytes at a program counter of the scalar (`lane` false) or the lane stream. -/
noncomputable def decodeBytes (lane : Bool) (bs : List Byte) : Except Reject Instr :=
  if bs.length ≠ (if lane then 12 else 4) then .error .length
  else if lane then decodeLane (leNat bs) else decodeScalar (leNat bs)

/-- What the decoder reads from an instruction whose bits are `w`, numbered from the first word's least significant bit;
rows of up to 32 bits are scalar, longer ones lane instructions. -/
noncomputable def decodeTableWord (nbits w : Nat) : Option Instr :=
  let lane := decide (32 < nbits)
  match decodeBytes lane (leBytes (if lane then 12 else 4) w) with
  | .ok i => some i
  | .error _ => none

end Sys2Proof
end

