-- ==== Sys2Proof/Machine/Flits.lean ====
section
/-! DEFINITION. Flits and their CRC (R380), and what a port does with those it has to send: its replay buffer (R381). -/

namespace Sys2Proof.Config

/-- What the fabric carries of a message, where the manual does not give its layout: the bytes that its flits hold. -/
opaque packetBytes (m : Machine.Msg) : List Byte

/-- The source and the destination of the packet that the accepted flit number `n` of a port belongs to: R384 to R386 route a
packet by them, and no rule says where its flits hold them. -/
opaque packetEnds (port n : Nat) : Word × Word

/-- Codewords that FEC corrects while a flit is received: the mapping of flits onto codewords is not visible (R380). -/
opaque corrected (use : Nat) : Nat

end Sys2Proof.Config

namespace Sys2Proof.Machine

/-! ### The CRC -/

/-- One bit of the reflected CRC-32 of IEEE 802.3. -/
def crcBits : Nat → Nat → Nat
  | 0, c => c
  | n + 1, c => crcBits n (if c % 2 = 1 then c / 2 ^^^ 0xEDB88320 else c / 2)

/-- The CRC-32 of bytes. -/
def crc32 (bs : List Byte) : Nat := bs.foldl (fun c b => crcBits 8 (c ^^^ b.toNat)) 0xFFFFFFFF ^^^ 0xFFFFFFFF

/-- The bytes that a flit's CRC covers. -/
def flitBody (f : Flit) : List Byte :=
  natBytes 4 f.seq.toNat ++ natBytes 4 f.ack.toNat ++ [f.type, f.cls] ++ natBytes 2 f.gen.toNat ++ f.payload

/-- A flit whose CRC succeeds. -/
def flitGood (f : Flit) : Bool := decide (f.payload.length = 256) && decide (crc32 (flitBody f) = f.crc.toNat)

/-- A flit with its CRC. -/
def flitSealed (f : Flit) : Flit := { f with crc := BitVec.ofNat 32 (crc32 (flitBody f)) }

/-- A flit under another sequence number. -/
def flitNumbered (f : Flit) (seq ack : Word) : Flit := flitSealed { f with seq := seq, ack := ack }

/-! ### The flits of a message -/

/-- TYPE of a message's flits: 1 data, 2 collective, 3 invocation, 4 beacon, 5 control. -/
def Msg.flitType : Msg → Byte
  | .lineRequest _ _ _ | .lineReply _ _ => 1
  | .chunk _ _ | .replicaRequest _ _ _ _ _ | .replicaReply _ _ _ => 2
  | .invocation _ _ | .answer _ _ _ | .launchx _ _ => 3
  | .beacon _ _ _ _ => 4
  | _ => 5

/-- The bytes that a message's flits carry: a chunk of data carries the bytes of the buffer (R446). -/
def Msg.carried : Msg → List Byte
  | .chunk d c => if c.kind = 2 then c.data else Config.packetBytes (.chunk d c)
  | m => Config.packetBytes m

/-- GEN: the sender's generation in collective flits. -/
def Msg.flitGen (m : Msg) (gen : BitVec 16) : BitVec 16 := if m.flitType = 2 then gen else 0

/-- The flits of a message, 256 bytes each in order; the last one is filled up with zeros. They have no number yet. -/
def Msg.flits (m : Msg) (cls : Nat) (gen : BitVec 16) : List Flit :=
  (List.range (Nat.max 1 ((m.carried.length + 255) / 256))).map (fun i =>
    let bs := (m.carried.drop (256 * i)).take 256
    { seq := 0, ack := 0, type := m.flitType, cls := BitVec.ofNat 8 cls, gen := m.flitGen gen, crc := 0,
      payload := bs ++ List.replicate (256 - bs.length) 0 })

/-! ### A port -/

def State.port (s : State) (p : Nat) : Port := Sparse.get Port.down s.fabric.ports p
def State.setPort (s : State) (p : Nat) (x : Port) : State :=
  { s with fabric := { s.fabric with ports := Sparse.put s.fabric.ports p x } }

/-- FULL or HALF. -/
def Port.isUp (x : Port) : Bool := decide (x.state = 2 ∨ x.state = 3)

/-- The flits that the replay buffer of 2,048 has room for, while the port is up. -/
def Port.leaving (x : Port) : List Flit :=
  let fs := x.queue.take (if x.isUp then 2048 - x.replay.length else 0)
  (fs.zip (List.range fs.length)).map (fun e => flitNumbered e.1 (x.nextSeq + BitVec.ofNat 32 e.2) x.lastAccepted)

/-- Those flits have been sent: each stays in the replay buffer until an ACK covers it. -/
def Port.pumped (x : Port) : Port :=
  { x with nextSeq := x.nextSeq + BitVec.ofNat 32 x.leaving.length, replay := x.replay ++ x.leaving,
           queue := x.queue.drop x.leaving.length }

/-- Flits go onto a port's lanes. -/
def State.onWire (s : State) (port : Nat) (fs : List Flit) : State :=
  { s with fabric := { s.fabric with wire := s.fabric.wire ++ fs.map (fun f => (port, f)) } }

/-- A port sends what it can of the flits that wait at it; the first in an empty buffer starts the wait for its ACK. -/
def State.pump (s : State) (port : Nat) : State :=
  let x := s.port port
  (s.setPort port { x.pumped with ackAt := if x.replay.isEmpty then s.ck else x.ackAt }).onWire port x.leaving

/-- Flits to be sent on a port, behind those that wait there. -/
def State.offer (s : State) (port : Nat) (fs : List Flit) : State :=
  (s.setPort port { s.port port with queue := (s.port port).queue ++ fs }).pump port

/-- Add to what the part has sent. -/
def State.send (s : State) (m : Msg) : State := { s with fabric := { s.fabric with sent := s.fabric.sent ++ [m] } }

/-- Send a message on a port. -/
def State.sendOn (s : State) (port : Nat) (m : Msg) : State :=
  (s.send m).offer port (m.flits 0 (s.member.gen.setWidth 16))

end Sys2Proof.Machine
end

