-- ==== Sys2Proof/Machine/Devices.lean ====
section
/-! DEFINITION. Devices of a pod, the members of the domain, routes (R384 to R386, R412, R416), the messages a device sends,
and the devices that a communicator's active table names (R387, R420). -/

namespace Sys2Proof.Machine

/-! ### Device ids and the torus (R384, R385) -/

def podOf (d : Word) : Nat := d.toNat / 2 ^ 16 % 512
def slotOf (d : Word) : Nat := d.toNat % 2 ^ 13
def deviceId (pod slot : Nat) : Word := BitVec.ofNat 32 (pod * 2 ^ 16 + slot)

/-- The bits of a device id that are always zero are. -/
def deviceIdOk (d : Word) : Bool := decide (d.toNat < 2 ^ 25) && decide (d.toNat / 2 ^ 13 % 8 = 0)

/-- A powered spare: it has no position on the torus. -/
def isSpare (d : Word) : Bool := decide (4096 ≤ slotOf d)

/-- Coordinate `k` of a position: x, y, z. -/
def coord (d : Word) (k : Nat) : Nat := slotOf d / 16 ^ k % 16

/-- The neighbour position in a direction: 0 +x, 1 −x, 2 +y, 3 −y, 4 +z, 5 −z. -/
def neighbour (d : Word) (dir : Nat) : Word :=
  let k := dir / 2
  let c := coord d k
  deviceId (podOf d) (slotOf d - c * 16 ^ k + (if dir % 2 = 0 then (c + 1) % 16 else (c + 15) % 16) * 16 ^ k)

/-- The direction of the next hop from one position to another: x, then y, then z, the shorter way round. -/
def hopDir (a b : Word) : Option Nat :=
  (List.range 3).findSome? (fun k =>
    let n := (coord b k + 16 - coord a k) % 16
    if n = 0 then none else some (if n ≤ 8 then 2 * k else 2 * k + 1))

/-- The port on which a packet of a source leaves: of the two links of its direction the one that the hash names, or the
other one while that is DOWN; an uplink at the position that the pod's route table names. None while every route is DOWN. -/
def State.routeOf (s : State) (src dst : Word) (cls : Nat) : Option Nat :=
  let me := s.member.devId
  let h := popNat 32 (src.toNat ^^^ dst.toNat ^^^ cls) % 2
  let up (p : Nat) : Bool := decide ((s.port p).state ≠ 0)
  let uplink := [12, 13, 14, 15].find? up
  let inside := decide (podOf dst = podOf me) && !isSpare dst
  let goal := if inside then dst else deviceId (podOf me) ((Sparse.get 0 s.fabric.routes (podOf dst)).toNat % 4096)
  if isSpare me then uplink
  else
    match hopDir me goal with
    | some d => [2 * d + h, 2 * d + 1 - h].find? up
    | none => if inside then none else uplink

/-- The port on which a packet of this device leaves. -/
def State.route (s : State) (dst : Word) (cls : Nat) : Option Nat := s.routeOf s.member.devId dst cls

/-! ### Sending -/

/-- Two packets that keep their order: of one source, destination and CLASS. -/
def FabricPacket.flowOf (a b : FabricPacket) : Bool := decide (a.src = b.src) && decide (a.dst = b.dst) && decide (a.cls = b.cls)

/-- A packet leaves on its route; while every route is DOWN, or an earlier one of its flow is held, it is held (R386). -/
def State.sendPacket (s : State) (p : FabricPacket) : State :=
  match (if s.fabric.waiting.any p.flowOf then none else s.routeOf p.src p.dst p.cls) with
  | some port =>
    (match p.msg with
      | some m => s.send m
      | none => s).offer port p.flits
  | none => { s with fabric := { s.fabric with waiting := s.fabric.waiting ++ [p] } }

/-- Send a message toward a device. -/
def State.sendTo (s : State) (dst : Word) (cls : Nat) (m : Msg) : State :=
  s.sendPacket { src := s.member.devId, dst := dst, cls := cls, msg := some m, flits := m.flits cls (s.member.gen.setWidth 16) }

/-- The packets that were held for want of a route are sent, in order, where one exists now. -/
def State.flushHeld (s : State) : State :=
  s.fabric.waiting.foldl State.sendPacket { s with fabric := { s.fabric with waiting := [] } }

/-! ### Members (R412, R416, R418) -/

/-- The membership engine is on. -/
def Member.on (m : Member) : Bool := m.flags % 2 == 1

/-- A pod of the domain: the device's own, and those that the membership block joins to it. -/
def Member.inDomain (m : Member) (pod : Nat) : Bool :=
  decide (pod = podOf m.devId) || (Sparse.get 0 m.pods (pod / 8)).getLsbD (pod % 8)

/-- A device that is a member of the current generation, as this device knows it. -/
def Member.isMember (m : Member) (d : Word) : Bool :=
  decide (d = m.devId) || (deviceIdOk d && !isSpare d && m.inDomain (podOf d) && !m.vacant.contains d)

/-! ### Communicators (R387, R420) -/

def State.comm (s : State) (c : Nat) : Comm := Sparse.get Comm.off s.coll.comms c
def State.setComm (s : State) (c : Nat) (x : Comm) : State :=
  { s with coll := { s.coll with comms := Sparse.put s.coll.comms c x } }

/-- Enabled. -/
def Comm.on (x : Comm) : Bool := x.flags % 2 == 1
def Comm.stale (x : Comm) : Bool := x.flags / 2 % 2 == 1
def Comm.setStale (x : Comm) (b : Bool) : Comm := { x with flags := x.flags % 2 + (if b then 2 else 0) }

/-- The device ids that a rank table lists: its ranks in order, then its listeners. -/
def State.tableIds (s : State) (t : RankTable) : List Word :=
  (List.range (t.p + t.nlist)).map (fun i => BitVec.ofNat 32 (bytesNat (s.devBytes (t.base + 4 * i) 4)))

/-- The member devices of a communicator, by rank. -/
def State.rankIds (s : State) (c : Nat) : List Word :=
  match (s.comm c).active with
  | some t => (s.tableIds t).take t.p
  | none => []

end Sys2Proof.Machine
end

