-- ==== Sys2Proof/Machine/Ops.lean ====
section
/-! DEFINITION. The named operations over a group's registers, its path slots and its counters (R19 to R25, R100, R109 to
R111, R166 to R169), the fault queue (R343), the termination of a context (R342), and taking a trap and returning from one
(R334 to R340). -/

namespace Sys2Proof.Machine

/-- What executing an instruction answers. -/
abbrev Res := Host.Outcome State Fault Refusal

/-! ### Registers of a group (R22) -/

/-- s0 reads zero. -/
def Group.rs (x : Group) (r : Nat) : Word := if r = 0 then 0 else Sparse.get 0 x.s r
/-- A write to s0 is discarded. -/
def Group.ws (x : Group) (r : Nat) (v : Word) : Group := if r = 0 then x else { x with s := Sparse.set 0 x.s r v }
/-- A pair: low word in the even register. -/
def Group.rs64 (x : Group) (r : Nat) : Dword := (x.rs (r + 1)) ++ (x.rs r)
def Group.ws64 (x : Group) (r : Nat) (v : Dword) : Group := (x.ws r (v.extractLsb' 0 32)).ws (r + 1) (v.extractLsb' 32 32)
/-- A quad of words, low word first. -/
def Group.rs128 (x : Group) (r : Nat) : BitVec 128 := (x.rs (r + 3)) ++ (x.rs (r + 2)) ++ (x.rs (r + 1)) ++ (x.rs r)
def Group.ws128 (x : Group) (r : Nat) (v : BitVec 128) : Group :=
  (List.range 4).foldl (fun x i => x.ws (r + i) (v.extractLsb' (32 * i) 32)) x

def Group.rk (x : Group) (k : Nat) : Word := Sparse.get 0 x.k k
def Group.wk (x : Group) (k : Nat) (v : Word) : Group := { x with k := Sparse.set 0 x.k k v }
def Group.rb (x : Group) (b : Nat) : BitVec 128 := Sparse.get 0 x.b b
def Group.wb (x : Group) (b : Nat) (v : BitVec 128) : Group := { x with b := Sparse.set 0 x.b b v }
def Group.rfmt (x : Group) (f : Nat) : Word := Sparse.get 0 x.fmt f

/-- One lane of a vector register; a lane of an exited lane reads as it stands (R182 gives the exceptions). -/
def Group.rv (x : Group) (r l : Nat) : Word := Sparse.get 0 x.v (32 * r + l)
def Group.wv (x : Group) (r l : Nat) (v : Word) : Group := { x with v := Sparse.set 0 x.v (32 * r + l) v }
/-- A lane's value of a pair. -/
def Group.rv64 (x : Group) (r l : Nat) : Dword := (x.rv (r + 1) l) ++ (x.rv r l)

/-! ### The issuing slot -/

def Group.slot (x : Group) (b : Bool) : Slot := if b then x.slotB else x.slotA
def Group.setSlot (x : Group) (b : Bool) (y : Slot) : Group := if b then { x with slotB := y } else { x with slotA := y }

/-- The issuing group and its path slot. -/
def State.me (s : State) : Group := s.group s.cur.g
def State.sl (s : State) : Slot := s.me.slot s.cur.slotB
def State.setMe (s : State) (x : Group) : State := s.setGroup s.cur.g x
def State.setSl (s : State) (y : Slot) : State := s.setMe (s.me.setSlot s.cur.slotB y)

/-- Low 32 bits. -/
def low32 (a : Dword) : Word := a.extractLsb' 0 32
/-- An address with the upper 32 bits of another. -/
def withHigh (hi : Dword) (lo : Word) : Dword := (hi.extractLsb' 32 32) ++ lo

/-- The full addresses ls and le of a level (R109). -/
def LoopLevel.first (lv : LoopLevel) : Dword := lv.high ++ lv.start
def LoopLevel.last (lv : LoopLevel) : Dword := lv.high ++ lv.stop

/-- End processing of the loop levels below `n` at an address (R110): the depth, the levels and the next pc. -/
def endLoops (a : Dword) (next : Dword) : Nat → List LoopLevel → Nat × List LoopLevel × Dword
  | 0, ls => (0, ls, next)
  | n + 1, ls =>
    let lv := ls.getD n LoopLevel.zero
    if low32 a = lv.stop then
      let c := lv.count - 1
      let ls := ls.set n { lv with count := c }
      if c ≠ 0 then (n + 1, ls, lv.first) else endLoops a next n ls
    else (n + 1, ls, next)

/-- The slot after an instruction at its pc that made no control transfer (R110). -/
def Slot.advance (y : Slot) : Slot :=
  let r := endLoops y.pc (y.pc + 4) y.depth y.loops
  { y with depth := r.1, loops := r.2.1, pc := r.2.2, wait := .none }

/-- An address lies in the body of a level. -/
def LoopLevel.holds (lv : LoopLevel) (a : Dword) : Bool :=
  decide (lv.first.toNat ≤ a.toNat) && decide (a.toNat ≤ lv.last.toNat)

/-- The depth after a taken transfer from `a` to `t` (R111): the lowest level whose body holds `a` and not `t`. -/
def closedDepth (a t : Dword) (ls : List LoopLevel) (depth : Nat) : Nat :=
  match (List.range depth).find? (fun n =>
    (ls.getD n LoopLevel.zero).holds a && !(ls.getD n LoopLevel.zero).holds t) with
  | some n => n
  | none => depth

/-- The slot after a taken branch, jump or return (R111). -/
def Slot.goto (y : Slot) (t : Dword) : Slot :=
  { y with depth := closedDepth y.pc t y.loops y.depth, pc := t, wait := .none }

/-- The slot after a call (R111): no level closes. -/
def Slot.callTo (y : Slot) (t : Dword) : Slot := { y with pc := t, wait := .none }

/-- The issuing slot goes on to the next instruction. -/
def State.advance (s : State) : State := s.setSl s.sl.advance
/-- The instruction completes. -/
def retire (s : State) : Res := .next s.advance
/-- The instruction waits: it has no effect now and issues again. -/
def stall (s : State) : Res := .next s
/-- The instruction has begun to wait in a way that the machine remembers. -/
def stallAs (w : SlotWait) (s : State) : Res := .next (s.setSl { s.sl with wait := w })

/-! ### Counters (R19) and pending registers (R100, R119, R158) -/

/-- Results of the block's MSTA instructions still to be written (R301). -/
def Core.blockBusy (c : Core) (g : Nat) (b : Block) : Bool :=
  c.engine.any (fun e => e.g == g && e.block == b.seq && (match e.instr with | .msta _ => true | _ => false))

def State.coreOfGroup (s : State) (g : Nat) : Core := s.core (coreOf g)

/-- Blocks enqueued and not complete; in a handler, only the handler's own (R338). -/
def State.blockCount (s : State) (g : Nat) : Nat :=
  let x := s.group g
  let mine (b : Block) : Bool := b.trap || !x.csr.tcause.getLsbD 15
  (x.blocks.filter mine).length
    + (x.draining.filter (fun b => mine b && (s.coreOfGroup g).blockBusy g b)).length

/-- A VLAL that waits for credit (R275), among the instructions of `Group.storesOther`. -/
def lineWaits (e : Nat × Nat × Nat) : Bool := e.2.2 == 0

def Group.loadCount (x : Group) : Nat := x.loads.length + (x.storesOther.filter lineWaits).length
def Group.storeCount (x : Group) : Nat := x.stores.length + x.feStores.length + x.storesOther.length
def Group.batchCount (x : Group) : Nat := x.inFlight.length

/-- The limits of WAITC hold (R20). -/
def State.countsWithin (s : State) (g : Nat) (b l st c t : Nat) : Bool :=
  let x := s.group g
  (decide (b = 15) || decide (s.blockCount g ≤ b)) && (decide (l = 15) || decide (x.loadCount ≤ l))
    && (decide (st = 15) || decide (x.storeCount ≤ st)) && (decide (c = 15) || decide (x.copies ≤ c))
    && (decide (t = 15) || decide (x.batchCount ≤ t))

/-- All five counts are 0. -/
def State.countsZero (s : State) (g : Nat) : Bool := s.countsWithin g 0 0 0 0 0

/-- Every lane block that a slot's part enqueued has completed (R169). -/
def State.ownBlocksDone (s : State) (g : Nat) (slotB : Bool) : Bool :=
  let x := s.group g
  !x.blocks.any (fun b => b.slotB == slotB)
    && !x.draining.any (fun b => b.slotB == slotB && (s.coreOfGroup g).blockBusy g b)

/-- Scalar registers that an outstanding SLD of the slot still writes (R100); s0 is never awaited. -/
def Group.pendingS (x : Group) (slotB : Bool) (rs : List Nat) : Bool :=
  x.loads.any (fun e => e.slotB == slotB && (match e.kind with
    | .scalar rd n => rs.any (fun r => r != 0 && decide (rd ≤ r) && decide (r < rd + n / 4))
    | _ => false))

/-- Record registers that an outstanding BRLD still writes (R119). -/
def Group.pendingB (x : Group) (bs : List Nat) : Bool :=
  x.loads.any (fun e => match e.kind with
    | .record bd => bs.contains bd
    | _ => false)

/-- The vector registers a load writes. -/
def LoadKind.vregs : LoadKind → List (Nat × Nat)
  | .lanes vd n => [(vd, (n + 3) / 4)]
  | .column vd _ => [(vd, 1)]
  | .blocks vd comp _ _ _ => [(vd, 1), (comp, 1)]
  | .scalar _ _ => []
  | .record _ => []
  | .atomic vd _ ty _ _ _ _ _ => [(vd, wideOf ty)]
  | .fullEmpty vd _ _ => [(vd, 1)]
  | .replica vd wide _ _ _ => [(vd, if wide then 2 else 1)]
  | .opt _ _ _ _ _ _ => []

/-- Two runs of registers meet. -/
def runsMeet (a b : Nat × Nat) : Bool := decide (a.1 < b.1 + b.2) && decide (b.1 < a.1 + a.2)

/-- Vector registers that an outstanding load or MSTA still writes (R158, R301). -/
def State.pendingV (s : State) (g : Nat) (rs : List (Nat × Nat)) : Bool :=
  (s.group g).loads.any (fun e => e.kind.vregs.any (fun a => rs.any (runsMeet a)))
    || (s.coreOfGroup g).engine.any (fun e => e.g == g && (match e.instr with
        | .msta f => rs.any (runsMeet (f.a.toNat, 8))
        | _ => false))

/-- Vector registers that a matrix instruction holds read-locked (R307). -/
def Group.lockedV (x : Group) (rs : List (Nat × Nat)) : Bool :=
  x.locks.any (fun e => e.2.2.any (fun r => rs.any (runsMeet (r, 1))))

/-- The next number of the group's blocks and accesses, in issue order. -/
def Group.bump (x : Group) : Group := { x with seq := x.seq + 1 }

/-- A group is convergent (R181): one part whose XM is all lanes, and no continuation. -/
def State.convergent (s : State) : Bool := decide (s.sl.xm = fullMask) && s.me.conts.isEmpty

/-- The group runs a user trap handler (R338). -/
def Group.inHandler (x : Group) : Bool := x.csr.tcause.getLsbD 15

/-- The block whose next lane instruction issues next (R16): the head of the queue, in a handler the first of the trap
entries (R338). While a lane trap waits for its delivery, none (R336). -/
def Group.headBlock (x : Group) : Option Block :=
  if x.inHandler then x.blocks.find? (·.trap) else if x.heldLane || !x.pending.isEmpty then none else x.blocks.head?

/-- The lane pc of a block's next instruction (R12). -/
def Group.lanePc (x : Group) (b : Block) : Dword := x.ident.lcb + BitVec.ofNat 64 b.next

/-- Free values used so far, and one more. -/
def State.useFree (s : State) : State := { s with free := s.free + 1 }

/-! ### The device fault queue (R343) -/

/-- FQBASE and FQLOG are valid. -/
def Ras.fqOk (r : Ras) : Bool :=
  decide (r.fqBase ≠ 0) && decide (r.fqBase % 4096 = 0) && decide (6 ≤ r.fqLog) && decide (r.fqLog ≤ 16)

/-- The ring is full. -/
def Ras.fqFull (r : Ras) : Bool := decide ((r.fqTail - r.fqHead).toNat = 2 ^ r.fqLog)

/-- A store by the part itself that is performed at system scope: it reaches the memory controller (R249, R363). -/
def State.storeSystem (s : State) (pa : Nat) (bs : List Byte) (ctx : Nat) : State :=
  if (span pa bs.length).all s.mapped then
    (distinct ((span pa bs.length).map (· / 1024))).foldl State.cleanSector (s.storeDevAt pa bs ctx 0)
  else s

/-- Write one held record with its SEQ, and advance FQTAIL. MSI-X vector 0 is raised, vector 1 as well for a KIND 2 record
(R437), and the management controller gets a copy (R443). -/
def State.fqWrite (s : State) (r : List Byte) : State :=
  let bs := natBytes 8 s.ras.nextSeq ++ r
  let s := s.storeSystem (s.ras.fqBase + 64 * (s.ras.fqTail.toNat % 2 ^ s.ras.fqLog)) bs 0
  let s := { s with ras := { s.ras with fqTail := s.ras.fqTail + 1, nextSeq := s.ras.nextSeq + 1 } }
  let s := (s.send (.mctpRecord bs)).send (.msix 0)
  if bs.getD 16 0 = 2 then s.send (.msix 1) else s

/-- Write the records held back, in order, while the configuration is valid and the ring has room. -/
def fqFlush : List (List Byte) → State → State
  | [], s => { s with ras := { s.ras with held := [] } }
  | r :: rest, s =>
    if s.ras.fqOk && !s.ras.fqFull then fqFlush rest (s.fqWrite r)
    else { s with ras := { s.ras with held := r :: rest } }

/-- Append a record (without its SEQ) to the fault queue. -/
def State.fqAppend (s : State) (r : List Byte) : State := fqFlush (s.ras.held ++ [r]) s

/-- LOC of a core unit (R343): die, mesh row, mesh column, group entry and slot. -/
def locCode (g : Nat) (slotB : Bool) : Nat :=
  let h := hclOf g % 12
  let p := coreOf g % 12
  (hclOf g / 12) * 2 ^ 14 + (3 * (h / 3) + p / 4) * 2 ^ 10 + (4 * (h % 3) + p % 4) * 2 ^ 6 + (g % 32) * 2
    + (if slotB then 1 else 0)

/-- The bytes of a KIND 1 or KIND 2 record after SEQ (R343). -/
def faultRecord (time kind cause reason flags ctx loc ticket : Nat) (mask tspc tlpc w0 w1 w2 : Word) (id addr : Nat) :
    List Byte :=
  natBytes 8 time ++ [BitVec.ofNat 8 kind, BitVec.ofNat 8 cause, BitVec.ofNat 8 reason, BitVec.ofNat 8 flags]
    ++ natBytes 2 ctx ++ natBytes 2 loc ++ natBytes 4 ticket ++ natBytes 4 mask.toNat ++ natBytes 4 tspc.toNat
    ++ natBytes 4 tlpc.toNat ++ natBytes 4 w0.toNat ++ natBytes 4 w1.toNat ++ natBytes 4 w2.toNat ++ natBytes 4 id
    ++ natBytes 8 addr

/-- ck since the last cold start. -/
def State.sinceCold (s : State) : Nat := s.ck - s.boot.coldAt

/-- What `n` cycles of the arithmetic clock last on the time base (R2, R444), in whole ck. -/
def State.arithTime (s : State) (n : Nat) : Nat := n * 2000 / s.boot.clock

/-- The IEEE 1588 time (R443), as seconds and nanoseconds: two ck are a nanosecond. -/
def State.ptpNow (s : State) : Nat × Nat :=
  let n := s.boot.ptpNanos + (s.ck - s.boot.ptpAt) / 2
  (s.boot.ptpSeconds + n / 1000000000, n % 1000000000)

/-- Append an error record of KIND 3 (R367). -/
def State.logError (s : State) (unit cls flags ctx loc synd pa : Nat) : State :=
  let t := s.ptpNow
  s.fqAppend (natBytes 8 s.sinceCold
    ++ [BitVec.ofNat 8 3, BitVec.ofNat 8 unit, BitVec.ofNat 8 cls, BitVec.ofNat 8 flags]
    ++ natBytes 2 ctx ++ natBytes 2 loc ++ natBytes 4 synd ++ natBytes 4 (Sparse.get 0 s.ras.corrected unit)
    ++ natBytes 8 pa ++ natBytes 6 t.1 ++ natBytes 4 t.2 ++ natBytes 14 0)

/-! ### Terminating a context (R342) -/

/-- Every lane of a queued store has its place. -/
def StoreKind.placed : StoreKind → Bool
  | .bytes ws => ws.all (fun w => w.loc.isSome)
  | .discard _ _ => true
  | .reduce _ _ _ ls => ls.all (fun l => l.1.loc.isSome)

/-- A group entry whose group ended: what its store queue had accepted is still to be made; its scalar registers and CSRs
stand until another group starts there. -/
def Group.dead (x : Group) : Group :=
  { Group.vacant with stores := x.stores, s := x.s, csr := x.csr, ident := { Ident.vacant with ctx := x.ident.ctx, team := x.ident.team },
                      seq := x.seq, dirtySectors := x.dirtySectors, posted := x.posted }

/-- A group entry whose context was terminated (R342): the accepted stores are still made; one that a page fault holds is
lost with the fault (assumption 72). -/
def Group.killed (x : Group) : Group :=
  { x.dead with stores := x.stores.filter (fun e => e.kind.placed) }

/-- The flame becomes free: the accumulator store's contents become undefined (R288, R291). -/
def Core.freeFlame (c : Core) : Core := { c with flame := none, acc := [], accEpoch := c.accEpoch + 1 }

/-- The flame is held by one of the groups that `gone` tells. -/
def Core.flameOf (c : Core) (gone : Nat → Bool) : Bool :=
  match c.flame with
  | some g => gone g
  | none => false

/-- A core after a context ended: its side-log entries, waiting lanes and queued matrix instructions are gone, and a flame
held by one of its groups is free (R291, R310). `gone` tells the ended groups. -/
def Core.endContext (c : Core) (ctx : Nat) (gone : Nat → Bool) : Core :=
  let c := { c with
    sideLog := c.sideLog.filter (fun e => e.ctx != ctx),
    waiters := c.waiters.filter (fun w => !gone w.g),
    takers := c.takers.filter (fun g => !gone g),
    engine := c.engine.filter (fun e => !gone e.g) }
  if c.flameOf gone then c.freeFlame else c

/-- A launch ended by termination: it completes with TERM, with nothing left to hand over or retire. A launch that was
refused keeps its status. -/
def Launch.terminated (l : Launch) (cause : Nat) : Launch :=
  let n := l.record.gx * l.record.gy * l.record.gz
  if l.status.isSome then l
  else { l with status := some (0x0100 + cause), checked := true, nextCluster := n, retired := n, gates := [] }

/-- A reservation holds what is freed on its cores (R201): `res` 0 to 3 is an entry of that scheduler, 4 bytes of the
register region. -/
def TaskItem.hold (core res n : Nat) (t : TaskItem) : TaskItem :=
  let one (e : Nat × Nat × Nat) : Nat × Nat × Nat := if e.1 = core ∧ e.2.1 = res then (e.1, e.2.1, e.2.2 + n) else e
  if t.reserved then { t with held := t.held.map one } else t

/-- What is used on its cores by an item that the reservation does not hold back is taken from what it holds first: nothing is
held twice. -/
def TaskItem.unhold (core res n : Nat) (t : TaskItem) : TaskItem :=
  let one (e : Nat × Nat × Nat) : Nat × Nat × Nat := if e.1 = core ∧ e.2.1 = res then (e.1, e.2.1, e.2.2 - n) else e
  { t with held := t.held.map one }

/-- Something is freed on a core: the reservations that cover it hold it. -/
def State.holdFor (s : State) (core res n : Nat) : State :=
  { s with hcls := s.hcls.map (fun e => (e.1, { e.2 with tasks := e.2.tasks.map (TaskItem.hold core res n) })) }

/-- Bytes of the register region that a team takes (R195, R354). -/
def Launch.regBytes (l : Launch) : Nat :=
  l.record.team * l.hdr.budget * 1024 * (if l.record.flags / 2 % 2 = 1 ∨ l.hdr.flags / 2 % 2 = 1 then 2 else 1)

/-- What a terminated context frees is held for the reservations (R201): entries and registers of its running phases. -/
def State.holdEnded (s : State) (ctx : Nat) : State :=
  let s := (s.groups.filter (fun e => (e.2.resident || e.2.ident.isShade) && e.2.ident.ctx == ctx)).foldl
    (fun s e => s.holdFor (coreOf e.1) (e.1 % 32 / 8) 1) s
  (s.sched.launches.filter (fun l => l.ctx == ctx)).foldl (fun s l =>
    ((s.sched.clusters.filter (fun c => c.ticket == l.ticket && !c.unplaced)).flatMap (·.teams)).foldl (fun s t =>
      if t.stage == .running then s.holdFor t.core 4 l.regBytes else s) s) s

/-- A pending entry of one of the ended groups: its VLAL is gone. -/
def DirEntry.pendingOf (e : DirEntry) (gone : Nat → Bool) : Bool :=
  match e.pending with
  | some p => (p.g.map gone).getD false
  | none => false

/-- A group number of an ended group is forgotten. -/
def keepLive (gone : Nat → Bool) (g : Option Nat) : Option Nat := g.filter (fun n => !gone n)

/-- A hardware core cluster after a context ended: its queued items are gone; its copy commands run on (R342). -/
def Hcl.endContext (h : Hcl) (mine gone : Nat → Bool) : Hcl :=
  { h with tasks := h.tasks.filter (fun t => !mine t.ticket),
           copyQueue := h.copyQueue.map (fun c => { c with g := keepLive gone c.g }) }

/-- A die's graphs run on. -/
def Die.endContext (d : Die) (gone : Nat → Bool) : Die :=
  { d with graphs := d.graphs.map (fun x => { x with g := keepLive gone x.g }) }

/-- A request of a LAUNCHX operation (R410): 0 reserve, 1 commit, 2 abort, with this device's generation. -/
def State.launchxReq (s : State) (op : Nat) (ticket : Word) (record : List Byte) : LaunchxReq :=
  { op := op, src := s.member.devId, ticket := ticket, gen := s.member.gen, record := record }

/-- Change one of the four invocation queues. -/
def Inv.onQueue (v : Inv) (p : Nat) (f : List InvItem → List InvItem) : Inv :=
  match p with
  | 0 => { v with queue0 := f v.queue0 }
  | 1 => { v with queue1 := f v.queue1 }
  | 2 => { v with queue2 := f v.queue2 }
  | _ => { v with queue3 := f v.queue3 }

/-- The TICKET field of an invocation record (R399). -/
def recTicket (r : List Byte) : Nat := bytesNat ((r.drop 4).take 4)

/-- An entry that a reservation of a device holds. -/
def InvItem.heldBy (src : Word) (ticket : Nat) (i : InvItem) : Bool :=
  i.held && decide (i.src = src) && decide (recTicket i.record = ticket)

/-- The entry that a reservation of a device holds here is dropped. -/
def State.dropHold (s : State) (src : Word) (ticket : Nat) : State :=
  { s with inv := (List.range 4).foldl (fun v p => v.onQueue p (fun q => q.filter (fun i => !i.heldBy src ticket))) s.inv }

/-- Every entry that a reservation holds is dropped (R410). -/
def State.dropReservation (s : State) (r : Reservation) : State :=
  (distinct r.members).foldl (fun s d =>
    if d = s.member.devId then s.dropHold d r.ticket.toNat
    else s.sendTo d 0 (.launchx d (s.launchxReq 2 r.ticket r.record))) s

/-- The groups of a context end: their reservations are dropped (R410). -/
def State.dropReservations (s : State) (ctx : Nat) : State :=
  let mine := (s.groups.filter (fun e => e.2.resident && e.2.ident.ctx == ctx)).flatMap (fun e => e.2.reservations)
  let kept := (s.sched.clusters.flatMap (fun c => c.teams)).flatMap (fun t =>
    (t.records.filter (fun r => r.group.ident.ctx == ctx)).flatMap (fun r => r.group.reservations))
  (distinct (mine ++ kept)).foldl State.dropReservation s

/-- A group's access, not an engine's operation. -/
def Requester.isGroup : Requester → Bool
  | .stream _ _ _ => true
  | .access _ _ => true
  | _ => false

/-- The PUBLISH instructions that `gone` tells leave the queues of the windows (R265). -/
def State.leaveWindows (s : State) (gone : Nat × Bool → Bool) : State :=
  if s.host.windows.any (fun e => e.2.busy.any gone) then
    { s with host := { s.host with
        windows := s.host.windows.map (fun e => (e.1, { e.2 with busy := e.2.busy.filter (fun b => !gone b) })) } }
  else s

/-- Steps 1 to 5 of R342, and the pre-emption state TERMINATED (R349). -/
def State.endContext (s : State) (ctx cause : Nat) : State :=
  let gone (g : Nat) : Bool := (s.group g).resident && (s.group g).ident.ctx == ctx
  let mine (t : Nat) : Bool := s.sched.launches.any (fun l => l.ticket == t && l.ctx == ctx)
  { s with
    groups := s.groups.map (fun e => if (e.2.resident || e.2.ident.isShade) && e.2.ident.ctx == ctx then (e.1, e.2.killed) else e),
    cores := s.cores.map (fun e => (e.1, e.2.endContext ctx gone)),
    hcls := s.hcls.map (fun e => (e.1, e.2.endContext mine gone)),
    dies := s.dies.map (fun e => (e.1, e.2.endContext gone)),
    coll := { s.coll with flying := s.coll.flying.map (fun c => { c with g := keepLive gone c.g }) },
    host := (s.leaveWindows (fun b => gone b.1)).host,
    sched := { s.sched with
      waiting := s.sched.waiting.filter (fun e => !mine e.2.ticket),
      launches := s.sched.launches.map (fun l => if l.ctx = ctx then l.terminated cause else l),
      clusters := s.sched.clusters.filter (fun c => !mine c.ticket),
      preempt := Sparse.put s.sched.preempt ctx 3 },
    dir := { s.dir with entries := s.dir.entries.filter (fun e => !e.pendingOf gone) },
    vm := { s.vm with
      walks := s.vm.walks.filter (fun w => w.first.ctx != ctx || w.others.any (fun r => !r.isGroup) || !w.first.who.isGroup),
      faults := s.vm.faults.filter (fun f => f.ctx != ctx || s.vm.waiters.any (fun w => w.id == f.id && !w.who.isGroup)),
      waiters := s.vm.waiters.filter (fun w => w.ctx != ctx || !w.who.isGroup) } }

/-- A context that ends because it met poisoned or retired memory has an error record of unit 13 ahead of its termination record
(R366 to R368). The manual gives its SYND no value: a free one. -/
def State.poisonRecord (s : State) (cause reason ctx loc : Nat) : State :=
  if cause = 0x14 ∧ reason = 13 then (s.logError 13 2 16 ctx loc (Config.freeWord s.free).toNat 0).useFree else s

/-- Terminate a context, raise MSI-X vector 3 where its pre-emption state changes, and append its termination record (R342,
R343, R437). -/
def State.terminate (s : State) (ctx cause reason flags loc ticket : Nat) (mask tspc tlpc w0 w1 w2 : Word)
    (id addr : Nat) : State :=
  let r := (((s.poisonRecord cause reason ctx loc).dropReservations ctx).holdEnded ctx).endContext ctx cause
  (if Sparse.get 0 s.sched.preempt ctx = 3 then r else r.send (.msix 3)).fqAppend
    (faultRecord s.sinceCold 1 cause reason flags ctx loc ticket mask tspc tlpc w0 w1 w2 id addr)

/-- Terminate the context of group `g` by a trap. -/
def State.terminateBy (s : State) (g : Nat) (t : Trap) : State :=
  let x := s.group g
  s.terminate x.ident.ctx t.cause t.reason (if x.inHandler then 1 else 0) (locCode g t.site.slotB) x.ident.team.ticket
    t.mask (low32 t.site.pc) (low32 t.site.lanePc) t.site.w0 t.site.w1 t.site.w2 t.code t.addr

/-! ### Traps (R334 to R340) -/

def causeIllegal : Nat := 0x01
def causeIllfmt : Nat := 0x02
def causeIllconv : Nat := 0x03
def causeFlame : Nat := 0x04
def causeBounds : Nat := 0x05
def causePage : Nat := 0x06
def causeRangelock : Nat := 0x07
def causeFpx : Nat := 0x08
def causeTable : Nat := 0x09
def causeBudget : Nat := 0x0A
def causeFetmo : Nat := 0x0B
def causeJoinovf : Nat := 0x0C
def causeBlkfmt : Nat := 0x0D
def causeStbp : Nat := 0x0E
def causeInvoke : Nat := 0x0F
def causeMember : Nat := 0x10
def causeDeterm : Nat := 0x11
def causeSwtrap : Nat := 0x12
def causeBrk : Nat := 0x13
def causeUncorr : Nat := 0x14
def causeAlign : Nat := 0x15
def causePreempt : Nat := 0x16

/-- The causes a user handler can take (R334); BOUNDS when TCTL.BNDU is 1. -/
def userHandleable (c : Nat) (tctl : Word) : Bool :=
  [causeFpx, causeStbp, causeInvoke, causeMember, causeSwtrap, causeBrk].contains c
    || (decide (c = causeBounds) && tctl.getLsbD 0)

/-- A trap of this group goes to its handler (R336). -/
def Group.handles (x : Group) (c : Nat) : Bool :=
  userHandleable c x.csr.tctl && decide (x.csr.utvec.toNat / 4 ≠ 0) && !x.inHandler

/-- Leave the queues that a waiting slot had joined (R336): the takers of the flame, the team's claimants, and the PUBLISH
instructions of a window. -/
def State.leaveQueues (s : State) (g : Nat) (slotB : Bool) (w : SlotWait) : State :=
  match w with
  | .fence _ => s.leaveWindows (· == (g, slotB))
  | .flame =>
    let c := s.coreOfGroup g
    s.setCore (coreOf g) { c with takers := c.takers.filter (· != g) }
  | .claim =>
    let drop (t : Team) : Team := { t with claimants := t.claimants.filter (· != g) }
    { s with sched := { s.sched with
        clusters := s.sched.clusters.map (fun c => { c with teams := c.teams.map drop }) } }
  | _ => s

/-- The trap CSRs at delivery (R336, R337). -/
def Csrs.deliver (c : Csrs) (t : Trap) (resume : Dword) (xm : Word) : Csrs :=
  { c with
    tcause := BitVec.ofNat 32 (t.code % 2 ^ 16 * 2 ^ 16 + 2 ^ 15 + (if t.site.lane then 2 ^ 14 else 0) + t.cause),
    tlmask := t.mask, tspc := low32 t.site.pc, tlpc := low32 t.site.lanePc,
    tiw0 := t.site.w0, tiw1 := t.site.w1, tiw2 := t.site.w2, trpc := low32 resume, txm := xm }

/-- A wait that goes on after the return: the instruction has done what it does once (R265, R315, R421). -/
def SlotWait.lasts : SlotWait → Bool
  | .command _ | .publish _ | .swap _ => true
  | _ => false

/-- The group at delivery: the handler runs in the trapping slot; the lane stream is held, the other slot paused. What the
held lane instruction had waited for credit is forgotten (R347). The paused slot's SLEEP runs on (assumption 137). -/
def Group.enter (x : Group) (t : Trap) (resume : Dword) : Group :=
  let y := x.slot t.site.slotB
  let handler : Dword := x.ident.scalarEntry + BitVec.ofNat 64 (x.csr.utvec.toNat / 4 * 4)
  let x := { x with csr := x.csr.deliver t resume y.xm, heldLane := true, handlerDepth := y.depth,
                    handlerSlotB := t.site.slotB, handlerSeq := x.seq, laneWait := Option.none,
                    heldWait := if y.wait.lasts then y.wait else .none }
  x.setSlot t.site.slotB { y with pc := handler, xm := y.lanes, sleep := Option.none, wait := .none }

/-- What instructions of the group that have not issued met at their pages is forgotten: an interrupted one walks again. -/
def State.dropStreamWaits (s : State) (g : Nat) : State :=
  let mine (w : Waiter) : Bool := match w.who with
    | .stream h _ _ => h == g
    | _ => false
  if s.vm.waiters.any mine then { s with vm := { s.vm with waiters := s.vm.waiters.filter (fun w => !mine w) } } else s

/-- Take a trap in group `g` (R336): deliver it to the group's handler, or terminate the context. `resume` is where TRET
continues the slot. -/
def State.takeTrap (s : State) (g : Nat) (t : Trap) (resume : Dword) : State :=
  let x := s.group g
  if x.handles t.cause then
    ((s.leaveQueues g t.site.slotB (x.slot t.site.slotB).wait).dropStreamWaits g).setGroup g (x.enter t resume)
  else s.terminateBy g t

/-- The group without what instructions of a stream after access `id` would still do to memory (R335). -/
def Group.cutAfter (x : Group) (id : Nat) (lane : Bool) : Group :=
  { x with stores := x.stores.filter (fun e => !(decide (id < e.id) && e.lane == lane)),
           feStores := x.feStores.filter (fun e => !(decide (id < e.id) && lane)) }

/-- Take a trap that access `id` of group `g` raises after it has issued. One issued before the delivery of a handler that
runs is held pending: a lane trap in the handler of a scalar trap (R336), a scalar trap of the other slot (R340). -/
def State.takeLate (s : State) (g id : Nat) (t : Trap) (resume : Dword) : State :=
  let x := s.group g
  let held := if t.site.lane then !x.csr.tcause.getLsbD 14 else t.site.slotB != x.handlerSlotB
  if x.inHandler && held && decide (id < x.handlerSeq) then
    s.setGroup g { x with pending := x.pending ++ [t] }
  else if x.handles t.cause then s.takeTrap g t resume
  else (s.setGroup g (x.cutAfter id t.site.lane)).takeTrap g t resume

/-- Where a scalar instruction of the issuing slot trapped; `w` is its word. -/
def State.scalarSite (s : State) (w : Word) : TrapSite :=
  { slotB := s.cur.slotB, lane := false, pc := s.sl.pc, lanePc := 0, w0 := w, w1 := 0, w2 := 0 }

/-- A scalar instruction of the issuing slot traps with a lane mask and a code; it has no other effect (R100, R335). A
handler resumes at the next instruction (R334). -/
def State.trapWord (s : State) (w : Word) (cause : Nat) (mask : Word) (code : Nat) : State :=
  s.takeTrap s.cur.g { cause := cause, mask := mask, code := code, reason := 0, addr := 0, site := s.scalarSite w }
    (s.sl.pc + 4)

/-- The word of a scalar instruction. -/
def wordOf (i : Instr) : Word := BitVec.ofNat 32 ((encodeScalar i).getD 0)

/-- Scalar instruction `i` traps. -/
def trapAt (i : Instr) (cause : Nat) (mask : Word) (code : Nat) (s : State) : Res :=
  .next (s.trapWord (wordOf i) cause mask code)

/-- ILLEGAL at scalar instruction `i`. -/
def illegal (i : Instr) (s : State) : Res := trapAt i causeIllegal 0 0 s

/-- A scalar instruction whose fields must be well-formed (R55). -/
def guarded (i : Instr) (s : State) (k : State → Res) : Res := if scalarFields i then k s else illegal i s

/-- Return from a handler (R340): XM and pc of the slot, ACTIVE clear, the lane stream released. -/
def Group.leave (x : Group) (slotB : Bool) : Group :=
  let y := x.slot slotB
  let w := x.heldWait
  let x := { x with csr := { x.csr with tcause := x.csr.tcause &&& ~~~(0x8000 : Word) }, heldLane := false, heldWait := .none,
                    laneWait := Option.none }
  x.setSlot slotB { y with xm := x.csr.txm &&& y.lanes, pc := withHigh x.ident.scalarEntry x.csr.trpc, wait := w }

end Sys2Proof.Machine
end

