-- ==== Sys2Proof/Machine/Flags.lean ====
section
/-! DEFINITION. How lane instructions set FSTAT, VSTAT and AMAX (R26, R70, R88, R90, R124, R341). -/

namespace Sys2Proof.Machine

def vstatSat : Nat := 1
def vstatAbsent : Nat := 2
def vstatMulti : Nat := 4
def vstatClamp : Nat := 8
def vstatAiovf : Nat := 16

/-- The OR of a list of flag sets. -/
def orAll (l : List Nat) : Nat := l.foldl (· ||| ·) 0

/-- The updates that are known, up to the first that is not (R26): their bits, and what is left. -/
def lateDue : List LateFlag → Word × List LateFlag
  | [] => (0, [])
  | f :: rest => if f.known then (f.bits ||| (lateDue rest).1, (lateDue rest).2) else (0, f :: rest)

/-- The update of instruction `id` gains bits; `done` tells that it has completed. -/
def lateSet (l : List LateFlag) (id : Nat) (bits : Word) (done : Bool) : List LateFlag :=
  l.map (fun f => if f.id = id ∧ f.known = false then { f with bits := f.bits ||| bits, known := done } else f)

/-- Instruction `id` has issued and its update of VSTAT is not known yet. -/
def Group.awaitVstat (x : Group) (id : Nat) : Group :=
  { x with lateV := x.lateV ++ [{ id := id, bits := 0, known := false }] }

/-- The same of FSTAT. -/
def Group.awaitFstat (x : Group) (id : Nat) : Group :=
  { x with lateF := x.lateF ++ [{ id := id, bits := 0, known := false }] }

/-- The update of VSTAT by instruction `id` gains bits. Updates are applied in lane program order. -/
def Group.giveVstat (x : Group) (id bits : Nat) (done : Bool) : Group :=
  let r := lateDue (lateSet x.lateV id (BitVec.ofNat 32 bits) done)
  { x with lateV := r.2, csr := { x.csr with vstat := x.csr.vstat ||| r.1 } }

/-- The same of FSTAT. -/
def Group.giveFstat (x : Group) (id flags : Nat) : Group :=
  let r := lateDue (lateSet x.lateF id (BitVec.ofNat 32 flags) true)
  { x with lateF := r.2, csr := { x.csr with fstat := x.csr.fstat ||| r.1 } }

/-- OR flags into FSTAT; behind an update that is not known yet, they wait for it (R26). -/
def Group.orFstat (x : Group) (flags : Nat) : Group :=
  if x.lateF.isEmpty then { x with csr := { x.csr with fstat := x.csr.fstat ||| BitVec.ofNat 32 flags } }
  else if flags = 0 then x
  else { x with lateF := x.lateF ++ [{ id := 0, bits := BitVec.ofNat 32 flags, known := true }] }

/-- OR bits into VSTAT; behind an update that is not known yet, they wait for it. -/
def Group.orVstat (x : Group) (bits : Nat) : Group :=
  if x.lateV.isEmpty then { x with csr := { x.csr with vstat := x.csr.vstat ||| BitVec.ofNat 32 bits } }
  else if bits = 0 then x
  else { x with lateV := x.lateV ++ [{ id := 0, bits := BitVec.ofNat 32 bits, known := true }] }

/-- AMAX after inputs with these f32 encodings (R88): the largest magnitude, and NAN for a NaN. -/
def amaxOf (old : Word) (xs : List Nat) : Word :=
  let step (a : Nat) (b : Nat) : Nat :=
    if (f32.val b).isNan then a ||| 2 ^ 31 else a / 2 ^ 31 * 2 ^ 31 + Nat.max (a % 2 ^ 31) (b % 2 ^ 31)
  BitVec.ofNat 32 (xs.foldl step old.toNat)

/-- What an instruction gives one lane: the words of its destination registers, in order, and what it raises. -/
structure LaneRes where
  words : List Word
  flags : Nat
  vstat : Nat
  deriving DecidableEq, Repr

/-- A result that raises nothing. -/
def LaneRes.plain (ws : List Word) : LaneRes := { words := ws, flags := 0, vstat := 0 }

/-- The lanes that raise a flag enabled in the captured FPE (R124, R341). -/
def faultingLanes (fpe : Word) (rs : List (Nat × LaneRes)) : List Nat :=
  (rs.filter (fun r => r.2.flags &&& (fpe.toNat % 32) != 0)).map (·.1)

/-- TCAUSE.CODE of FPX: the enabled flags that the faulting lanes raised (R334). -/
def fpxCode (fpe : Word) (rs : List (Nat × LaneRes)) : Nat := orAll (rs.map (·.2.flags)) &&& (fpe.toNat % 32)

end Sys2Proof.Machine
end

