-- ==== Sys2Proof/Machine/Blocks.lean ====
section
/-! DEFINITION. Rhomiric block formats (R78 to R89) and the aligned integer form AI64 (R91 to R94). -/

namespace Sys2Proof.Machine

/-! ### Formats (R78) and format records (R83, R84) -/

/-- Magnitude width p of a block type: 12 RB3, 13 RB5, 14 RB8. -/
def blockP (ty : Nat) : Nat := if ty = 12 then 2 else if ty = 13 then 4 else 7
/-- Element bits in memory. -/
def blockBits (ty : Nat) : Nat := blockP ty + 1
/-- Bytes of a sub-block. -/
def subBytes (ty : Nat) : Nat := 2 + 2 * blockBits ty
/-- Elements that a 64-byte block can hold. -/
def blockMost (ty : Nat) : Nat := if ty = 12 then 112 else if ty = 13 then 80 else 48
/-- Memory format code. -/
def blockCode (ty : Nat) : Nat := if ty = 12 then 0x13 else if ty = 13 then 0x15 else 0x18
/-- Depth K of the matrix shape of a block type (R294). -/
def blockDepth (ty : Nat) : Nat := if ty = 12 then 64 else 32

/-- Fields of a format record. -/
def frecSet (w : Word) : Nat := w.toNat % 16
def frecGlen (w : Word) : Nat := w.toNat / 16 % 8
def frecRound (w : Word) : Nat := w.toNat / 128 % 8
def frecAmax (w : Word) : Bool := w.getLsbD 10

/-- A block type is in SET. -/
def inSet (w : Word) (ty : Nat) : Bool := w.getLsbD (ty - 11)

/-- The widest format in SET. -/
def widest (w : Word) : Nat := if inSet w 14 then 14 else if inSet w 13 then 13 else 12

/-- Conditions 1 to 4 of R84, with the captured FRM. -/
def frecBad (w frm : Word) : Bool :=
  let g := 16 * frecGlen w
  decide (frecSet w / 2 = 0) || decide (g = 0)
    || [12, 13, 14].any (fun ty => inSet w ty && decide (blockMost ty < g))
    || decide (frecRound w = 5 ∨ frecRound w = 7) || (decide (frecRound w = 6) && decide (5 ≤ frm.toNat % 8))

/-- Condition 6: neither K nor G a multiple of the other. -/
def frecDepthBad (w : Word) (k : Nat) : Bool :=
  let g := 16 * frecGlen w
  decide (k % g ≠ 0) && decide (g % k ≠ 0)

/-- The rounding mode of a format record. -/
def frecMode (w frm : Word) : Nat := if frecRound w = 6 then frm.toNat % 8 else frecRound w

/-! ### Sub-blocks (R79, R80, R86, R87) -/

/-- A sub-block: X (−128 marks NaN), the micro-shift byte, and the signs and magnitudes of its 16 elements. -/
structure SubBlock where
  x : Int
  mu : Nat
  elems : List (Bool × Nat)
  deriving DecidableEq, Repr

/-- The sub-block of zeros that a 0x00 block loads as (R162). -/
def SubBlock.zero : SubBlock := { x := -127, mu := 0, elems := List.replicate 16 (false, 0) }

/-- Its exponent word (R86). -/
def SubBlock.word (b : SubBlock) : Nat := b.mu % 256 * 256 + intBits 8 b.x

/-- The micro-shift of element `i`. -/
def muOf (mu i : Nat) : Nat := mu / 4 ^ (i / 4) % 4

/-- The value of an element (R80) of precision p under an exponent X and a micro-shift. -/
def elemVal (p : Nat) (x : Int) (mu : Nat) (e : Bool × Nat) : FVal :=
  if x = -128 then .nan false else if e.2 = 0 then .fin false 0 0 else .fin e.1 e.2 (x - mu - (p - 1 : Nat))

/-- The values of a sub-block's elements. -/
def SubBlock.vals (b : SubBlock) (p : Nat) : List FVal :=
  (b.elems.zip (List.range 16)).map (fun e => elemVal p b.x (muOf b.mu e.2) e.1)

/-- The register container of an element (R86). -/
def regElem (ty : Nat) (e : Bool × Nat) : Nat := e.2 + (if e.1 then (if ty = 12 then 8 else 128) else 0)
/-- The element in a register container. -/
def elemOfReg (ty c : Nat) : Bool × Nat :=
  if ty = 12 then (c / 8 % 2 == 1, c % 4) else (c / 128 % 2 == 1, c % 2 ^ blockP ty)
/-- Bits of a register container. -/
def regBits (ty : Nat) : Nat := if ty = 12 then 4 else 8

/-- ⌊log2 |x|⌋ of a finite non-zero datum. -/
def FVal.log : FVal → Int
  | .fin _ m e => (Mag.dyadic m e).log
  | _ => 0

/-- |round_int(v × 2^k, rm)|; none when v is infinite. -/
def roundScaled (v : FVal) (k : Int) (rm : Nat) : Option Nat :=
  match v with
  | .fin n m e => if m = 0 then some 0 else some ((Mag.dyadic m (e + k)).roundAt 0 rm 0 n).1
  | _ => none

/-- Every value of a quad fits at shift `u`. -/
def quadFits (p : Nat) (x : Int) (rm u : Nat) (q : List FVal) : Bool :=
  q.all (fun v => match roundScaled v ((p - 1 : Nat) - x + u) rm with
    | some y => decide (y ≤ 2 ^ p - 1)
    | none => false)

/-- The micro-shift of a quad at X: the largest of 1 to 3 at which it fits, or 0. -/
def quadMu (p : Nat) (x : Int) (rm : Nat) (q : List FVal) : Nat :=
  if quadFits p x rm 3 q then 3 else if quadFits p x rm 2 q then 2 else if quadFits p x rm 1 q then 1 else 0

/-- The passes of R87: X is raised while a finite element carries and X is below 127. -/
def quantX (p rm : Nat) (vs : List FVal) : Nat → Int → Int
  | 0, x => x
  | n + 1, x =>
    let carry := (vs.zip (List.range 16)).any (fun v =>
      let mu := quadMu p x rm ((vs.drop (v.2 / 4 * 4)).take 4)
      roundScaled v.1 ((p - 1 : Nat) - x + mu) rm == some (2 ^ p))
    if carry ∧ x < 127 then quantX p rm vs n (x + 1) else x

/-- The first X of R87: of the largest magnitude. -/
def quantStart (vs : List FVal) : Int :=
  if vs.any (·.isInf) then 127
  else (vs.filter (fun v => !v.isZero)).foldl (fun x v => max x v.log) (-127)

/-- Quantise 16 values (R87): the sub-block, and whether a magnitude was clamped. A NaN makes a NaN sub-block; the manual
gives its micro-shifts and elements no value, and the instruction that writes them takes free ones. -/
def quantSb (p rm : Nat) (vs : List FVal) : SubBlock × Bool :=
  if vs.any (·.isNan) then ({ SubBlock.zero with x := -128 }, false)
  else
    let x := quantX p rm vs 255 (quantStart vs)
    let mu (j : Nat) : Nat := quadMu p x rm ((vs.drop (4 * j)).take 4)
    let ys := (vs.zip (List.range 16)).map (fun v => (v.1.neg, roundScaled v.1 ((p - 1 : Nat) - x + mu (v.2 / 4)) rm))
    let m (y : Option Nat) : Nat := Nat.min (y.getD (2 ^ p)) (2 ^ p - 1)
    ({ x := x, mu := joinElems 2 [mu 0, mu 1, mu 2, mu 3],
       elems := ys.map (fun y => (y.1 && decide (m y.2 ≠ 0), m y.2)) },
     ys.any (fun y => decide (2 ^ p ≤ y.2.getD (2 ^ p))))

/-! ### Blocks in memory (R81, R85, R162, R163) -/

/-- The type of a memory format code; none for 0x00 and for reserved codes. -/
def codeType (c : Nat) : Option Nat :=
  if c = 0x13 then some 12 else if c = 0x15 then some 13 else if c = 0x18 then some 14 else none

/-- A signed byte. -/
def sByte (b : Nat) : Int := elemInt 10 8 b

/-- Sub-block `j` of a block of type `ty` as it stands, without the checks. -/
def rawSub (ty : Nat) (bs : List Byte) (j : Nat) : SubBlock :=
  let sub := (bs.drop (2 + j * subBytes ty)).take (subBytes ty)
  let e := (sub.getD 0 0).toNat
  let bits := bytesNat (sub.drop 2)
  let w := blockBits ty
  { x := if e = 0xFF then -128 else (e : Int) - 127 + sByte (bs.getD 1 0).toNat, mu := (sub.getD 1 0).toNat,
    elems := (List.range 16).map (fun i =>
      let v := elemAt w i bits
      (decide (2 ^ blockP ty ≤ v), v % 2 ^ blockP ty)) }

/-- The block breaks R85 for an instruction of block type `ty` with format record `w`. S = 0x80 breaks it in an all-zero block
too: S is no payload (R81). -/
def blockBad (w : Word) (ty : Nat) (bs : List Byte) : Bool :=
  let c := (bs.getD 0 0).toNat
  let s := (bs.getD 1 0).toNat
  if s = 0x80 then true
  else if c = 0 then !w.getLsbD 0
  else
    match codeType c with
    | none => true
    | some t =>
      !inSet w t || decide (ty < t)
        || (List.range (frecGlen w)).any (fun j =>
            let x := (rawSub t bs j).x
            decide ((bs.getD (2 + j * subBytes t) 0).toNat ≠ 0xFF) && (decide (x < -127) || decide (127 < x)))

/-- Sub-block `j` of a block, widened to block type `ty` (R85, R162). -/
def loadSub (ty : Nat) (bs : List Byte) (j : Nat) : SubBlock :=
  match codeType (bs.getD 0 0).toNat with
  | none => SubBlock.zero
  | some t =>
    let b := rawSub t bs j
    { b with elems := b.elems.map (fun e => (e.1, e.2 * 2 ^ (blockP ty - blockP t))) }

/-- The bytes of one sub-block of type `ty`. -/
def storeSub (ty : Nat) (b : SubBlock) : List Byte :=
  [BitVec.ofNat 8 (if b.x = -128 then 0xFF else (b.x + 127).toNat), BitVec.ofNat 8 b.mu]
    ++ natBytes (2 * blockBits ty)
        (joinElems (blockBits ty) (b.elems.map (fun e => e.2 + (if e.1 then 2 ^ blockP ty else 0))))

/-- The 64 bytes of a granule of sub-blocks (R163). -/
def storeBlock (w : Word) (ty : Nat) (subs : List SubBlock) : List Byte :=
  let zero := w.getLsbD 0 && subs.all (fun b => decide (b.x ≠ -128) && b.elems.all (fun e => decide (e.2 = 0)))
  let body := BitVec.ofNat 8 (blockCode ty) :: 0 :: subs.flatMap (storeSub ty)
  if zero then List.replicate 64 0 else body ++ List.replicate (64 - body.length) 0

/-! ### AI64 (R91 to R94) -/

def aiZero : Int := -32768
def aiNan : Int := 32767

/-- A chunk: its exponent and its integers. -/
structure Chunk where
  ec : Int
  q : List Int
  deriving DecidableEq, Repr

/-- The largest ⌊log2|x|⌋ of the non-zero values; none when all are zero. -/
def chunkMax (vs : List FVal) : Option Int :=
  (vs.filter (fun v => !v.isZero)).foldl (fun m v => match m with
    | none => some v.log
    | some x => some (max x v.log)) none

/-- One integer of a chunk, and whether it was clamped (R92). -/
def aiEncode (f : Nat) (ec : Int) (v : FVal) : Int × Bool :=
  match v with
  | .fin n m e =>
    if m = 0 then (0, false)
    else
      let q := ((Mag.dyadic m (e + f - ec)).roundAt 0 0 0 n).1
      if 2 ^ (f + 1) < q then (signed n (2 ^ (f + 1)), true) else (signed n q, false)
  | _ => (0, false)

/-- Encode values with a requested exponent (none: the chunk's own), and whether a value was clamped. The integers of a NaN
chunk have no value in the manual; they are given as 0 here and the instruction takes free ones. -/
def chunkOf (f : Nat) (want : Option Int) (vs : List FVal) : Chunk × Bool :=
  if vs.any (fun v => v.isNan || v.isInf) then ({ ec := aiNan, q := vs.map (fun _ => 0) }, false)
  else
    match chunkMax vs with
    | none => ({ ec := aiZero, q := vs.map (fun _ => 0) }, false)
    | some own =>
      let ec := want.getD own
      let rs := vs.map (aiEncode f ec)
      ({ ec := ec, q := rs.map (·.1) }, rs.any (·.2))

/-- Clamp a sum to ±(2^63 − 1) (R93). -/
def aiClamp (v : Int) : Int × Bool :=
  if 2 ^ 63 - 1 < v then (2 ^ 63 - 1, true) else if v < -(2 ^ 63 - 1) then (-(2 ^ 63 - 1), true) else (v, false)

/-- Decode one sum (R94). -/
def aiDecode (f : Nat) (ec q : Int) : FRes :=
  if ec = aiZero then f32.zero false
  else if ec = aiNan then f32.nan false
  else f32.roundInt 0 0 false q (ec - f)

end Sys2Proof.Machine
end

