-- ==== Sys2Proof/Machine/Team.lean ====
section
/-! DEFINITION. Teams of placed clusters as a group meets them (R189, R195), and the store budget of a team (R225 to
R227). -/

namespace Sys2Proof.Machine

/-- The team of a key, while its cluster is placed. -/
def State.team? (s : State) (k : TeamKey) : Option Team :=
  s.sched.clusters.findSome? (fun c => c.teams.find? (fun t => t.key == k))

/-- Change the team of a key. -/
def State.onTeam (s : State) (k : TeamKey) (f : Team → Team) : State :=
  let one (t : Team) : Team := if t.key = k then f t else t
  { s with sched := { s.sched with clusters := s.sched.clusters.map (fun c => { c with teams := c.teams.map one }) } }

/-- The team of a group. -/
def State.teamOf (s : State) (g : Nat) : Option Team := s.team? (s.group g).ident.team

/-- BUDGET, in 256-byte units per window; 0 means no limit (R226). -/
def budgetOf (stbcfg : Word) : Nat := stbcfg.toNat % 65536

/-- The credit of a whole window. -/
def Team.full (t : Team) : Int := 256 * (budgetOf t.stbcfg : Int)

/-- Renewal at the start of a window (R225): unused credit is not carried, a debt is. -/
def Team.renew (t : Team) : Team := { t with credit := if 0 ≤ t.credit then t.full else t.credit + t.full }

/-- A store of this charge is accepted whole now (R225). -/
def Team.accepts (t : Team) (charge : Nat) : Bool :=
  decide (budgetOf t.stbcfg = 0)
    || (decide (0 ≤ t.credit)
        && (decide ((charge : Int) ≤ t.credit) || (decide (t.full < charge) && decide (t.credit = t.full))))

/-- The credit after a store of this charge. -/
def Team.pay (t : Team) (charge : Nat) : Team :=
  if budgetOf t.stbcfg = 0 then t else { t with credit := t.credit - charge }

/-- The group's team accepts a store of this charge. A group outside every placed team has no budget. -/
def State.creditFor (s : State) (g charge : Nat) : Bool :=
  match s.teamOf g with
  | some t => t.accepts charge
  | none => true

/-- Charge the group's team. -/
def State.payCredit (s : State) (g charge : Nat) : State := s.onTeam (s.group g).ident.team (fun t => t.pay charge)

/-- A store of this group waits for credit. -/
def Group.waitsCredit (x : Group) : Bool :=
  let w (y : Slot) : Bool := match y.wait with
    | .credit _ _ => true
    | _ => false
  w x.slotA || w x.slotB || x.laneWait.isSome

/-- STB as a group reads it (R226). -/
def State.stb (s : State) (g : Nat) : Word :=
  let credit : Nat := match s.teamOf g with
    | some t => if budgetOf t.stbcfg = 0 then 0xFFFF else Nat.min 0xFFFF (t.credit.toNat / 256)
    | none => 0xFFFF
  BitVec.ofNat 32 (credit + (if (s.group g).waitsCredit then 2 ^ 31 else 0))

/-! ### Launches and pre-emption as their groups meet them (R349, R350) -/

/-- A launch's pre-emptible flag (R191). -/
def Launch.preemptible (l : Launch) : Bool := l.record.flags / 4 % 2 == 1

def State.launch? (s : State) (ticket : Nat) : Option Launch := s.sched.launches.find? (fun l => l.ticket == ticket)

/-- The launch of a ticket belongs to context `ctx` and can be pre-empted. -/
def State.preemptibleOf (s : State) (ctx ticket : Nat) : Bool :=
  match s.launch? ticket with
  | some l => l.ctx == ctx && l.preemptible
  | none => false

/-- The pre-emption state of a context: 0 RUNNING, 1 PENDING, 2 SAVED, 3 TERMINATED (R349). -/
def State.preemptState (s : State) (ctx : Nat) : Nat := Sparse.get 0 s.sched.preempt ctx

/-- Set the pre-emption state of a context: a change raises MSI-X vector 3 (R437). -/
def State.setPreempt (s : State) (ctx n : Nat) : State :=
  let t := { s with sched := { s.sched with preempt := Sparse.put s.sched.preempt ctx n } }
  if Sparse.get 0 s.sched.preempt ctx = n then t else t.send (.msix 3)

/-- A phase of the team is running. -/
def Team.isRunning (t : Team) : Bool := t.stage == .running

/-- A running phase of the context's pre-emptible launches that is past its limit (R351). -/
def State.pastLimit (s : State) (ctx : Nat) : Option Team :=
  s.sched.clusters.findSome? (fun c =>
    match s.launch? c.ticket with
    | some l =>
      if l.ctx = ctx ∧ l.preemptible = true ∧ l.record.phlim ≠ 0 then
        c.teams.find? (fun t => t.isRunning && decide (t.placedAt + l.record.phlim < s.ck))
      else none
    | none => none)

/-- The context ends with PREEMPT_TMO: the record names the phase's launch and its first group's entry. -/
def State.phaseTimeout (s : State) (ctx : Nat) (t : Team) : State :=
  let g := (t.live.head?.bind (fun i => t.members[i]?)).getD 0
  s.terminate ctx causePreempt 0 0 (locCode g false) t.key.ticket 0 0 0 0 0 0 0 0

/-- A packet of a reduction that was replayed from the side log: the entry counts as replayed once it is acknowledged
(R346). -/
def State.replayed (s : State) (p : Packet) : Bool :=
  !p.returns && !(s.group p.g).storesOther.any (fun e => e.1 == p.id)

/-- PENDING becomes SAVED (R350) when no phase of the context's pre-emptible launches runs and no side-log entry of it
remains: the records are spilled, the clusters give up their rectangles, and their queued phases wait for the resume. -/
def State.preemptSettle (s : State) (ctx : Nat) : State :=
  let mine (c : Cluster) : Bool := s.preemptibleOf ctx c.ticket
  let running := s.sched.clusters.any (fun c => mine c && !c.unplaced && c.teams.any Team.isRunning)
  let logged := s.cores.any (fun e => e.2.sideLog.any (fun l => l.ctx == ctx))
    || s.hcls.any (fun e => e.2.packets.any (fun p => p.ctx == ctx && s.replayed p))
  if s.preemptState ctx ≠ 1 || running || logged then s
  else
    let spill (t : Team) : Team := { t with records := t.records.map (fun r => { r with spilled := true }) }
    let dropPhases (e : Nat × Hcl) : Nat × Hcl :=
      (e.1, { e.2 with tasks := e.2.tasks.filter (fun t => t.start || !s.preemptibleOf ctx t.ticket) })
    let leave (c : Cluster) : Cluster :=
      if mine c then { c with unplaced := true, teams := c.teams.map spill } else c
    let s := { s with
      sched := { s.sched with
        clusters := s.sched.clusters.map leave,
        waiting := s.sched.waiting.filter (fun e => e.2.start || !s.preemptibleOf ctx e.2.ticket) },
      hcls := s.hcls.map dropPhases }
    s.setPreempt ctx 2

/-- STORE_BUDGET_WINDOW: the team's window of 2,000 ck has ended (R225). -/
def execStoreBudgetWindow (team : TeamKey) (s : State) : Res :=
  match s.team? team with
  | none => stall s
  | some t =>
    if t.windowStart + 2000 ≤ s.ck then
      .next (s.onTeam team (fun t => { t.renew with windowStart := t.windowStart + 2000 }))
    else stall s

end Sys2Proof.Machine
end

