-- ==== Sys2Proof/Machine/Translate.lean ====
section
/-! DEFINITION. Virtual memory (R233 to R243): the tables, the walk, the TLBs of the hardware core clusters, page-fault
requests (R344), and how a group's access and an engine's access (R455) are translated. -/

namespace Sys2Proof.Machine

/-- What looking up one address gives. -/
inductive Xlat where
  /-- The place it reaches. -/
  | hit (l : Loc)
  /-- No cached translation authorises it: a walk is needed. -/
  | miss
  /-- It lies in a region whose commit is PENDING: the access waits (R231). -/
  | hold
  /-- The access has faulted, and its page-fault request is not answered yet (R344). -/
  | wait
  /-- The context ends with cause PAGE, this reason and this address (R237, R343, R344). -/
  | page (reason addr : Nat)
  /-- The page is retired: the context ends with UNCORR, unit 13 (R366). -/
  | retired
  deriving DecidableEq, Repr

/-- PAGE reasons (R343). -/
def reasonNotValid : Nat := 1
def reasonPerm : Nat := 2
def reasonNonCanon : Nat := 3
def reasonBadPte : Nat := 4
def reasonHostRefused : Nat := 5
def reasonUnmapped : Nat := 6
def reasonAtomicHost : Nat := 7
def reasonRefused : Nat := 8

def Access.isStore : Access → Bool
  | .store => true
  | .load => false
  | .fetch => false

/-- A cached translation covers an address. -/
def TlbEntry.covers (e : TlbEntry) (hcl ctx va : Nat) : Bool :=
  decide (e.hcl = hcl) && decide (e.ctx = ctx) && decide (e.va ≤ va) && decide (va < e.va + e.size)

/-- It authorises an access (R236, R238): a store needs D as well. -/
def TlbEntry.allows (e : TlbEntry) : Access → Bool
  | .load => e.read
  | .store => e.write && e.dirtyOk
  | .fetch => e.exec

/-- An address of a region whose commit is PENDING, under its old or its new mapping: new accesses wait (R231). -/
def State.settling (s : State) (pa : Nat) : Bool :=
  let within (r : RegionMap) : Bool := decide (r.base ≤ pa) && decide (pa < r.limit)
  s.vm.regions.any (fun e => e.2.status == 1 && (within e.2.active || within e.2.next))

/-- Where a device or host address of a cached translation leads. -/
def State.landing (s : State) (host : Bool) (pa : Nat) : Xlat :=
  if host then .hit (.host pa)
  else if s.settling pa then .hold
  else if !s.mapped pa then .page reasonUnmapped pa
  else if s.retired pa then .retired
  else .hit (.dev pa)

/-- A page-fault request stands for this context, page, and load or store (R344): a fetch is a load. -/
def State.faultStands (s : State) (ctx va : Nat) (k : Access) : Option FaultReq :=
  s.vm.faults.find? (fun f => f.ctx == ctx && f.page == va / 65536 && f.store == k.isStore)

/-- What the walk of this access has already met at the page. -/
def State.waiterOf (s : State) (who : Requester) (va : Nat) (k : Access) : Option Waiter :=
  s.vm.waiters.find? (fun w => w.who == who && w.page == va / 65536 && w.kind == k)

/-- What a fault means for the access that met it. -/
def Waiter.answer (w : Waiter) : Xlat :=
  if w.id ≠ 0 then .wait else if w.reason = 256 then .retired else .page w.reason w.addr

/-- The device address of the part's copy of the invocation record of launch `t` (R401). -/
def copyAddress (t : Nat) : Nat := Config.copyPlace t % 2 ^ 51 * 64

/-- The copy of an invocation record that a load of a context reaches (R401). -/
def State.copyAt (s : State) (ctx va : Nat) (k : Access) : Option Loc :=
  match k with
  | .load =>
    (s.inv.copies.find? (fun c => c.2.1 == ctx && decide (copyAddress c.1 = va / 64 * 64))).map (fun c => .inv c.1 (va % 64))
  | _ => none

/-- Translate one address of an access: what its own walk met stands; else a cached translation serves it. Faults are not
cached (R240). -/
def State.lookup (s : State) (q : Asker) (va : Nat) (k : Access) : Xlat :=
  if 2 ^ 57 ≤ va then .page reasonNonCanon va
  else if let some l := s.copyAt q.ctx va k then .hit l
  else
    match s.waiterOf q.who va k with
    | some w => w.answer
    | none =>
      match s.vm.tlb.find? (fun e => e.covers q.hcl q.ctx va && e.allows k) with
      | some e => s.landing e.host (e.base + (va - e.va))
      | none => .miss

/-- A walk for the same page, context, TLB and kind. -/
def Walk.serves (w : Walk) (q : Asker) (va : Nat) (k : Access) : Bool :=
  w.first.hcl == q.hcl && w.first.ctx == q.ctx && w.va / 65536 == va / 65536 && w.kind == k

/-- The accesses that a walk serves. -/
def Walk.askers (w : Walk) : List Requester := w.first.who :: w.others

/-- One more access waits for the walk. -/
def Walk.join (w : Walk) (who : Requester) : Walk := if w.askers.contains who then w else { w with others := w.others ++ [who] }

/-- Ask for a walk (R240): misses to one page merge. -/
def State.askWalk (s : State) (q : Asker) (va : Nat) (k : Access) : State :=
  if s.vm.walks.any (fun w => w.serves q va k) then
    { s with vm := { s.vm with walks := s.vm.walks.map (fun w => if w.serves q va k then w.join q.who else w) } }
  else if s.vm.hostReqs.any (fun r => r.walk.serves q va k) then
    { s with vm := { s.vm with hostReqs := s.vm.hostReqs.map (fun r =>
        if r.walk.serves q va k then { r with walk := r.walk.join q.who } else r) } }
  else { s with vm := { s.vm with walks := s.vm.walks ++ [{ first := q, others := [], va := va, kind := k }] } }

/-! ### The walk (R235 to R238) -/

/-- The index of an address at a level. -/
def walkIndex (va : Nat) : Nat → Nat
  | 3 => va / 2 ^ 39 % 2 ^ 18
  | 2 => va / 2 ^ 30 % 512
  | 1 => va / 2 ^ 21 % 512
  | _ => va / 2 ^ 16 % 32

/-- Bytes that a leaf maps at a level; none at level 3. -/
def leafSize : Nat → Nat
  | 2 => 2 ^ 30
  | 1 => 2 ^ 21
  | 0 => 2 ^ 16
  | _ => 0

/-- Alignment of the table of a level. -/
def tableAlign : Nat → Nat
  | 3 => 2 ^ 21
  | 0 => 256
  | _ => 4096

/-- How a walk ends. -/
inductive WalkEnd where
  /-- A fault: its reason, and the address that a record shows (R343). -/
  | fault (reason addr : Nat)
  | uncorr
  /-- A table lies in a region whose commit is PENDING: the walk waits (R231). -/
  | hold
  /-- A leaf: the page's virtual base and size, its physical base, and the entry. -/
  | leaf (va size base : Nat) (entry : Nat)
  deriving DecidableEq, Repr

/-- Bit `i` of an entry. -/
def pteBit (e i : Nat) : Bool := e / 2 ^ i % 2 == 1
/-- ADDR, with its low 8 bits zero. -/
def pteAddr (e : Nat) : Nat := e % 2 ^ 56 / 256 * 256

/-- The entry breaks R235 or R236 at a level. -/
def pteBad (e level : Nat) : Bool :=
  if 2 ^ 56 ≤ e then true
  else if pteBit e 1 then
    decide (level = 3)
      || (if pteBit e 5 then decide (pteAddr e ≠ 0)
          else decide (pteAddr e % leafSize level ≠ 0) || decide (2 ^ 40 ≤ pteAddr e))
  else
    decide (level = 0) || decide (e % 256 / 4 ≠ 0)
      || decide (pteAddr e % tableAlign (level - 1) ≠ 0) || decide (2 ^ 40 ≤ pteAddr e)

/-- The permission an access needs of a leaf. -/
def pteAllows (e : Nat) : Access → Bool
  | .load => pteBit e 2
  | .store => pteBit e 3
  | .fetch => pteBit e 4

/-- Walk from the table at `t` of level `n` (R237), reading entries through the LLC and setting A and D (R238). -/
def walkFrom (ctx va : Nat) (k : Access) : Nat → Nat → State → State × WalkEnd
  | level, t, s =>
    let a := t + 8 * walkIndex va level
    if s.settling a then (s, .hold)
    else if !s.mapped a then (s, .fault reasonUnmapped a)
    else if s.poisoned a then (s, .uncorr)
    else
      let s := s.loadTouch (span a 8) false 0
      let e := bytesNat (s.devBytes a 8)
      if !pteBit e 0 then (s, .fault reasonNotValid va)
      else if pteBad e level then (s, .fault reasonBadPte va)
      else if pteBit e 1 then
        if !pteAllows e k then (s, .fault reasonPerm va)
        else
          let e' := e ||| 64 ||| (if k.isStore then 128 else 0)
          let s := if e' = e then s else s.storeDevAt a (natBytes 8 e') ctx 0
          let sz := leafSize level
          (s, .leaf (va / sz * sz) sz (pteAddr e) e')
      else
        match level with
        | 0 => (s, .fault reasonBadPte va)
        | n + 1 => walkFrom ctx va k n (pteAddr e) s

/-- The context-table entry of a context (R438). -/
def State.ctxEntry (s : State) (ctx : Nat) : CtxEntry := Sparse.get CtxEntry.off s.host.contexts ctx

/-- The walk of a context's tables. -/
def State.walk (s : State) (ctx va : Nat) (k : Access) : State × WalkEnd :=
  if 2 ^ 57 ≤ va then (s, .fault reasonNonCanon va) else walkFrom ctx va k 3 (s.ctxEntry ctx).root s

/-- Cache a translation: 4,096 entries for each hardware core cluster (R240), the oldest leaving first. -/
def State.tlbFill (s : State) (e : TlbEntry) : State :=
  let others := s.vm.tlb.filter (fun x => !(x.hcl == e.hcl && x.ctx == e.ctx && x.va == e.va && x.size == e.size))
  let mine := (others.filter (fun x => x.hcl == e.hcl)).take 4095
  { s with vm := { s.vm with tlb := e :: (mine ++ others.filter (fun x => x.hcl != e.hcl)) } }

/-- The TLB entry of a device leaf. -/
def leafEntry (hcl ctx va size base e : Nat) : TlbEntry :=
  { hcl := hcl, ctx := ctx, va := va, size := size, base := base, host := false, read := pteBit e 2, write := pteBit e 3,
    exec := pteBit e 4, dirtyOk := pteBit e 7 }

/-! ### Page-fault requests (R344) -/

/-- The next fault id: a non-zero 32-bit value. -/
def nextId (n : Nat) : Nat := if n + 1 < 2 ^ 32 then n + 1 else 1

/-- An access waits for the answer to a request, or with id 0 is to end with a reason. -/
def State.addWaiter (s : State) (ctx va : Nat) (k : Access) (id reason addr : Nat) (who : Requester) : State :=
  let w : Waiter := { who := who, ctx := ctx, page := va / 65536, kind := k, id := id, reason := reason, addr := addr }
  { s with vm := { s.vm with waiters := w :: s.vm.waiters } }

/-- The accesses wait for the request of their page and kind, which is registered with one KIND 2 record where none
stands (R344). -/
def State.requestPage (s : State) (q : Asker) (va : Nat) (k : Access) (reason : Nat) (who : List Requester) : State :=
  match s.faultStands q.ctx va k with
  | some f => who.foldl (State.addWaiter · q.ctx va k f.id reason va) s
  | none =>
    let id := s.vm.nextFault
    let f : FaultReq := { id := id, ctx := q.ctx, page := va / 65536, store := k.isStore, reason := reason }
    let s := { s with vm := { s.vm with faults := s.vm.faults ++ [f], nextFault := nextId id } }
    let s := who.foldl (State.addWaiter · q.ctx va k id reason va) s
    s.fqAppend (faultRecord s.sinceCold 2 0 reason q.flags q.ctx q.loc q.ticket 0 0 0 0 0 0 id va)

/-- What the accesses of one page meet after a walk that ended in a fault: a request that software answers, or the end
(R344). -/
def State.walkFault (s : State) (q : Asker) (va : Nat) (k : Access) (reason addr : Nat) (who : List Requester) : State :=
  if reason = reasonNotValid ∨ reason = reasonPerm then s.requestPage q va k reason who
  else who.foldl (State.addWaiter · q.ctx va k 0 reason addr) s

/-- An access no longer waits. -/
def State.unwait (s : State) (who : Requester) : State :=
  { s with vm := { s.vm with waiters := s.vm.waiters.filter (fun w => w.who != who) } }

/-- An instruction issues while lanes of it wait: from now on its access waits for what they met. -/
def State.handWaits (s : State) (a b : Requester) (k : Access) : State :=
  { s with vm := { s.vm with waiters := s.vm.waiters.map (fun w => if w.who = a ∧ w.kind = k then { w with who := b } else w) } }

/-- The instruction at the head of a stream of group `g`, as one who asks. -/
def State.streamAsker (s : State) (g : Nat) (slotB lane : Bool) : Asker :=
  let x := s.group g
  { who := .stream g slotB lane, hcl := hclOf g, ctx := x.ident.ctx, loc := locCode g slotB, ticket := x.ident.team.ticket,
    flags := if x.inHandler then 1 else 0 }

/-- A load of group `g` in flight. -/
def State.loadAsker (s : State) (g : Nat) (e : LoadEntry) : Asker := { s.streamAsker g e.slotB true with who := .access g e.id }

/-- An operation of an engine for a context: LOC and TICKET are those of the group that submitted it, and 0 for none. -/
def State.engineAsker (s : State) (who : Requester) (hcl ctx : Nat) (g : Option Nat) : Asker :=
  { who := who, hcl := hcl, ctx := ctx, loc := (g.map (fun g => locCode g false)).getD 0,
    ticket := (g.map (fun g => (s.group g).ident.team.ticket)).getD 0, flags := 0 }

/-! ### What a group's access meets -/

/-- The trap of an access that ends the context with cause PAGE. -/
def pageTrap (site : TrapSite) (mask : Word) (reason addr : Nat) : Trap :=
  { cause := causePage, mask := mask, code := 0, reason := reason, addr := addr, site := site }

/-- The trap of an access that reads retired or poisoned memory (R366): REASON holds unit 13 (R367). -/
def uncorrTrap (site : TrapSite) (mask : Word) (unit addr : Nat) : Trap :=
  { cause := causeUncorr, mask := mask, code := 0, reason := unit, addr := addr, site := site }

/-- What the translation of several addresses by one instruction gives: each address's place, or none while its page
fault stands; or that walks are needed; or the trap that ends the context. -/
inductive XlatAll where
  | places (l : List (Option Loc))
  | miss
  | trap (reason : Nat) (va : Nat) (retired : Bool)
  deriving DecidableEq, Repr

/-- Put the answers for several addresses together: a trap first, then a miss. -/
def XlatAll.cons (va : Nat) (x : Xlat) (rest : XlatAll) : XlatAll :=
  match x, rest with
  | .page r a, _ => .trap r a false
  | .retired, _ => .trap 13 va true
  | _, .trap r a b => .trap r a b
  | .miss, _ => .miss
  | .hold, _ => .miss
  | _, .miss => .miss
  | .hit l, .places ls => .places (some l :: ls)
  | .wait, .places ls => .places (none :: ls)

def State.lookupAll (s : State) (q : Asker) (k : Access) : List Nat → XlatAll
  | [] => .places []
  | va :: rest => XlatAll.cons va (s.lookup q va k) (s.lookupAll q k rest)

/-- Ask for the walks that several addresses of an access need. -/
def State.askWalks (s : State) (q : Asker) (k : Access) (vas : List Nat) : State :=
  vas.foldl (fun s va => match s.lookup q va k with
    | .miss => s.askWalk q va k
    | _ => s) s

/-! ### Engine accesses (R455) -/

/-- What an engine's access meets: the place, a fault that waits for an answer, or the end of the operation. -/
inductive EngineXlat where
  | at_ (l : Loc)
  | wait
  | fail
  deriving DecidableEq, Repr

/-- An engine read poison, or reached a retired page (R366): the consuming context ends with UNCORR, unit 13, unless it has
ended already. -/
def State.engineUncorr (s : State) (q : Asker) (va : Nat) : State :=
  if Sparse.get 0 s.sched.preempt q.ctx = 3 then s
  else s.terminate q.ctx causeUncorr 13 0 q.loc q.ticket 0 0 0 0 0 0 0 va

/-- Translate one address for an engine, walking at once. A leaf in host memory uses a cached host translation, and asks for
one where there is none. -/
def State.engineXlat (s : State) (q : Asker) (va : Nat) (k : Access) : State × EngineXlat :=
  match s.lookup q va k with
  | .hit l => (s, .at_ l)
  | .wait => (s, .wait)
  | .hold => (s, .wait)
  | .page _ _ => (s.unwait q.who, .fail)
  | .retired => ((s.unwait q.who).engineUncorr q va, .fail)
  | .miss =>
    match s.walk q.ctx va k with
    | (s, .leaf v size base e) =>
      if pteBit e 5 then (s.askWalk q va k, .wait)
      else
        let t := s.tlbFill (leafEntry q.hcl q.ctx v size base e)
        match s.landing false (base + (va - v)) with
        | .hit l => (t, .at_ l)
        | .retired => (s.engineUncorr q va, .fail)
        | .hold => (t, .wait)
        | _ => (t, .fail)
    | (s, .hold) => (s, .wait)
    | (s, .uncorr) => (s.engineUncorr q va, .fail)
    | (s, .fault r _) =>
      if r = reasonNotValid ∨ r = reasonPerm then (s.requestPage q va k r [q.who], .wait) else (s, .fail)

/-- Translate each 64 KiB piece of `n` bytes from `va` for an engine: the places of the bytes' pieces, in order. -/
inductive EngineRange where
  | at_ (pieces : List (Loc × Nat))
  | wait
  | fail
  deriving DecidableEq, Repr

/-- The pieces of a range that lie in one 64 KiB page each. -/
def pagePieces (va n : Nat) : List (Nat × Nat) :=
  if n = 0 then []
  else
    let pages := (va + n - 1) / 65536 - va / 65536 + 1
    (List.range pages).map (fun i =>
      let lo := Nat.max va ((va / 65536 + i) * 65536)
      (lo, Nat.min (va + n) ((va / 65536 + i + 1) * 65536) - lo))

def engineRangeFrom (q : Asker) (k : Access) : List (Nat × Nat) → State → State × EngineRange
  | [], s => (s, .at_ [])
  | (va, n) :: rest, s =>
    match s.engineXlat q va k with
    | (s, .fail) => (s, .fail)
    | (s, .wait) => (s, .wait)
    | (s, .at_ l) =>
      match engineRangeFrom q k rest s with
      | (s, .at_ ps) => (s, .at_ ((l, n) :: ps))
      | r => r

def State.engineRange (s : State) (q : Asker) (va n : Nat) (k : Access) : State × EngineRange :=
  engineRangeFrom q k (pagePieces va n) s

/-- The device bytes of translated pieces. -/
def pieceSpan (ps : List (Loc × Nat)) : List Nat :=
  ps.flatMap (fun p => match p.1 with
    | .dev a => span a p.2
    | _ => [])

/-- What reading translated pieces does to the LLC: row accesses of the sectors they lie in (R220). -/
def State.readPieces (s : State) (ps : List (Loc × Nat)) : State := s.loadTouch (pieceSpan ps) false 0

/-- The bytes of translated pieces, as they stand at their homes. -/
def State.pieceBytes (s : State) (ps : List (Loc × Nat)) : List Byte :=
  ps.flatMap (fun p => (List.range p.2).map (fun i => s.locByte (p.1.plus i)))

/-- Some byte of the pieces lies in a poisoned sector. -/
def State.piecePoisoned (s : State) (ps : List (Loc × Nat)) : Bool :=
  ps.any (fun p => match p.1 with
    | .dev a => (List.range (p.2 / 1024 + 2)).any (fun i => s.poisoned (Nat.min (a + 1024 * i) (a + p.2 - 1)))
    | _ => false)

/-- Store bytes over translated pieces. -/
def storePieces (ctx stream : Nat) : List (Loc × Nat) → List Byte → State → State
  | [], _, s => s
  | (l, n) :: rest, bs, s => storePieces ctx stream rest (bs.drop n) (s.storeLoc none l (bs.take n) ctx stream 0)

/-- What one engine write does: it waits, is dropped because it cannot be made, or is made (R455). -/
inductive EngineWrite where
  | done
  | wait
  | dropped
  deriving DecidableEq, Repr

/-- Write bytes at a virtual address for an engine. -/
def State.engineWrite (s : State) (q : Asker) (va : Nat) (bs : List Byte) : State × EngineWrite :=
  match s.engineRange q va bs.length .store with
  | (s, .at_ ps) => (storePieces q.ctx 0 ps bs s, .done)
  | (s, .wait) => (s, .wait)
  | (s, .fail) => (s, .dropped)

end Sys2Proof.Machine
end

