-- ==== Sys2Proof/Machine/Access.lean ====
section
/-! DEFINITION. Access to memory through a buffer record (R118, R148 to R160, R217 to R228, R264, R322, R345, R346): the
record and its swizzle, the checks, translation, the store queue and the side log, and the bytes a load sees. -/

namespace Sys2Proof.Machine

/-! ### The record (R148) -/

/-- A buffer record's fields. -/
structure Rec where
  fmt : Nat
  swz : Nat
  pitch : Nat
  extent : Nat
  ws : Nat
  rd : Bool
  wr : Bool
  cls : Nat
  base : Nat
  deriving DecidableEq, Repr

/-- The fields of a record register. -/
def recOf (b : BitVec 128) : Rec :=
  let n := b.toNat
  { fmt := n / 2 ^ 123 % 8, swz := n / 2 ^ 120 % 8, pitch := n / 2 ^ 104 % 2 ^ 16, extent := n / 2 ^ 64 % 2 ^ 40,
    ws := n / 2 ^ 62 % 4, rd := b.getLsbD 61, wr := b.getLsbD 60, cls := n / 2 ^ 57 % 8, base := n % 2 ^ 57 }

/-- An image that BRLD refuses (R119). -/
def imageRefused (b : BitVec 128) : Bool :=
  decide (b.toNat / 2 ^ 126 ≠ 0) || decide (5 ≤ (recOf b).cls) || decide (4 ≤ (recOf b).swz)

/-- Row width W. -/
def Rec.width (r : Rec) : Nat := 64 * r.pitch

/-- What the swizzle requires BASE to be a multiple of (R152). -/
def Rec.unit (r : Rec) : Nat :=
  match r.swz with
  | 1 => 1024
  | 2 => 128
  | 3 => 512
  | _ => 1

/-- R150 or R152 refuses the record. -/
def Rec.refused (r : Rec) : Bool :=
  (decide (r.cls = 1) && (decide (r.base / 2 ^ 25 ≠ 0) || decide (r.base / 2 ^ 23 % 4 = 3)))
    || (match r.swz with
        | 0 => false
        | 1 => decide (r.pitch = 0)
        | 2 => decide (r.pitch = 0) || decide (r.pitch % 2 ≠ 0)
        | 3 => decide (r.pitch = 0) || decide (r.pitch % 8 ≠ 0)
        | _ => true)

/-- The physical offset of a logical offset (R152). -/
def Rec.swizzle (r : Rec) (o : Nat) : Nat :=
  let w := r.width
  let y := o / w
  let x := o % w
  match r.swz with
  | 1 => (y / 32 * (w / 32) + x / 32) * 1024 + y % 32 * 32 + x % 32
  | 2 => o ^^^ (y % 8 * 16)
  | 3 => o ^^^ (y % 32 * 16)
  | _ => o

/-- The core of a scratch record, within a hardware core cluster. -/
def Rec.scrCore (r : Rec) (hcl : Nat) : Nat := hcl * 12 + 4 * (r.base / 2 ^ 23 % 4) + r.base / 2 ^ 21 % 4

/-- The byte that a record of class 1 names, in its core's scratchpad; only a scalar access reaches past the end of the
scratchpad (R118), where every byte is alike (assumption 130). -/
def Rec.scrOff (r : Rec) (o : Nat) : Nat := Nat.min (r.base % 2 ^ 21 + r.swizzle o) (2 ^ 21 - 16)

/-- `lim` of R153. -/
def Rec.limit (r : Rec) (s : State) (hcl : Nat) : Nat :=
  let lim := if r.swz = 1 then r.extent - r.extent % (32 * r.width) else r.extent
  if r.cls = 1 then Nat.min lim ((s.core (r.scrCore hcl)).scrSize - r.base % 2 ^ 21) else lim

/-- The address that stands for a place of the access: a virtual address; for a scratch record a number above every
virtual address that names the core and the byte. -/
def Rec.addr (r : Rec) (hcl o : Nat) : Nat :=
  if r.cls = 1 then 2 ^ 60 + r.scrCore hcl * 2 ^ 21 + r.scrOff o else r.base + r.swizzle o

/-- The scratch place that such a number names. -/
def scrPlace (a : Nat) : Loc := .scr ((a - 2 ^ 60) / 2 ^ 21) (a % 2 ^ 21)

/-- An address that names a scratch place. -/
def isScr (a : Nat) : Bool := decide (2 ^ 60 ≤ a)

/-- A mask of the listed lanes. -/
def maskOf (lanes : List Nat) : Word := lanes.foldl setBit 0

/-! ### The checks -/

/-- A trap that a check raises: the cause, the lanes, and for PAGE and UNCORR the reason or unit and the address. -/
structure Raised where
  cause : Nat
  mask : Word
  reason : Nat
  addr : Nat
  deriving DecidableEq, Repr

def raised (cause : Nat) (mask : Word) : Raised := { cause := cause, mask := mask, reason := 0, addr := 0 }

/-- What an instruction asks of a record (R153): the classes it accepts, the bytes of each lane's access, and whether it
reads and writes. -/
structure Ask where
  classes : List Nat
  n : Nat
  reads : Bool
  writes : Bool
  deriving DecidableEq, Repr

/-- The lanes whose offset lies outside the range. -/
def outside (lim n : Nat) (lanes : List (Nat × Int)) : List Nat :=
  (lanes.filter (fun l => decide (l.2 < 0) || decide ((lim : Int) < l.2 + n))).map (·.1)

/-- The checks of R153, on logical offsets, against a limit. -/
def Rec.checkIn (r : Rec) (lim : Nat) (q : Ask) (lanes : List (Nat × Int)) : Option Raised :=
  let all := maskOf (lanes.map (·.1))
  let out := maskOf (outside lim q.n lanes)
  let m := if (q.reads && !r.rd) || (q.writes && !r.wr) then all else out
  let odd := maskOf ((lanes.filter (fun l => decide ((r.base + r.swizzle l.2.toNat) % q.n ≠ 0))).map (·.1))
  if !q.classes.contains r.cls || r.refused then some (raised causeIllegal 0)
  else if m ≠ 0 then some (raised causeBounds m)
  else if r.base % r.unit ≠ 0 then some (raised causeAlign all)
  else if odd ≠ 0 then some (raised causeAlign odd)
  else none

/-- The checks of R153. -/
def Rec.check (r : Rec) (s : State) (hcl : Nat) (q : Ask) (lanes : List (Nat × Int)) : Option Raised :=
  r.checkIn (r.limit s hcl) q lanes

/-- A range-lock entry meets the `n` bytes from an access's address (R322). -/
def RangeLock.meets (e : RangeLock) (ctx a n : Nat) : Bool :=
  match e.scr with
  | some c => isScr a && decide ((a - 2 ^ 60) / 2 ^ 21 = c) && decide (a % 2 ^ 21 < e.hi) && decide (e.lo < a % 2 ^ 21 + n)
  | none => !isScr a && decide (e.ctx = ctx) && decide (a < e.hi) && decide (e.lo < a + n)

/-- The lanes whose access conflicts with the table: a load with a write entry, a store with any entry. -/
def State.lockConflicts (s : State) (hcl ctx : Nat) (store : Bool) (n : Nat) (lanes : List (Nat × Nat)) : Word :=
  maskOf ((lanes.filter (fun l =>
    (s.hcl hcl).locks.any (fun e => (store || e.write) && e.meets ctx l.2 n))).map (·.1))

/-! ### Places -/

/-- A device address seen through a class 3 record: in either half of an enabled published window, it lies at the same
offset in the working half (R264). -/
def Window.redirect (w : Window) (pa : Nat) : Option Nat :=
  let working := if w.p then w.half0 else w.half1
  if w.flags % 2 = 0 then none
  else if w.half0 ≤ pa ∧ pa < w.half0 + w.size then some (working + (pa - w.half0))
  else if w.half1 ≤ pa ∧ pa < w.half1 + w.size then some (working + (pa - w.half1))
  else none

def State.redirect (s : State) (cls : Nat) (l : Loc) : Loc :=
  match l with
  | .dev pa => if cls = 3 then .dev ((s.host.windows.findSome? (fun e => e.2.redirect pa)).getD pa) else l
  | _ => l

/-- The place of an address for a record of class `cls`: those of class 1 need no translation. -/
def State.resolve (s : State) (q : Asker) (cls a : Nat) (k : Access) : Xlat :=
  if cls = 1 then .hit (scrPlace a) else s.lookup q a k

def State.resolveAll (s : State) (q : Asker) (cls : Nat) (k : Access) : List Nat → XlatAll
  | [] => .places []
  | a :: rest => XlatAll.cons a (s.resolve q cls a k) (s.resolveAll q cls k rest)

/-- Ask for the walks that the missing translations need. -/
def State.askFor (s : State) (q : Asker) (cls : Nat) (k : Access) (as : List Nat) : State :=
  if cls = 1 then s else s.askWalks q k as

/-- What the checks and the translation of an access come to. -/
inductive Admit where
  | trap (r : Raised)
  /-- Walks were asked for; the instruction issues again. -/
  | miss (s : State)
  | go (accs : List LaneAcc)
  deriving DecidableEq, Repr

/-- Lanes with their translated places. -/
def laneAccs : List (Nat × Nat) → List (Option Loc) → List LaneAcc
  | (l, a) :: rest, p :: ps => { lane := l, va := a, loc := p } :: laneAccs rest ps
  | _, _ => []

/-- Translate the lanes of an access. -/
def State.translate (s : State) (q : Asker) (cls : Nat) (k : Access) (lanes : List (Nat × Nat)) : Admit :=
  match s.resolveAll q cls k (lanes.map (·.2)) with
  | .trap r va bad =>
    let ends (x : Xlat) : Bool := match x with
      | .page _ _ | .retired => true
      | _ => false
    let out := lanes.filter (fun l => ends (s.resolve q cls l.2 k))
    .trap { cause := if bad then causeUncorr else causePage, mask := maskOf (out.map (·.1 % 32)), reason := r, addr := va }
  | .miss => .miss (s.askFor q cls k (lanes.map (·.2)))
  | .places ps => .go (laneAccs lanes ps)

/-- The addresses of lanes by their logical offsets. -/
def Rec.addrs (r : Rec) (hcl : Nat) (lanes : List (Nat × Int)) : List (Nat × Nat) :=
  lanes.map (fun l => (l.1, r.addr hcl l.2.toNat))

/-- The checks of R153 against a limit, the range locks, and translation, for a load or a store through a record. -/
def State.vetIn (s : State) (who : Asker) (lim : Nat) (r : Rec) (q : Ask) (lanes : List (Nat × Int)) : Admit :=
  let as := r.addrs who.hcl lanes
  let locked := s.lockConflicts who.hcl who.ctx q.writes q.n as
  match r.checkIn lim q lanes with
  | some t => .trap t
  | none =>
    if locked ≠ 0 then .trap (raised causeRangelock locked)
    else s.translate who r.cls (if q.writes then .store else .load) as

/-- The same for the next lane instruction of a group, against `lim` of R153. -/
def State.vetAccess (s : State) (g : Nat) (slotB : Bool) (r : Rec) (q : Ask) (lanes : List (Nat × Int)) : Admit :=
  s.vetIn (s.streamAsker g slotB true) (r.limit s (hclOf g)) r q lanes

/-! ### Waiting on the group's other accesses -/

/-- An acquiring atomic, or a full/empty load, that has not completed holds back every later access (R258, R260). -/
def Group.acquiring (x : Group) : Bool :=
  x.loads.any (fun e => match e.kind with
    | .atomic _ _ _ _ _ acq _ _ => acq
    | .fullEmpty _ _ _ => true
    | _ => false)

/-- Side-log entries of a group. -/
def State.logOf (s : State) (g : Nat) : List LogEntry := (s.coreOfGroup g).sideLog.filter (fun e => e.g == g)

/-- A replayed reduction of the group has packets that are not executed yet. -/
def State.packetsOf (s : State) (g : Nat) : Bool := s.hcls.any (fun e => e.2.packets.any (fun p => p.g == g))

/-- Every access of the group that was issued is performed at device scope (R254): loads arrived, stores and reductions
made, and the side log replayed. -/
def State.accessesDone (s : State) (g : Nat) : Bool :=
  let x := s.group g
  x.loads.isEmpty && decide (x.storeCount = 0) && (s.logOf g).isEmpty && !s.packetsOf g

/-- Packets of the group's atomics numbered below `id` that no service group has executed (R258). -/
def State.packetsBefore (s : State) (g id : Nat) : Bool :=
  s.hcls.any (fun e => e.2.packets.any (fun p => p.g == g && decide (p.id < id)))

/-- The same of the accesses issued before number `id` (R258, R260). -/
def State.earlierDone (s : State) (g id : Nat) : Bool :=
  let x := s.group g
  !x.loads.any (fun e => decide (e.id < id)) && !x.stores.any (fun e => decide (e.id < id))
    && !x.feStores.any (fun e => decide (e.id < id)) && !x.storesOther.any (fun e => decide (e.1 < id) && !lineWaits e)
    && !(s.logOf g).any (fun e => decide (e.id < id)) && !s.packetsBefore g id

/-! ### Issuing loads and stores -/

/-- A load leaves: its entry, numbered; `seq` is its block's, or its own for a scalar access. -/
def Group.addLoad (x : Group) (kind : LoadKind) (accs : List LaneAcc) (hint cls : Nat) (seq : Nat) (site : TrapSite) :
    Group :=
  let e : LoadEntry := { id := x.seq, seq := seq, kind := kind, accs := accs, got := [], hint := hint, cls := cls,
                         slotB := site.slotB, site := site }
  { x.bump with loads := x.loads ++ [e] }

/-- A store enters the store queue. -/
def Group.addStore (x : Group) (kind : StoreKind) (hint seq : Nat) (slotB lane : Bool) : Group :=
  let e : StoreEntry := { id := x.seq, seq := seq, kind := kind, hint := hint, slotB := slotB, lane := lane }
  { x.bump with stores := x.stores ++ [e] }

/-- From now on the access of group `g` numbered `id` waits for what its instruction has met; `lane` and `slotB` tell the
stream (R345). -/
def State.handOver (s : State) (g : Nat) (slotB lane : Bool) (k : Access) (id : Nat) (accs : List LaneAcc) : State :=
  if accs.any (fun a => a.loc.isNone) then s.handWaits (.stream g slotB lane) (.access g id) k else s

/-- The store queue is full, or the store count stands at its largest (R19, R223). -/
def Group.storeFull (x : Group) : Bool := decide (32 ≤ x.stores.length) || decide (63 ≤ x.storeCount)

/-- The charge of a store (R225): 32 bytes for each distinct row-line written. -/
def rowLines (n : Nat) (as : List Nat) : List Nat := distinct (as.flatMap (fun a => (span a n).map (· / 32)))
def storeCharge (n : Nat) (as : List Nat) : Nat := 32 * (rowLines n as).length

/-! ### Leaving the store queue (R223, R346) -/

/-- Make one write at its place, for a group's store. -/
def State.makeWrite (s : State) (g ctx cls stream hint : Nat) (l : Loc) (bs : List Byte) : State :=
  match l with
  | .dev a =>
    let ws := (span a bs.length).zip bs
    let c := coreOf g
    let s := if cls = 3 then s.storeThrough ws else s.storeDev ws ctx stream hint
    let s := s.setCore c ((s.core c).l1Update ws)
    let x := s.group g
    if cls = 3 then s
    else s.setGroup g { x with dirtySectors := distinct (x.dirtySectors ++ ws.map (fun w => w.1 / 1024)) }
  | .host _ => (s.storeLoc none l bs ctx stream hint).setGroup g { s.group g with posted := true }
  | .scr _ _ => s.storeLoc none l bs ctx stream hint
  | .inv _ _ => s

/-- Make the writes of an entry that have their places, in order. A class 3 write is made in the half that is the working
one now (R264). -/
def makeWrites (g ctx hint : Nat) : List Write → State → State
  | [], s => s
  | w :: rest, s =>
    makeWrites g ctx hint rest (match w.loc with
      | some l => s.makeWrite g ctx w.cls w.stream hint (s.redirect w.cls l) w.data
      | none => s)

/-- DISCARD acts on one row-line (R228): where the LLC's copy differs from what memory holds, or was given up before, every
later read returns the one or the other until the line is stored to (assumption 6). -/
def State.discardLine (s : State) (line : Nat) : State :=
  match Sparse.find s.llc.discards line, s.sector? (line / 32) with
  | none, some _ =>
    { s with llc := { s.llc with discards := Sparse.put s.llc.discards line ((span (line * 32) 32).map s.mem.read) } }
  | _, _ => s

/-- The bytes of an entry that goes to the side log, or the lanes of its reduction; DISCARD gives up nothing on a page that
has faulted. -/
def StoreKind.logged : StoreKind → LogKind
  | .bytes ws => .bytes (ws.map (fun w => { w with loc := none }))
  | .discard _ _ => .bytes []
  | .reduce op ty rel ls => .reduce op ty rel (ls.map (fun l => (l.1.lane, l.1.va, l.2)))

/-- An entry that goes to the side log: it completes for the store class (R346). -/
def State.logStore (s : State) (g : Nat) (e : StoreEntry) : State :=
  let x := s.group g
  let c := s.coreOfGroup g
  let entry : LogEntry := { g := g, ctx := x.ident.ctx, id := e.id, seq := e.seq, kind := e.kind.logged, slotB := e.slotB,
                            ticket := x.ident.team.ticket }
  s.setCore (coreOf g) { c with sideLog := c.sideLog ++ [entry] }

/-- What comes before a store of the queue in the order of its stream (R250, R252, R258, R335): an earlier load or atomic
that is not performed, and before a lane store a full/empty store that waits. An atomic with .rel follows every earlier
access. -/
def State.storeFollows (s : State) (g : Nat) (e : StoreEntry) : Bool :=
  let x := s.group g
  let release : Bool := match e.kind with
    | .reduce _ _ rel _ => rel
    | _ => false
  let atomic : Bool := match e.kind with
    | .reduce _ _ _ _ => true
    | _ => false
  x.loads.any (fun l => decide (l.id < e.id) && l.site.lane == e.lane)
    || (e.lane && !atomic && s.packetsBefore g e.id)
    || (e.lane && x.feStores.any (fun f => decide (f.id < e.id)))
    || (release && !s.earlierDone g e.id)

/-! ### What a load sees (R158, R218) -/

/-- A place as the offset in a device, a host or a scratch space: byte `k` of a write that starts at the first place is the
byte at the second. -/
def Loc.since : Loc → Loc → Option Nat
  | .dev a, .dev b => if a ≤ b then some (b - a) else none
  | .host a, .host b => if a ≤ b then some (b - a) else none
  | .scr c a, .scr d b => if c = d ∧ a ≤ b then some (b - a) else none
  | _, _ => none

/-- The byte of a write at a place. -/
def State.writtenByte (s : State) (l : Loc) (w : Write) : Option Byte :=
  match w.loc with
  | none => none
  | some p => ((s.redirect w.cls p).since l).bind (fun k => w.data[k]?)

/-- The newest of the group's own queued stores older than load `id` that covers the byte at a place: its number and the byte. -/
def State.queuedByte (s : State) (l : Loc) (id : Nat) : List StoreEntry → Option (Nat × Byte)
  | [] => none
  | e :: rest =>
    match s.queuedByte l id rest with
    | some b => some b
    | none =>
      match e.kind with
      | .discard _ _ => none
      | .reduce _ _ _ _ => none
      | .bytes ws => if id ≤ e.id then none else (ws.reverse.findSome? (s.writtenByte l)).map (e.id, ·)

/-- The lanes of VSTE and VSTF of group `g` that have not written a scratchpad word yet: number of the store, lane and data. -/
def State.wordsAhead (s : State) (g core word : Nat) : List (Nat × Nat × Word) :=
  (s.group g).feStores.flatMap (fun e =>
      (e.ahead.filter (fun a => decide (e.op < 4) && decide ((a.2.1 - 2 ^ 60) / 2 ^ 21 = core) && decide (a.2.1 % 2 ^ 21 / 4 = word))).map
        (fun a => (e.id, a.1, a.2.2)))
    ++ ((s.core core).waiters.filter (fun w => w.g == g && w.word == word && (w.op == 2 || w.op == 3))).map (fun w => (w.id, w.lane, w.data))

/-- The newest of those older than load `id` that covers the byte at a place; of the lanes of one store, the highest. -/
def State.aheadByte (s : State) (g : Nat) (l : Loc) (id : Nat) : Option (Nat × Byte) :=
  match l with
  | .scr c a =>
    let later (x y : Nat × Nat × Word) : Nat × Nat × Word := if x.1 < y.1 ∨ (x.1 = y.1 ∧ x.2.1 < y.2.1) then y else x
    match (s.wordsAhead g c (a / 4)).filter (fun w => decide (w.1 < id)) with
    | [] => none
    | w :: rest => let n := rest.foldl later w; some (n.1, n.2.2.extractLsb' (8 * (a % 4)) 8)
  | _ => none

/-- The byte at a place that the newest of group `g`'s own stores before load `id` has not written yet (R158). -/
def State.ownByte (s : State) (g : Nat) (l : Loc) (id : Nat) : Option Byte :=
  match s.queuedByte l id (s.group g).stores, s.aheadByte g l id with
  | none, none => none
  | some q, none => some q.2
  | none, some w => some w.2
  | some q, some w => some (if q.1 < w.1 then w.2 else q.2)

/-- Ranges of addresses, each with its length, meet the `n` bytes at some address. -/
def rangesMeet (n : Nat) (as : List Nat) (ws : List (Nat × Nat)) : Bool :=
  ws.any (fun w => as.any (fun a => decide (w.1 < a + n) && decide (a < w.1 + w.2)))

/-- Ranges that a side-log entry writes. -/
def LogKind.ranges : LogKind → List (Nat × Nat)
  | .bytes ws => ws.map (fun w => (w.va, w.data.length))
  | .reduce _ ty _ ls => ls.map (fun l => (l.2.1, elemBits ty / 8))

/-- Ranges that a queued store writes with values that no load of the group can see yet: those that wait for their page or
for their reduction. -/
def StoreKind.hiddenRanges : StoreKind → List (Nat × Nat)
  | .bytes ws => (ws.filter (fun w => w.loc.isNone)).map (fun w => (w.va, w.data.length))
  | .discard _ _ => []
  | .reduce _ ty _ ls => ls.map (fun l => (l.1.va, elemBits ty / 8))

/-- Ranges that an update of VOPT is to write. -/
def LoadKind.updates : LoadKind → List (Nat × Nat)
  | .opt _ _ _ _ _ ws => ws.map (fun w => (w.2.va, 4))
  | _ => []

/-- A byte that a load's access covers is to be written by an earlier store of the group whose value it cannot have yet: one
in the side log (R261), one that waits for its page or its reduction, or one of a VOPT that waits. -/
def State.loggedBytes (s : State) (g : Nat) (id : Nat) (as : List Nat) (n : Nat) : Bool :=
  (s.logOf g).any (fun e => decide (e.id < id) && rangesMeet n as e.kind.ranges)
    || (s.group g).stores.any (fun e => decide (e.id < id) && rangesMeet n as e.kind.hiddenRanges)
    || (s.group g).loads.any (fun e => decide (e.id < id) && rangesMeet n as e.kind.updates)

/-- The byte at a place for load `id` of a group: its own queued store's, or memory's as the class lets it be cached. A class
3 access is made in the working half (R264). -/
def State.loadByte (s : State) (g id cls : Nat) (column : Bool) (l : Loc) : Byte :=
  let p := s.redirect cls l
  match s.ownByte g p id with
  | some b => b
  | none => if cls = 3 ∨ column = true then s.locByte p else s.locByteAt (coreOf g) p

/-- A place whose byte the load would read from a poisoned sector (R366): not its own store's and not its L1's. -/
def State.loadPoisoned (s : State) (g id cls : Nat) (column : Bool) (l : Loc) : Bool :=
  match s.redirect cls l with
  | .dev a => s.poisoned a && (s.ownByte g (.dev a) id).isNone
      && (decide (cls = 3) || column || ((s.coreOfGroup g).l1Line (a / 128)).isNone)
  | _ => false

/-- One lane of a gather packet (R232), whose bytes no L1 line holds: it is served by a sector that holds its line, or by
the stack, where it counts once (R244); nothing is allocated, in the LLC or in the cache layer. A present sector notes the
access's axis (R220). -/
def State.gatherLane (s : State) (hint n pa : Nat) : State :=
  let k := pa / 1024
  match s.sector? k with
  | some x =>
    let hit := (span (pa % 1024) n).all (fun o => x.valid.getLsbD (lineOf x.col o))
    let s := if hit then s else s.ctlRead k (if hint = 3 then 3 else 1)
    ((s.filledBy k hint x false).setSector k (x.record s.mem k false)).useSector k (hint == 2)
  | none => s.ctlRead k (if hint = 3 then 3 else 1)

/-- A load whose lanes go as gather packets (R232): present L1 lines are used, the other lanes are gathered. -/
def State.gather (s : State) (core hint n : Nat) (pas : List Nat) : State :=
  let absent := pas.filter (fun a => ((s.core core).l1Line (a / 128)).isNone)
  let s := (distinct ((pas.filter (fun a => !absent.contains a)).map (· / 128))).foldl
    (fun s line => s.setCore core ((s.core core).l1Use line hint)) s
  let s := (distinct (absent.map (· / 128))).foldl (fun s line => s.setCore core ((s.core core).l1Miss line)) s
  (absent.foldl (fun s a => s.gatherLane hint n a) s).noteRead

/-- What the load does to the caches (R217): classes 0, 2 and 4 pass the L1 and the LLC, VLDT the LLC alone as a column
access; class 3 and host memory pass neither. `flat`: a VLD of at most 8 bytes, which is gathered where its lanes touch
more than four sectors through a class 0 record (R232). -/
def State.loadCaches (s : State) (g cls hint n : Nat) (column flat : Bool) (places : List Loc) : State :=
  let starts := (places.map (s.redirect cls)).filterMap (fun l => match l with
    | .dev a => some a
    | _ => none)
  let pas := starts.flatMap (fun a => span a n)
  if cls = 3 then ((distinct (pas.map (· / 1024))).foldl (fun s k => s.ctlRead k 3) (s.l1Forget (coreOf g) pas)).noteRead
  else if column then (s.l1Forget (coreOf g) pas).loadTouch pas true hint
  else if cls = 0 ∧ flat = true ∧ 4 < (distinct (pas.map (· / 1024))).length then s.gather (coreOf g) hint n starts
  else (distinct (pas.map (· / 128))).foldl (fun s line => s.l1Touch (coreOf g) line hint) s

end Sys2Proof.Machine
end

