-- ==== Sys2Proof/Machine/Fetch.lean ====
section
/-! DEFINITION. Fetching the next instruction of a stream (R12, R14, R32, R239, R345), which path slot or lane queue is
ready, and which agent moves when no turn is given. -/

namespace Sys2Proof.Machine

/-- What a turn of a stream comes to: an instruction to execute, or a state in which the turn is over. -/
inductive Fetched where
  | run (i : Instr) (s : State)
  | reduce (k : LateReduce) (f : LM) (s : State)
  | done (s : State)
  deriving DecidableEq, Repr

/-- The bytes of an instruction at a virtual address, as translated for fetch. -/
inductive FetchBytes where
  | bytes (bs : List Byte)
  | miss
  | wait
  | trap (reason : Nat) (va : Nat) (uncorr : Bool)
  deriving DecidableEq, Repr

/-- The code byte at a place: code in device memory is read at its home. -/
def State.codeBytes (s : State) : List (Option Loc) → Option (List Byte)
  | [] => some []
  | none :: _ => none
  | some l :: rest =>
    match s.codeBytes rest with
    | some bs => some (s.locByte l :: bs)
    | none => none

/-- Fetch `n` bytes at `va` for a stream (R239): instruction fetch needs X. -/
def State.fetchBytes (s : State) (q : Asker) (va n : Nat) : FetchBytes :=
  match s.lookupAll q .fetch (span va n) with
  | .miss => .miss
  | .trap r a u => .trap r a u
  | .places ls =>
    if ls.any (fun l => match l with
        | some (.dev a) => s.poisoned a
        | _ => false) then .trap 13 va true
    else
      match s.codeBytes ls with
      | some bs => .bytes bs
      | none => .wait

/-- What a fetch does to the LLC: a row access of the sectors it reads (R220). -/
def State.fetchTouch (s : State) (q : Asker) (va n : Nat) : State :=
  match s.lookupAll q .fetch (span va n) with
  | .places ls => s.loadTouch (ls.filterMap (fun l => match l with
      | some (.dev a) => some a
      | _ => none)) false 0
  | _ => s

/-- A fetch that cannot complete: walks are asked for, the slot waits, or the context ends (R237, R345, R366). -/
def State.fetchFails (s : State) (g va n : Nat) (q : Asker) (site : TrapSite) : FetchBytes → State
  | .bytes _ => s
  | .miss => s.askWalks q .fetch (span va n)
  | .wait => s
  | .trap r a u =>
    s.takeTrap g (if u then uncorrTrap site 0 13 a else pageTrap site 0 r a) site.pc

/-- A path slot may issue: it holds a part, does not sleep, is not paused by a handler in the other slot, and no pending trap
is to be delivered first (R115, R336, R340). -/
def State.slotReady (s : State) (g : Nat) (slotB : Bool) : Bool :=
  let x := s.group g
  let y := x.slot slotB
  x.resident && y.live && (match y.sleep with
      | some t => decide (t ≤ s.ck)
      | none => true)
    && (if x.inHandler then x.handlerSlotB == slotB else x.pending.isEmpty)

/-- A turn of a path slot: fetch the word at its pc and decode it. A word that is no instruction raises ILLEGAL (R55). -/
def State.scalarTurn (s : State) (g : Nat) (slotB : Bool) : Fetched :=
  let s := { s with cur := { g := g, slotB := slotB } }
  if !s.slotReady g slotB then .done s
  else
    let pc := s.sl.pc
    let q := s.streamAsker g slotB false
    match s.fetchBytes q pc.toNat 4 with
    | .bytes bs =>
      let s := s.fetchTouch q pc.toNat 4
      match decodeScalar (leNat bs) with
      | .ok i => .run i s
      | .error _ => .done (s.trapWord (BitVec.ofNat 32 (leNat bs)) causeIllegal 0 0)
    | r => .done (s.fetchFails g pc.toNat 4 q (s.scalarSite 0) r)

/-- Where a lane instruction of a block trapped: `w` holds its 96 bits. -/
def Group.laneSite (x : Group) (b : Block) (w : Nat) : TrapSite :=
  { slotB := b.slotB, lane := true, pc := b.lrunPc, lanePc := x.lanePc b, w0 := BitVec.ofNat 32 w,
    w1 := BitVec.ofNat 32 (w / 2 ^ 32), w2 := BitVec.ofNat 32 (w / 2 ^ 64) }

/-- A block marked .drain waits at its first instruction until every register result of earlier blocks has been written
(R44). -/
def State.drainWaits (s : State) (g : Nat) (b : Block) : Bool :=
  let x := s.group g
  b.drain && b.next == b.index * 12
    && (x.loads.any (fun e => decide (e.seq < b.seq)) || x.draining.any ((s.coreOfGroup g).blockBusy g))

/-- An instruction counted in the load class (R19). -/
def countsAsLoad : Instr → Bool
  | .vld _ | .vldt _ | .vldb _ | .vldf _ | .vldfk _ | .vrld _ => true
  | .vatomAdd _ | .vatomMin _ | .vatomMax _ | .vatomAnd _ | .vatomOr _ | .vatomXor _ | .vatomXchg _ | .vatomCas _
  | .vatomFadd _ | .vatomAiadd _ => true
  | .voptAdamw _ | .voptAdam _ | .voptLion _ | .voptSgd _ => true
  | .vlalLeaf _ | .vlalNode _ | .vlkp _ => true
  | _ => false

/-- A group holds the core's load quota (R204): fewer than Q resident groups of its core are older. -/
def State.holdsQuota (s : State) (g : Nat) : Bool :=
  let age := (s.group g).age
  let older := s.groups.filter (fun e => e.2.resident && coreOf e.1 == coreOf g
    && (decide (e.2.age < age) || (decide (e.2.age = age) && decide (e.1 < g))))
  decide (older.length < (s.coreOfGroup g).quota)

/-- A turn of a lane queue: fetch and decode the next instruction of its head block (R16). A lane pc at the end of the
lane code raises ILLEGAL there (R14); no instruction stands at it, and TIW0 to TIW2 are 0 (assumption 132). -/
def State.laneTurn (s : State) (g : Nat) : Fetched :=
  let x := s.group g
  match x.headBlock with
  | none => .done s
  | some b =>
    let s := { s with cur := { g := g, slotB := b.slotB } }
    if s.drainWaits g b then .done s
    else if x.ident.laneSize ≤ b.next then
      .done (s.takeTrap g { cause := causeIllegal, mask := 0, code := 0, reason := 0, addr := 0,
                            site := x.laneSite b 0 } s.sl.pc)
    else
      let pc := x.lanePc b
      let q := s.streamAsker g b.slotB true
      match s.fetchBytes q pc.toNat 12 with
      | .bytes bs =>
        let s := s.fetchTouch q pc.toNat 12
        match readLane (leNat bs) with
        | .ok (.instr i) => if countsAsLoad i && !s.holdsQuota g then .done s else .run i s
        | .ok (.reduce k f) => .reduce k f s
        | .error _ =>
          .done (s.takeTrap g { cause := causeIllegal, mask := 0, code := 0, reason := 0, addr := 0,
                                site := x.laneSite b (leNat bs) } s.sl.pc)
      | r => .done (s.fetchFails g pc.toNat 12 q (x.laneSite b 0) r)

/-- A load that LOAD_DATA_RETURN moves on: full/empty loads complete by other events, a VATOM once sent too. -/
def LoadEntry.ready (e : LoadEntry) : Bool :=
  match e.kind with
  | .atomic _ _ _ _ _ _ _ _ => !e.accs.isEmpty
  | .fullEmpty _ _ _ => false
  | _ => true

/-- A completion that is due: the events of the same names. -/
inductive Due where
  | trap (g : Nat)
  | sleep (g : Nat) (slotB : Bool)
  | walk (k : Nat)
  | load (g k : Nat)
  | store (g : Nat)
  | matrix (core residue : Nat)
  | batch (g : Nat)
  | packet (hcl : Nat)
  | credit (team : TeamKey)
  | quota (core : Nat)
  | place (hcl : Nat)
  | timeout (g : Nat) (slot : Option Bool)
  | fullEmpty (g : Nat)
  | posted (g : Nat)
  | retry (g : Nat) (ticket : Word)
  | copyStart (hcl ticket : Nat)
  | copyRetire (hcl ticket : Nat)
  | copyOut (hcl ticket : Nat)
  | node (die ticket node : Nat)
  | launch (ticket : Nat)
  | limit (ctx : Nat)
  | command
  | hostRecord (record : List Byte)
  | dispatch
  | reclaim
  | coll (c ticket : Nat)
  | chunk (port : Nat)
  | pull
  | invalidate
  | region (k : Nat)
  | secure (g : Nat)
  | adoption
  | ack (port : Nat)
  | beacon
  | monitor (dir : Nat)
  | hot
  deriving DecidableEq, Repr

/-- What can move when no turn is given: a stream or a completion. -/
inductive Mover where
  | stream (t : Turn)
  | due (d : Due)
  deriving DecidableEq, Repr

/-- A must-deliver record is to be sent again now (R405). -/
def TicketSlot.retryDue (now : Nat) (x : TicketSlot) : Bool :=
  match x.retryAt with
  | some t => decide (t ≤ now)
  | none => false

/-- The completions of one group. -/
def Group.dues (x : Group) (g : Nat) (now : Nat) : List Due :=
  (if !x.pending.isEmpty && !x.inHandler then [Due.trap g] else [])
    ++ ([false, true].filter (fun b => match (x.slot b).sleep with
        | some t => decide (t ≤ now)
        | none => false)).map (fun b => Due.sleep g b)
    ++ (x.loads.filter LoadEntry.ready).map (fun l => Due.load g l.id)
    ++ (if x.stores.isEmpty && x.feStores.all (fun f => f.ahead.isEmpty) then [] else [Due.store g])
    ++ (if x.inFlight.isEmpty then [] else [Due.batch g])
    ++ ([false, true].filter (fun b => match (x.slot b).wait with
        | .credit _ _ => true
        | _ => false)).map (fun b => Due.timeout g (some b))
    ++ (if x.laneWait.isSome then [Due.timeout g none] else [])
    ++ (if x.posted then [Due.posted g] else [])
    ++ (x.tickets.filter (fun t => t.retryDue now)).map (fun t => Due.retry g t.ticket)
    ++ (if x.resident && decide (x.csr.secpol.toNat % 4 ≠ 0) && decide (x.secAt < now / 2000) then [Due.secure g] else [])

/-- A copy engine's commands: to start, to walk, or to retire (R312, R281, R317). -/
def CopyCmd.due (hcl : Nat) (c : CopyCmd) : Due :=
  if c.status.isSome then .copyRetire hcl c.ticket
  else if !c.started then .copyStart hcl c.ticket
  else
    match c.kind with
    | .cpy => .copyRetire hcl c.ticket
    | .caout => if c.early.isSome then .copyRetire hcl c.ticket else .copyOut hcl c.ticket

/-- What a graph waits for its walker to do, and the records of its nodes that are to be sent again (R318 to R320). -/
def Graph.dues (die now : Nat) (x : Graph) : List Due :=
  let at_ (i : Nat) : List Due := match x.nodes[i]? with
    | none => []
    | some n =>
      (match n.stage with
        | .starting | .ended => [Due.node die x.ticket i]
        | _ => []) ++ (match n.slot with
        | some t => if t.retryDue now then [Due.retry 0 t.ticket] else []
        | none => [])
  if !x.loaded || x.nodes.all (fun n => match n.stage with
      | .done => true
      | _ => false) then [Due.node die x.ticket 0] else (List.range x.nodes.length).flatMap at_

/-- A launch whose header is to be checked, or which is over (R193, R194). -/
def Launch.due (l : Launch) : Bool :=
  !l.checked || l.status.isSome || decide (l.retired = l.record.gx * l.record.gy * l.record.gz)

/-- The periods of 20 µs of the membership engine that are over (R415). -/
def Member.dues (m : Member) (now : Nat) : List Due :=
  if m.flags % 2 = 0 then []
  else
    (if m.state = 2 ∧ m.beaconAt < now / 40000 then [Due.beacon] else [])
      ++ (if m.devId.toNat % 8192 < 4096 then
          ((List.range 6).filter (fun d => decide ((Sparse.get MonitorState.idle m.monitors d).window < now / 40000))).map Due.monitor
        else [])

/-- The completions of the engines that serve the whole part. -/
def State.engineDues (s : State) : List Due :=
  s.hcls.flatMap (fun e => e.2.copyQueue.map (CopyCmd.due e.1))
    ++ s.dies.flatMap (fun e => e.2.graphs.flatMap (Graph.dues e.1 s.ck))
    ++ (s.sched.launches.filter Launch.due).map (fun l => Due.launch l.ticket)
    ++ (s.sched.preempt.filter (fun e => e.2 == 1)).map (fun e => Due.limit e.1)
    ++ s.inv.submitted.map (fun e => Due.hostRecord e.2)
    ++ (if [s.inv.queue0, s.inv.queue1, s.inv.queue2, s.inv.queue3].any (fun q => q.any (fun i => !i.held)) then [Due.dispatch]
        else [])
    ++ (if s.dir.reclaim.isEmpty then [] else [Due.reclaim])
    ++ s.coll.flying.map (fun x => Due.coll x.comm x.ticket)
    ++ (if s.coll.flying.isEmpty then [] else (s.fabric.ports.filter (fun p => decide (2 ≤ p.2.state))).map (fun p => Due.chunk p.1))
    ++ (match s.dir.pulls with
      | p :: _ => if !p.running || p.todo.isEmpty then [Due.pull] else []
      | [] => [])
    ++ (if s.vm.invcmd.getLsbD 31 then [Due.invalidate] else [])
    ++ (s.vm.regions.filter (fun e => e.2.status == 1)).map (fun e => Due.region e.1)
    ++ (if s.member.state = 1 then [Due.adoption] else [])
    ++ (s.fabric.ports.filter (fun p => p.2.ackLate s.ck)).map (fun p => Due.ack p.1)
    ++ s.member.dues s.ck

/-- The windows of fixed length that have ended: of the teams' store budgets (R225) and of the cores' load quotas (R204). -/
def State.windowsOver (s : State) : List Due :=
  s.sched.clusters.flatMap (fun c =>
      (c.teams.filter (fun t => decide (t.windowStart + 2000 ≤ s.ck))).map (fun t => Due.credit t.key))
    ++ (s.cores.filter (fun e => decide (e.2.window + s.arithTime 1024 ≤ s.ck))).map (fun e => Due.quota e.1)

/-- Everything that could move beside them: walks, each group's completions, side logs, engines and packets. -/
def State.dues (s : State) : List Due :=
  (List.range s.vm.walks.length).map Due.walk
    ++ s.groups.flatMap (fun e => e.2.dues e.1 s.ck)
    ++ s.cores.flatMap (fun e => e.2.sideLog.map (fun l => Due.store (l.g % 2 ^ 20)))
    ++ (s.cores.filter (fun e => !e.2.engine.isEmpty)).map (fun e => Due.matrix e.1 0)
    ++ (s.hcls.filter (fun e => !e.2.packets.isEmpty)).map (fun e => Due.packet e.1)
    ++ s.cores.flatMap (fun e => e.2.waiters.map (fun w => Due.fullEmpty w.g))
    ++ (s.hcls.filter (fun e => !e.2.tasks.isEmpty)).map (fun e => Due.place e.1)
    ++ (if s.hot.over s.ck then [Due.hot] else [])
    ++ (if s.sched.precmd.getLsbD 31 then [Due.command] else [])
    ++ s.engineDues

/-- The streams that could issue: each resident group's lane queue, then its slots A and B. -/
def State.streams (s : State) : List Turn :=
  (s.groups.filter (·.2.resident)).flatMap (fun e =>
    (if e.2.headBlock.isSome then [Turn.lane e.1] else [])
      ++ (if s.slotReady e.1 false then [Turn.scalar e.1 false] else [])
      ++ (if s.slotReady e.1 true then [Turn.scalar e.1 true] else []))

/-- Who moves when no turn is given (assumption 2): a window that has ended, else the completions and the streams in
rotation, else nobody and time passes. -/
def State.defaultMover (s : State) : Mover :=
  match s.windowsOver with
  | d :: _ => .due d
  | [] =>
    let l := s.dues.map Mover.due ++ s.streams.map Mover.stream
    l.getD (s.ck % Nat.max 1 l.length) (.stream .pass)

/-! ### Placing an instruction to be fetched next -/

/-- The mapping used when no region maps the code: the first GiB, identity matrix, stack 0, layer 0. -/
def codeMap : RegionMap :=
  { base := 0, limit := 2 ^ 30, rows := (List.range 30).map (fun i => BitVec.ofNat 32 (2 ^ i)),
    slots := List.replicate 256 0 }

/-- A group with its state at start (R30), for code at fixed addresses of context 0: all 256 registers, lane code of
12 × 2^20 bytes. -/
def codeGroup : Group :=
  { Group.vacant with
    resident := true,
    ident := { Ident.vacant with scalarEntry := 0x10000, lcb := 0x20000, laneSize := 12 * 2 ^ 20 },
    csr := { Csrs.start with budget := 32 },
    slotA := { Slot.free with live := true, pc := 0x10000, xm := fullMask, lanes := fullMask } }

/-- The block that a placed lane instruction belongs to: all lanes, the first block of the lane code. -/
def codeBlock : Block :=
  { seq := 0, index := 0, next := 0, mask := fullMask, part := 4, frm := 0, fpe := 0, args := List.replicate 16 0,
    slotB := false, lrunPc := 0x10000, drain := false, trap := false }

/-- The group that fetches next: the issuing group, or a fresh one where it is not resident; for a lane instruction its
queue has a head. -/
def Group.fetching (x : Group) (slotB lane : Bool) : Group :=
  let x := if x.resident then x else codeGroup
  let y := x.slot slotB
  let x := if y.live then x.setSlot slotB { y with sleep := Option.none }
           else x.setSlot slotB { codeGroup.slotA with pc := x.ident.scalarEntry }
  if lane ∧ x.headBlock.isNone then { x with blocks := [codeBlock], heldLane := false } else x

/-- The physical address that code bytes are placed at, and the mapping and translation that fetch needs. -/
def State.mapCode (s : State) (g va n : Nat) : State :=
  let pages := distinct ((span va n).map (· / 65536))
  let ctx := (s.group g).ident.ctx
  let s := if s.mapped 0 then s else s.setRegion 0 { s.region 0 with active := codeMap }
  pages.foldl (fun s p =>
    let e : TlbEntry := { hcl := hclOf g, ctx := ctx, va := p * 65536, size := 65536, base := p % 2 ^ 14 * 65536, host := false,
                          read := true, write := true, exec := true, dirtyOk := true }
    { s with vm := { s.vm with tlb := e :: s.vm.tlb } }) s

/-- `s` with the bytes of an instruction where group `s.cur.g` fetches its next scalar or lane instruction. -/
def State.placeCode (s : State) (lane : Bool) (bs : List Byte) : State :=
  let g := s.cur.g
  let s := s.setGroup g ((s.group g).fetching s.cur.slotB lane)
  let x := s.group g
  let va := if lane then (match x.headBlock with
      | some b => (x.lanePc b).toNat
      | none => 0)
    else (x.slot s.cur.slotB).pc.toNat
  let s := s.mapCode g va bs.length
  let put (m : Memory) (w : Nat × Byte) : Memory := Memory.write m (w.1 % 2 ^ 30) w.2
  let s := ((span va bs.length).map (fun a => a % 2 ^ 30 / 1024)).foldl State.dropSector s
  { s with mem := ((span va bs.length).zip bs).foldl put s.mem,
           turns := (if lane then Turn.lane g else Turn.scalar g s.cur.slotB) :: s.turns }

end Sys2Proof.Machine
end

