-- ==== Sys2Proof/Machine/ScalarAlu.lean ====
section
/-! DEFINITION. The scalar ALU group, the immediate majors and the mask group (R101 to R105). -/

namespace Sys2Proof.Machine

/-- Leading zero bits of a `w`-bit value. -/
def clzNat (w x : Nat) : Nat := if x = 0 then w else w - 1 - Nat.log2 x

/-- The low `n` bits of a value, reversed. -/
def revNat : Nat → Nat → Nat
  | 0, _ => 0
  | n + 1, x => (x % 2) * 2 ^ n + revNat n (x / 2)

/-- The index of the lowest 1 bit among bits `i` to `i + n - 1`, else `d`. -/
def firstOne (d : Nat) : Nat → Nat → Nat → Nat
  | 0, _, _ => d
  | n + 1, i, x => if x % 2 = 1 then i else firstOne d n (i + 1) (x / 2)

/-- 1 or 0. -/
def flagWord (b : Bool) : Word := if b then 1 else 0

/-- Signed quotient rounded towards zero (R103): all ones for a zero divisor. -/
def divS (a b : Word) : Word := if b = 0 then 0xFFFFFFFF else a.sdiv b
/-- Unsigned quotient (R103). -/
def divU (a b : Word) : Word := if b = 0 then 0xFFFFFFFF else a / b
/-- Signed remainder with the sign of `a` (R103). -/
def remS (a b : Word) : Word := if b = 0 then a else a.srem b
/-- Unsigned remainder (R103). -/
def remU (a b : Word) : Word := if b = 0 then a else a % b

/-- The high half of the signed 64-bit product. -/
def mulHighS (a b : Word) : Word := (a.signExtend 64 * b.signExtend 64).extractLsb' 32 32
/-- The high half of the unsigned 64-bit product. -/
def mulHighU (a b : Word) : Word := (a.setWidth 64 * b.setWidth 64).extractLsb' 32 32

/-- A shift count: the low five bits. -/
def count5 (b : Word) : Nat := b.toNat % 32

/-- A scalar instruction that reads and writes registers of the issuing group: it waits while an outstanding SLD of its
slot still writes a register it names (R100), and otherwise changes the group and goes on. -/
def onRegs (rs : List SReg) (f : Group → Group) (s : State) : Res :=
  if s.me.pendingS s.cur.slotB (rs.map (·.toNat)) then stall s else retire (s.setMe (f s.me))

/-- sd := f a b. -/
def alu2 (f : Word → Word → Word) (d a b : SReg) (s : State) : Res :=
  onRegs [d, a, b] (fun x => x.ws d.toNat (f (x.rs a.toNat) (x.rs b.toNat))) s

/-- sd := f a. -/
def alu1 (f : Word → Word) (d a : SReg) (s : State) : Res :=
  onRegs [d, a] (fun x => x.ws d.toNat (f (x.rs a.toNat))) s

/-- The two registers of a pair. -/
def pairOf (r : SReg) : List SReg := [r, r + 1]

/-- Pair sd:sd+1 := f A B over pairs. -/
def aluPairs (f : Dword → Dword → Dword) (d a b : SReg) (s : State) : Res :=
  onRegs (pairOf d ++ pairOf a ++ pairOf b)
    (fun x => x.ws64 d.toNat (f (x.rs64 a.toNat) (x.rs64 b.toNat))) s

/-- Pair sd:sd+1 := A shifted by the low six bits of a single register. -/
def aluShift64 (f : Dword → Nat → Dword) (d a b : SReg) (s : State) : Res :=
  onRegs (pairOf d ++ pairOf a ++ [b])
    (fun x => x.ws64 d.toNat (f (x.rs64 a.toNat) ((x.rs b.toNat).toNat % 64))) s

def execNop (s : State) : Res := retire s
def execAdd (d a b : SReg) (s : State) : Res := alu2 (· + ·) d a b s
def execSub (d a b : SReg) (s : State) : Res := alu2 (· - ·) d a b s
def execMul (d a b : SReg) (s : State) : Res := alu2 (· * ·) d a b s
def execMulh (d a b : SReg) (s : State) : Res := alu2 mulHighS d a b s
def execMulhn (d a b : SReg) (s : State) : Res := alu2 mulHighU d a b s
def execDiv (d a b : SReg) (s : State) : Res := alu2 divS d a b s
def execDivn (d a b : SReg) (s : State) : Res := alu2 divU d a b s
def execRem (d a b : SReg) (s : State) : Res := alu2 remS d a b s
def execRemn (d a b : SReg) (s : State) : Res := alu2 remU d a b s
def execAnd (d a b : SReg) (s : State) : Res := alu2 (· &&& ·) d a b s
def execOr (d a b : SReg) (s : State) : Res := alu2 (· ||| ·) d a b s
def execXor (d a b : SReg) (s : State) : Res := alu2 (· ^^^ ·) d a b s
def execAndn (d a b : SReg) (s : State) : Res := alu2 (fun x y => x &&& ~~~y) d a b s
def execShl (d a b : SReg) (s : State) : Res := alu2 (fun x y => x <<< count5 y) d a b s
def execShr (d a b : SReg) (s : State) : Res := alu2 (fun x y => x >>> count5 y) d a b s
def execSar (d a b : SReg) (s : State) : Res := alu2 (fun x y => x.sshiftRight (count5 y)) d a b s
def execRotl (d a b : SReg) (s : State) : Res := alu2 (fun x y => x.rotateLeft (count5 y)) d a b s
def execMin (d a b : SReg) (s : State) : Res := alu2 (fun x y => if x.slt y then x else y) d a b s
def execMax (d a b : SReg) (s : State) : Res := alu2 (fun x y => if x.slt y then y else x) d a b s
def execMinn (d a b : SReg) (s : State) : Res := alu2 (fun x y => if x.ult y then x else y) d a b s
def execMaxn (d a b : SReg) (s : State) : Res := alu2 (fun x y => if x.ult y then y else x) d a b s
def execSeq (d a b : SReg) (s : State) : Res := alu2 (fun x y => flagWord (x == y)) d a b s
def execSne (d a b : SReg) (s : State) : Res := alu2 (fun x y => flagWord (x != y)) d a b s
def execSlt (d a b : SReg) (s : State) : Res := alu2 (fun x y => flagWord (x.slt y)) d a b s
def execSltn (d a b : SReg) (s : State) : Res := alu2 (fun x y => flagWord (x.ult y)) d a b s
def execSle (d a b : SReg) (s : State) : Res := alu2 (fun x y => flagWord (x.sle y)) d a b s
def execSlen (d a b : SReg) (s : State) : Res := alu2 (fun x y => flagWord (x.ule y)) d a b s
def execClz (d a : SReg) (s : State) : Res := alu1 (fun x => BitVec.ofNat 32 (clzNat 32 x.toNat)) d a s
def execPopc (d a : SReg) (s : State) : Res := alu1 (fun x => BitVec.ofNat 32 (popNat 32 x.toNat)) d a s
def execBrev (d a : SReg) (s : State) : Res := alu1 (fun x => BitVec.ofNat 32 (revNat 32 x.toNat)) d a s
def execAdd64 (d a b : SReg) (s : State) : Res := guarded (.add64 d a b) s (aluPairs (· + ·) d a b)
def execSub64 (d a b : SReg) (s : State) : Res := guarded (.sub64 d a b) s (aluPairs (· - ·) d a b)
def execShl64 (d a b : SReg) (s : State) : Res := guarded (.shl64 d a b) s (aluShift64 (fun x n => x <<< n) d a b)
def execShr64 (d a b : SReg) (s : State) : Res := guarded (.shr64 d a b) s (aluShift64 (fun x n => x >>> n) d a b)
def execSar64 (d a b : SReg) (s : State) : Res :=
  guarded (.sar64 d a b) s (aluShift64 (fun x n => x.sshiftRight n) d a b)
def execMovp (d a : SReg) (s : State) : Res :=
  guarded (.movp d a) s (onRegs (pairOf d ++ pairOf a) (fun x => x.ws64 d.toNat (x.rs64 a.toNat)))
def execSelz (d a b : SReg) (s : State) : Res := alu2 (fun x y => if y ≠ 0 then x else 0) d a b s

/-! ### Immediates (R34, R104) -/

/-- imm14 as ADDI, SLTI, SLTNI and MULI take it. -/
def immS (i : BitVec 14) : Word := i.signExtend 32
/-- imm14 as ANDI, ORI and XORI take it. -/
def immZ (i : BitVec 14) : Word := i.setWidth 32

def execAddi (d a : SReg) (i : BitVec 14) (s : State) : Res := alu1 (· + immS i) d a s
def execAndi (d a : SReg) (i : BitVec 14) (s : State) : Res := alu1 (· &&& immZ i) d a s
def execOri (d a : SReg) (i : BitVec 14) (s : State) : Res := alu1 (· ||| immZ i) d a s
def execXori (d a : SReg) (i : BitVec 14) (s : State) : Res := alu1 (· ^^^ immZ i) d a s
def execShli (d a : SReg) (i : BitVec 5) (s : State) : Res := alu1 (fun x => x <<< i.toNat) d a s
def execShri (d a : SReg) (i : BitVec 5) (s : State) : Res := alu1 (fun x => x >>> i.toNat) d a s
def execSari (d a : SReg) (i : BitVec 5) (s : State) : Res := alu1 (fun x => x.sshiftRight i.toNat) d a s
def execSlti (d a : SReg) (i : BitVec 14) (s : State) : Res := alu1 (fun x => flagWord (x.slt (immS i))) d a s
def execSltni (d a : SReg) (i : BitVec 14) (s : State) : Res := alu1 (fun x => flagWord (x.ult (immS i))) d a s
def execLih (d : SReg) (i : BitVec 20) (s : State) : Res := onRegs [d] (fun x => x.ws d.toNat (i.setWidth 32 <<< 12)) s
def execMuli (d a : SReg) (i : BitVec 14) (s : State) : Res := alu1 (· * immS i) d a s

/-! ### Masks (R105) -/

/-- kd := f ka kb. -/
def mask2 (f : Word → Word → Word) (d a b : KReg) (s : State) : Res :=
  retire (s.setMe (s.me.wk d.toNat (f (s.me.rk a.toNat) (s.me.rk b.toNat))))

/-- sx := f ka. -/
def maskGet (f : Word → Word) (a : KReg) (x : SReg) (s : State) : Res :=
  onRegs [x] (fun m => m.ws x.toNat (f (m.rk a.toNat))) s

def execKand (d a b : KReg) (s : State) : Res := mask2 (· &&& ·) d a b s
def execKor (d a b : KReg) (s : State) : Res := mask2 (· ||| ·) d a b s
def execKxor (d a b : KReg) (s : State) : Res := mask2 (· ^^^ ·) d a b s
def execKandn (d a b : KReg) (s : State) : Res := mask2 (fun x y => x &&& ~~~y) d a b s
def execKnot (d a : KReg) (s : State) : Res := mask2 (fun x _ => ~~~x) d a a s
def execKmov (d a : KReg) (s : State) : Res := mask2 (fun x _ => x) d a a s
def execKset (d : KReg) (x : SReg) (s : State) : Res := onRegs [x] (fun m => m.wk d.toNat (m.rs x.toNat)) s
def execKget (a : KReg) (x : SReg) (s : State) : Res := maskGet (fun w => w) a x s
def execKpop (a : KReg) (x : SReg) (s : State) : Res := maskGet (fun w => BitVec.ofNat 32 (popNat 32 w.toNat)) a x s
def execKff (a : KReg) (x : SReg) (s : State) : Res :=
  maskGet (fun w => BitVec.ofNat 32 (firstOne 32 32 0 w.toNat)) a x s
/-- XM takes the mask's value within the part's lane set (R105, R168). -/
def execXmset (a : KReg) (s : State) : Res := retire (s.setSl { s.sl with xm := s.me.rk a.toNat &&& s.sl.lanes })
def execXmget (d : KReg) (s : State) : Res := retire (s.setMe (s.me.wk d.toNat s.sl.xm))

end Sys2Proof.Machine
end

