-- ==== Sys2Proof/Machine/ScalarMem.lean ====
section
/-! DEFINITION. Scalar loads and stores, the buffer-record instructions and DISCARD (R118 to R121, R228), the store queue's
drain (R223, R346), and the store time-out (R227, R347). -/

namespace Sys2Proof.Machine

/-- Deliver what a check raised at an instruction of group `g`. -/
def State.raise (s : State) (g : Nat) (site : TrapSite) (resume : Dword) (r : Raised) : State :=
  s.takeTrap g { cause := r.cause, mask := r.mask, code := 0, reason := r.reason, addr := r.addr, site := site } resume

/-- Deliver it at scalar instruction `i`: a scalar trap's mask is 0 (R334). -/
def raiseAt (i : Instr) (r : Raised) (s : State) : Res :=
  .next (s.raise s.cur.g (s.scalarSite (wordOf i)) (s.sl.pc + 4) { r with mask := 0 })

/-- The byte offset of a scalar access (R118). -/
def scalarOffset (x : Group) (o : SReg) (imm : BitVec 8) (unit : Int) : Int := (x.rs o.toNat).toNat + unit * imm.toInt

/-- Registers of a scalar access wait for an SLD or BRLD that still writes them. -/
def State.scalarBusy (s : State) (regs : List Nat) (recs : List Nat) : Bool :=
  s.me.pendingS s.cur.slotB regs || s.me.pendingB recs

/-- The classes that scalar access accepts: a tree or replicated record raises ILLEGAL (R118). -/
def scalarClasses : List Nat := [0, 1, 3]

/-- The checks of a scalar access, which tests its offset against the extent alone (R118), the locks and the translation. -/
def State.vetScalar (s : State) (r : Rec) (n : Nat) (writes : Bool) (o : Int) : Admit :=
  s.vetIn (s.streamAsker s.cur.g s.cur.slotB false) r.extent r
    { classes := scalarClasses, n := n, reads := !writes, writes := writes } [(0, o)]

/-- A scalar load of `n` bytes that ends in `kind`. -/
def scalarLoad (i : Instr) (kind : LoadKind) (n : Nat) (b : BReg) (o : Int) (s : State) : Res :=
  let x := s.me
  let r := recOf (x.rb b.toNat)
  if x.acquiring || decide (63 ≤ x.loadCount) then stall s
  else
    match s.vetScalar r n false o with
    | .trap t => raiseAt i t s
    | .miss s => .next s
    | .go accs =>
      retire ((s.setMe (x.addLoad kind accs 0 r.cls x.seq (s.scalarSite (wordOf i)))).handOver s.cur.g s.cur.slotB false
        .load x.seq accs)

/-- SLD of `n` bytes (R118). -/
def loadScalar (i : Instr) (n : Nat) (d : SReg) (b : BReg) (o : SReg) (imm : BitVec 8) (s : State) : Res :=
  guarded i s fun s =>
    if s.scalarBusy ([o.toNat, d.toNat] ++ (if n = 8 then [d.toNat + 1] else [])) [b.toNat] then stall s
    else scalarLoad i (.scalar d.toNat n) n b (scalarOffset s.me o imm 4) s

def execSld4 (d : SReg) (b : BReg) (o : SReg) (imm : BitVec 8) (s : State) : Res := loadScalar (.sld4 d b o imm) 4 d b o imm s
def execSld8 (d : SReg) (b : BReg) (o : SReg) (imm : BitVec 8) (s : State) : Res := loadScalar (.sld8 d b o imm) 8 d b o imm s

/-- BRLD (R119): the image is checked when it arrives. -/
def execBrld (d b : BReg) (o : SReg) (imm : BitVec 8) (s : State) : Res :=
  if s.scalarBusy [o.toNat] [d.toNat, b.toNat] then stall s
  else scalarLoad (.brld d b o imm) (.record d.toNat) 16 b (scalarOffset s.me o imm 16) s

/-- A store that waits for credit remembers since when, and its word (R227). -/
def waitCredit (i : Instr) (s : State) : Res :=
  match s.sl.wait with
  | .credit _ _ => stall s
  | _ => stallAs (.credit s.ck (wordOf i)) s

/-- SST (R118): charged for its row-line when the record is ordinary (R225). -/
def storeScalar (i : Instr) (n : Nat) (a : SReg) (b : BReg) (o : SReg) (imm : BitVec 8) (s : State) : Res :=
  guarded i s fun s =>
    let x := s.me
    let r := recOf (x.rb b.toNat)
    let off := scalarOffset x o imm 4
    let data := natBytes 4 (x.rs a.toNat).toNat ++ (if n = 8 then natBytes 4 (x.rs (a.toNat + 1)).toNat else [])
    if s.scalarBusy ([o.toNat, a.toNat] ++ (if n = 8 then [a.toNat + 1] else [])) [b.toNat] || x.acquiring then stall s
    else
      match s.vetScalar r n true off with
      | .trap t => raiseAt i t s
      | .miss s => .next s
      | .go accs =>
        let charge := if r.cls = 0 then storeCharge n (accs.map (·.va)) else 0
        if x.storeFull then stall s
        else if r.cls = 0 ∧ s.creditFor s.cur.g charge = false then waitCredit i s
        else
          let kind : StoreKind :=
            .bytes (accs.map (fun e => { va := e.va, loc := e.loc, data := data, stream := r.ws, cls := r.cls }))
          retire (((s.setMe (x.addStore kind 0 x.seq s.cur.slotB false)).handOver s.cur.g s.cur.slotB false .store x.seq
            accs).payCredit s.cur.g charge)

def execSst4 (a : SReg) (b : BReg) (o : SReg) (imm : BitVec 8) (s : State) : Res := storeScalar (.sst4 a b o imm) 4 a b o imm s
def execSst8 (a : SReg) (b : BReg) (o : SReg) (imm : BitVec 8) (s : State) : Res := storeScalar (.sst8 a b o imm) 8 a b o imm s

/-! ### BRNAR and BRGET -/

/-- Replace the field of `len` bits at `lo`. -/
def setField (b : BitVec 128) (lo len v : Nat) : BitVec 128 :=
  BitVec.ofNat 128 (b.toNat - b.toNat / 2 ^ lo % 2 ^ len * 2 ^ lo + v % 2 ^ len * 2 ^ lo)

/-- Narrow a copy of record s into d (R120). -/
def narrow (i : Instr) (d : BReg) (o : Nat) (b : BReg) (f : BitVec 128 → Nat → Option (BitVec 128)) (s : State) : Res :=
  if s.scalarBusy [o] [d.toNat, b.toNat] then stall s
  else
    match f (s.me.rb b.toNat) (s.me.rs o).toNat with
    | some v => retire (s.setMe (s.me.wb d.toNat v))
    | none => trapAt i causeBounds 0 0 s

/-- Base raised and extent lowered by x; none past the end. A base that reaches 2^57 keeps its low 57 bits (assumption
131). -/
def narrowAdd (b : BitVec 128) (x : Nat) : Option (BitVec 128) :=
  let r := recOf b
  if r.extent < x then none else some (setField (setField b 0 57 (r.base + x)) 64 40 (r.extent - x))

def execBrnarAdd (d : BReg) (o : SReg) (b : BReg) (s : State) : Res :=
  narrow (.brnarAdd d o b) d o.toNat b narrowAdd s

def execBrnarMin (d : BReg) (o : SReg) (b : BReg) (s : State) : Res :=
  narrow (.brnarMin d o b) d o.toNat b (fun v x => some (setField v 64 40 (Nat.min (recOf v).extent x))) s

def execBrnarRo (d b : BReg) (s : State) : Res :=
  narrow (.brnarRo d b) d 0 b (fun v _ => some (setField v 60 1 0)) s

/-- The field that BRGET's selector names (R45). -/
def recField (r : Rec) (sel : Nat) : Nat :=
  match sel with
  | 0 => r.base % 2 ^ 32
  | 1 => r.base / 2 ^ 32
  | 2 => r.cls
  | 3 => (if r.rd then 2 else 0) + (if r.wr then 1 else 0)
  | 4 => r.ws
  | 5 => r.extent % 2 ^ 32
  | 6 => r.extent / 2 ^ 32
  | 7 => r.pitch
  | 8 => r.swz
  | _ => r.fmt

def execBrget (d : SReg) (b : BReg) (sel : BitVec 8) (s : State) : Res :=
  guarded (.brget d b sel) s fun s =>
    if s.me.pendingB [b.toNat] then stall s
    else onRegs [d] (fun x => x.ws d.toNat (BitVec.ofNat 32 (recField (recOf (x.rb b.toNat)) sel.toNat))) s

/-! ### DISCARD (R228) -/

/-- The row-lines wholly inside a range of addresses. -/
def wholeLines (a n : Nat) : List Nat := span ((a + 31) / 32) ((a + n) / 32 - (a + 31) / 32)

/-- The first address of each 64 KiB page that a range touches. -/
def rangePages (a n : Nat) : List Nat := (pagePieces a n).map (·.1)

/-- The device lines of whole row-lines at translated pages. -/
def discardLines (as : List Nat) (ps : List (Option Loc)) (lines : List Nat) : List Nat :=
  lines.filterMap (fun l => (as.zip ps).findSome? (fun e => match e.2 with
    | some (.dev pa) => if e.1 / 65536 = l * 32 / 65536 then some ((pa + (l * 32 - e.1)) / 32) else none
    | _ => none))

/-- DISCARD acts on the range when it leaves the store queue. A page that has faulted gives up nothing. -/
def execDiscard (b : BReg) (s : State) : Res :=
  let i : Instr := .discard b
  let x := s.me
  let r := recOf (x.rb b.toNat)
  let locked := s.lockConflicts (hclOf s.cur.g) x.ident.ctx true r.extent [(0, r.base)]
  let pages := rangePages r.base r.extent
  let who := s.streamAsker s.cur.g s.cur.slotB false
  if x.pendingB [b.toNat] || x.acquiring then stall s
  else if r.cls ≠ 0 then illegal i s
  else if !r.wr then trapAt i causeBounds 0 0 s
  else if r.extent = 0 then retire s
  else if locked ≠ 0 then trapAt i causeRangelock 0 0 s
  else
    match s.resolveAll who 0 .store pages with
    | .trap t va bad =>
      raiseAt i { cause := if bad then causeUncorr else causePage, mask := 0, reason := t, addr := va } s
    | .miss => .next (s.askFor who 0 .store pages)
    | .places ps =>
      if x.storeFull then stall s
      else
        let lines := discardLines pages ps (wholeLines r.base r.extent)
        retire ((s.setMe (x.addStore (.discard lines r.ws) 0 x.seq s.cur.slotB false)).unwait who.who)

/-! ### The store queue's drain -/

/-- Translate writes, each with its record's class. -/
def State.resolveWrites (s : State) (q : Asker) : List Write → XlatAll
  | [] => .places []
  | w :: rest => XlatAll.cons w.va (s.resolve q w.cls w.va .store) (s.resolveWrites q rest)

/-- Entries of groups that have ended keep their number, raised by a multiple of this. -/
def orphan : Nat := 2 ^ 20

/-- A side-log entry as one who asks: LOC, TICKET and context are those of the group that stored. -/
def LogEntry.asker (e : LogEntry) (s : State) : Asker :=
  let x := s.group e.g
  { who := .access e.g e.id, hcl := hclOf (e.g % orphan), ctx := e.ctx, loc := locCode (e.g % orphan) e.slotB,
    ticket := e.ticket, flags := if x.inHandler then 1 else 0 }

/-- A side-log entry, if every page it touches translates now: its places. -/
def State.replayable (s : State) (e : LogEntry) : XlatAll :=
  match e.kind with
  | .bytes ws => s.resolveWrites (e.asker s) ws
  | .reduce _ _ _ ls => s.resolveAll (e.asker s) 0 .store (ls.map (·.2.1))

/-- The writes with their places. -/
def withPlaces : List Write → List (Option Loc) → List Write
  | w :: rest, p :: ps => { w with loc := p } :: withPlaces rest ps
  | _, _ => []

/-- The packets of a replayed reduction: one for each owning service group, holding that group's lanes (R323). The owner
of a granule is hardware core cluster (G ⊕ (G >> 7) ⊕ (G >> 17)) mod 12 of its home die. -/
def State.granuleOwner (s : State) (pa : Nat) : Nat :=
  let g := pa / 256
  (s.home (pa / 1024)).1 * 12 + (g ^^^ (g / 2 ^ 7) ^^^ (g / 2 ^ 17)) % 12

/-- Send the lanes of an atomic to their service groups: lane, physical address, operand and compare value. -/
def State.sendPackets (s : State) (p : Packet) : State :=
  let owners := distinct (p.lanes.map (fun l => s.granuleOwner l.2.1))
  owners.foldl (fun s h =>
    let mine := p.lanes.filter (fun l => s.granuleOwner l.2.1 == h)
    s.setHcl h { s.hcl h with packets := (s.hcl h).packets ++ [{ p with lanes := mine }] }) s

/-- Some service group's queue has no room for another packet. -/
def State.packetsFull (s : State) (pas : List Nat) : Bool :=
  (pas.map s.granuleOwner).any (fun h => decide (1024 ≤ (s.hcl h).packets.length))

/-- Device lanes of a replayed reduction. -/
def devLanes : List (Nat × Nat × Nat) → List (Option Loc) → List (Nat × Nat × Nat × Nat)
  | (l, _, v) :: rest, some (.dev pa) :: ps => (l, pa, v, 0) :: devLanes rest ps
  | _ :: rest, _ :: ps => devLanes rest ps
  | _, _ => []

/-- Sectors that a launch's ended groups stored to (R194). -/
def State.noteLaunch (s : State) (ticket : Nat) (sectors : List Nat) : State :=
  { s with sched := { s.sched with launches := s.sched.launches.map (fun l =>
      if l.ticket = ticket then { l with dirty := distinct (l.dirty ++ sectors) } else l) } }

/-- Make the writes of a side-log entry: those of an ended group count for its launch. -/
def State.makeLogged (s : State) (e : LogEntry) (ws : List Write) : State :=
  let g := e.g % orphan
  let t := makeWrites g e.ctx 0 ws s
  if e.g < orphan then t
  else
    (t.setGroup g (s.group g)).noteLaunch e.ticket ((ws.filter (fun w => w.cls != 3)).flatMap (fun w => match w.loc with
      | some (.dev a) => (span a w.data.length).map (· / 1024)
      | _ => []))

/-- Replay a side-log entry (R346): bytes take the normal path, a reduction's packets go to the service groups. -/
def State.replay (s : State) (e : LogEntry) (ps : List (Option Loc)) : State :=
  let core := coreOf (e.g % orphan)
  let c := s.core core
  let s := s.setCore core { c with sideLog := c.sideLog.filter (fun x => !(x.g == e.g && x.id == e.id)) }
  match e.kind with
  | .bytes ws => s.makeLogged e (withPlaces ws ps)
  | .reduce op ty _ ls =>
    s.sendPackets { g := e.g, id := e.id, ctx := e.ctx, op := op, ty := ty, returns := false, ticket := e.ticket,
                     lanes := devLanes ls ps }

/-- What the replay of an entry follows: earlier packets of the group, for a reduction room in its service groups' queues,
and for one with .rel every earlier access (R258, R261, R323). -/
def State.replayFollows (s : State) (e : LogEntry) (ps : List (Option Loc)) : Bool :=
  s.packetsBefore e.g e.id || (match e.kind with
    | .bytes _ => false
    | .reduce _ _ rel ls => s.packetsFull ((devLanes ls ps).map (·.2.1)) || (rel && !s.earlierDone e.g e.id))

/-- A side-log entry ends its context: its page is refused, or its reduction reaches host memory (R325, R344). -/
def State.replayEnds (s : State) (e : LogEntry) (cause reason addr : Nat) : State :=
  let a := e.asker s
  s.terminate e.ctx cause reason a.flags a.loc a.ticket 0 0 0 0 0 0 0 addr

/-- A reduction's lanes among these places that lie in host memory. -/
def hostPlaces (e : LogEntry) (ps : List (Option Loc)) : Bool :=
  match e.kind with
  | .bytes _ => false
  | .reduce _ _ _ _ => ps.any (fun p => match p with
    | some (.host _) => true
    | _ => false)

/-- The addresses of an entry. -/
def LogKind.vas : LogKind → List Nat
  | .bytes ws => (ws.filter (fun w => decide (w.cls ≠ 1))).map (·.va)
  | .reduce _ _ _ ls => ls.map (·.2.1)

/-- The first side-log entry of each group, the ended ones among them, that the group entry `g` has held. -/
def State.logHeads (s : State) (g : Nat) : List LogEntry :=
  let l := (s.coreOfGroup g).sideLog.filter (fun e => e.g % orphan == g)
  (distinct (l.map (·.g))).filterMap (fun k => l.find? (fun e => e.g == k))

/-- Replay the first of these entries that can be. Faulting pages are walked again. -/
def replayFirst : List LogEntry → State → Option State
  | [], _ => none
  | e :: rest, s =>
    match s.replayable e with
    | .places ps =>
      if hostPlaces e ps then some (s.replayEnds e causePage reasonAtomicHost (e.kind.vas.headD 0))
      else if ps.all (·.isSome) && !s.replayFollows e ps then some (s.replay e ps)
      else replayFirst rest s
    | .miss => some (s.askFor (e.asker s) 0 .store e.kind.vas)
    | .trap r va bad => some (s.replayEnds e (if bad then causeUncorr else causePage) r va)

/-- The lanes of a reduction with their device places, for its packets. -/
def reduceLanes (ls : List (LaneAcc × Nat)) : List (Nat × Nat × Nat × Nat) :=
  ls.filterMap (fun l => match l.1.loc with
    | some (.dev pa) => some (l.1.lane, pa, l.2, 0)
    | _ => none)

/-- The store queue's head leaves: for the memory, for the service groups, or for the side log where a lane's page has
faulted or the group has entries there. A full log and a full service group hold it. -/
def State.drainHead (s : State) (g : Nat) (e : StoreEntry) (rest : List StoreEntry) : Option State :=
  let x := s.group g
  let gone := s.setGroup g { x with stores := rest }
  let logs := !e.kind.placed || !(s.logOf g).isEmpty
  let logged := if 1024 ≤ (s.coreOfGroup g).sideLog.length then none else some (gone.logStore g e)
  match e.kind with
  | .discard lines _ => some (lines.foldl State.discardLine gone)
  | .bytes ws => if logs then logged else some (makeWrites g x.ident.ctx e.hint ws gone)
  | .reduce op ty _ ls =>
    let lanes := reduceLanes ls
    if logs then logged
    else if s.packetsFull (lanes.map (·.2.1)) then none
    else
      let y := { x with stores := rest, storesOther := x.storesOther ++ [(e.id, e.seq, 1)] }
      some ((s.setGroup g y).sendPackets { g := g, id := e.id, ctx := x.ident.ctx, op := op, ty := ty, returns := false,
                                           ticket := x.ident.team.ticket, lanes := lanes })

/-- What the drain of a group's stores does: a side-log entry replays, or else the store queue's head leaves. -/
def State.drainStores (s : State) (g : Nat) : Option State :=
  let ctxs := (s.logHeads g).map (·.ctx)
  match replayFirst (s.logHeads g) s with
  | some s => some (ctxs.foldl State.preemptSettle s)
  | none =>
    match (s.group g).stores with
    | [] => none
    | e :: rest => if s.storeFollows g e then none else s.drainHead g e rest

/-- SECTOR_WRITE_BACK: a dirty sector reaches its memory controller and stays valid and clean (R223, R255). -/
def execSectorWriteBack (sector : Nat) (s : State) : Res := .next (s.cleanSector sector)

/-- PCIE_READ_COMPLETION: the read that followed a group's posted writes has completed (R255). -/
def execPcieReadCompletion (g : Nat) (s : State) : Res := .next (s.setGroup g { s.group g with posted := false })

/-! ### STBP (R227) -/

/-- The wait of a store for credit has passed the time-out: TEN is 1 and more than 2^TMOEXP ck have gone by. -/
def timedOut (stbcfg : Word) (since now : Nat) : Bool :=
  stbcfg.getLsbD 31 && decide (since + 2 ^ (stbcfg.toNat / 2 ^ 26 % 32) < now)

/-- STBP_TIMEOUT: a store that has waited longer than its limit raises STBP at itself (R347). `slot` names the path slot,
which a handler in the other slot pauses (R336), or none the lane queue, where VLAL (op 0x90) never raises it. -/
def execStbpTimeout (g : Nat) (slot : Option Bool) (s : State) : Res :=
  let x := s.group g
  match slot with
  | some b =>
    let y := x.slot b
    match y.wait with
    | .credit since w =>
      if timedOut x.ident.stbcfg since s.ck && !(x.inHandler && x.handlerSlotB != b) then
        let site : TrapSite := { slotB := b, lane := false, pc := y.pc, lanePc := 0, w0 := w, w1 := 0, w2 := 0 }
        .next (s.raise g site y.pc (raised causeStbp 0))
      else stall s
    | _ => stall s
  | none =>
    match x.headBlock, x.laneWait with
    | some b, some (since, w) =>
      if timedOut x.ident.stbcfg since s.ck && w / 2 ^ 88 != 0x90 then
        let kq := w / 2 ^ 80 % 16
        let mask := if kq = 0 then b.mask else b.mask &&& x.rk kq
        let s := s.setGroup g { x with laneWait := none }
        .next (s.raise g (x.laneSite b w) (x.slot b.slotB).pc (raised causeStbp mask))
      else stall s
    | _, _ => stall s

end Sys2Proof.Machine
end

