-- ==== Sys2Proof/Machine/Fence.lean ====
section
/-! DEFINITION. Fences and publication (R254, R255, R262, R264, R265). -/

namespace Sys2Proof.Machine

/-- The number below which the group's blocks and accesses are the earlier ones of a waiting fence. -/
def State.fenceMark (s : State) : Nat :=
  match s.sl.wait with
  | .fence before => before
  | _ => s.me.seq

/-- Every lane block that the group enqueued before has issued; in a handler, its own (R254, R338). -/
def Group.blocksIssued (x : Group) (before : Nat) : Bool :=
  !x.blocks.any (fun b => decide (b.seq < before) && (b.trap || !x.inHandler))

/-- Every earlier load has its value fixed. -/
def Group.loadsFixed (x : Group) (before : Nat) : Bool := !x.loads.any (fun e => decide (e.seq < before))

/-- Every earlier store and atomic has left the store queue and the side log and was made. -/
def State.storesMade (s : State) (g before : Nat) : Bool :=
  let x := s.group g
  !x.stores.any (fun e => decide (e.seq < before)) && !x.feStores.any (fun e => decide (e.seq < before))
    && !x.storesOther.any (fun e => decide (e.2.1 < before) && !lineWaits e)
    && !(s.logOf g).any (fun e => decide (e.seq < before)) && !s.packetsOf g

/-- The write streams of a store. -/
def StoreKind.streams : StoreKind → List Nat
  | .bytes ws => ws.map (·.stream)
  | .discard _ w => [w]
  | .reduce _ _ _ _ => []

def LogKind.streams : LogKind → List Nat
  | .bytes ws => ws.map (·.stream)
  | .reduce _ _ _ _ => []

/-- A write through a class 3 record that lands in a window, or that may do so, its place being unknown (R264). -/
def Window.takes (x : Window) (w : Write) : Bool :=
  w.cls == 3 && (match w.loc with
    | none => true
    | some (.dev pa) => (x.redirect pa).isSome
    | some _ => false)

def StoreKind.meetsWindow (x : Window) : StoreKind → Bool
  | .bytes ws => ws.any x.takes
  | .discard _ _ => false
  | .reduce _ _ _ _ => false

def LogKind.meetsWindow (x : Window) : LogKind → Bool
  | .bytes ws => ws.any x.takes
  | .reduce _ _ _ _ => false

/-- Every earlier store on a selected write stream that the side log held has replayed (R261). -/
def State.streamsReplayed (s : State) (g before : Nat) (w : BitVec 4) : Bool :=
  !(s.logOf g).any (fun e => decide (e.seq < before) && e.kind.streams.any (w.getLsbD ·))

/-- Every earlier store on a selected write stream was made. -/
def State.streamsMade (s : State) (g before : Nat) (w : BitVec 4) : Bool :=
  !(s.group g).stores.any (fun e => decide (e.seq < before) && e.kind.streams.any (w.getLsbD ·))
    && s.streamsReplayed g before w

/-- Earlier stores are performed at a scope (R249): at group scope when issued, up to device scope when made, at system
and pod scope also once a PCIe read has followed the posted writes. -/
def State.performedAt (s : State) (g before scope : Nat) : Bool :=
  decide (scope = 0) || (s.storesMade g before && (decide (scope < 5) || !(s.group g).posted))

/-- Write back every sector that the group stored to (R255). -/
def State.writeBackOf (s : State) (g : Nat) : State :=
  let x := s.group g
  (x.dirtySectors.foldl State.cleanSector s).setGroup g { x with dirtySectors := [] }

/-- What a release at a scope does once its waits are over. -/
def State.released (s : State) (g scope : Nat) : State := if 5 ≤ scope then s.writeBackOf g else s

/-- What an acquire at a scope does once its waits are over (R218). -/
def State.acquired (s : State) (g scope : Nat) : State := if 2 ≤ scope then s.l1Invalidate (coreOf g) else s

/-- Wait until the earlier accesses of the issuing group are ordered, then go on; the earlier ones are remembered. -/
def afterWait (done : State → Nat → Bool) (s : State) (k : State → Res) : Res :=
  let before := s.fenceMark
  if s.me.blocksIssued before && done s before then k s
  else if s.sl.wait = .fence before then stall s
  else stallAs (.fence before) s

/-- The waits of a release at a scope. -/
def releaseDone (scope : Nat) (s : State) (before : Nat) : Bool :=
  s.me.loadsFixed before && s.performedAt s.cur.g before scope

/-- A release at device scope of the issuing group's earlier accesses, which the submission of engine work includes
(R193, R262). -/
def afterRelease (s : State) (k : State → Res) : Res := afterWait (releaseDone 4) s k

def execFenceAcquire (sc : BitVec 3) (s : State) : Res :=
  guarded (.fenceAcquire sc) s fun s =>
    afterWait (fun s before => s.me.loadsFixed before) s fun s => retire (s.acquired s.cur.g sc.toNat)

def execFenceRelease (sc : BitVec 3) (s : State) : Res :=
  guarded (.fenceRelease sc) s fun s =>
    afterWait (releaseDone sc.toNat) s fun s => retire (s.released s.cur.g sc.toNat)

def execFenceFull (sc : BitVec 3) (s : State) : Res :=
  guarded (.fenceFull sc) s fun s =>
    afterWait (releaseDone sc.toNat) s fun s => retire ((s.released s.cur.g sc.toNat).acquired s.cur.g sc.toNat)

/-- FENCE.S waits for the selected streams' stores alone (R257). -/
def execFenceS (sc : BitVec 3) (w : BitVec 4) (s : State) : Res :=
  let done (s : State) (before : Nat) : Bool :=
    if sc.toNat = 0 then s.streamsReplayed s.cur.g before w
    else s.streamsMade s.cur.g before w && (decide (sc.toNat < 5) || !s.me.posted)
  guarded (.fenceS sc w) s fun s => afterWait done s fun s => retire (s.released s.cur.g sc.toNat)

/-! ### PUBLISH -/

def State.window (s : State) (w : Nat) : Window := Sparse.get Window.off s.host.windows w
def State.setWindow (s : State) (w : Nat) (x : Window) : State :=
  { s with host := { s.host with windows := Sparse.put s.host.windows w x } }

/-- A posted write of a window's version (R265). -/
def State.postVersion (s : State) (w : Nat) : State :=
  let x := s.window w
  s.storeLoc none (.host x.vera) (natBytes 8 x.ver) 0 0 0

/-- Earlier stores of the group through class 3 records to a window have reached their controllers. -/
def windowStoresMade (win : Window) (s : State) (before : Nat) : Bool :=
  !s.me.stores.any (fun e => decide (e.seq < before) && e.kind.meetsWindow win)
    && !(s.logOf s.cur.g).any (fun e => decide (e.seq < before) && e.kind.meetsWindow win)

/-- What tells the PUBLISH of a path slot among the instructions of its group that the store class counts: its window and
the slot. -/
def publishMark (w : Nat) (slotB : Bool) : Nat := 2 + 2 * w + (if slotB then 1 else 0)

/-- The PUBLISH first in the queue of window `w` posts the odd version, which a PCIe read follows. A version that a PUBLISH
whose context ended has left odd serves as it stands (assumption 134). -/
def publishOdd (w : Nat) (win : Window) (s : State) : Res :=
  let odd := if win.ver % 2 = 0 then win.ver + 1 else win.ver
  let s := (s.setWindow w { win with ver := odd }).postVersion w
  let x := s.me
  stallAs (.publish w) (s.setMe { x.bump with
    posted := true, storesOther := x.storesOther ++ [(x.seq, x.seq, publishMark w s.cur.slotB)] })

/-- The read has completed: the halves change places and the even version is posted. -/
def publishEven (w : Nat) (win : Window) (s : State) : Res :=
  let s := (s.setWindow w { win with p := !win.p, ver := win.ver + 1, busy := win.busy.drop 1 }).postVersion w
  let x := s.me
  retire (s.setMe { x with
    posted := true, storesOther := x.storesOther.filter (fun e => e.2.2 != publishMark w s.cur.slotB) })

/-- PUBLISH (R265): once the group's earlier stores to the window are made it queues for the window; served, it posts the odd
version, waits for the PCIe read, and turns the window over. It counts in the store class from the odd version on. A handler's waits
while the interrupted slot's own PUBLISH is served. -/
def execPublish (a : SReg) (s : State) : Res :=
  let x := s.me
  let w := (x.rs a.toNat).toNat
  let win := s.window w
  let me := (s.cur.g, s.cur.slotB)
  if x.pendingS s.cur.slotB [a.toNat] then stall s
  else if 64 ≤ w ∨ win.flags % 2 = 0 ∨ win.ctx ≠ x.ident.ctx then illegal (.publish a) s
  else if s.sl.wait = .publish w then (if x.posted then stall s else publishEven w win s)
  else if x.heldWait = .publish w ∨ 63 ≤ x.storeCount then stall s
  else
    afterWait (windowStoresMade win) s fun s =>
      let win := if win.busy.contains me then win else { win with busy := win.busy ++ [me] }
      if win.busy.head? = some me then publishOdd w win s
      else
        let mark := SlotWait.fence s.fenceMark
        stallAs mark (s.setWindow w win)

end Sys2Proof.Machine
end

