-- ==== Sys2Proof/Machine/Phase.lean ====
section
/-! DEFINITION. What the groups of a team do together: the flame and tile batches (R288 to R291, R304 to R306), GIVE and
CLAIM (R195), BAR (R202), PHEND and the end of a phase (R196, R197), the end of a group (R31, R180), and the state of
pre-emption when phases end (R349, R350). -/

namespace Sys2Proof.Machine

/-- Instructions that a trap handler may not execute raise ILLEGAL there (R338). -/
def notInHandler (i : Instr) (s : State) (k : State → Res) : Res := if s.me.inHandler then illegal i s else k s

/-- Instructions that need a convergent group raise ILLCONV in any other (R181). -/
def needsConvergent (i : Instr) (s : State) (k : State → Res) : Res :=
  if s.convergent then k s else trapAt i causeIllconv 0 0 s

/-! ### Batches -/

/-- The next batch number: 0xFFFF_FFFF is followed by 1 (R304). -/
def nextBatch (nb : Word) : Word := if nb = 0xFFFFFFFF then 1 else nb + 1

/-- A batch holds the matrix instructions of a block. -/
def Group.inBatch (x : Group) (block : Nat) : Bool := x.inFlight.any (fun b => decide (block < b.2))

/-- Matrix instructions that issued and are in no batch. -/
def Group.openMatrix (x : Group) : Bool := x.locks.any (fun l => !x.inBatch l.2.1)

/-- Close the group's matrix instructions, issued and to be issued by the blocks enqueued so far, into a batch. -/
def Group.closeBatch (x : Group) : Group :=
  { x with nb := nextBatch x.nb, inFlight := x.inFlight ++ [(nextBatch x.nb, x.seq)] }

/-- TBATCH (R304): always makes a batch. -/
def execTbatch (d : SReg) (s : State) : Res :=
  if s.me.pendingS s.cur.slotB [d.toNat] || decide (63 ≤ s.me.batchCount) then stall s
  else
    let x := s.me.closeBatch
    retire (s.setMe (x.ws d.toNat x.nb))

/-- WAITB (R306). -/
def execWaitb (a : SReg) (s : State) : Res :=
  let n := s.me.rs a.toNat
  if s.me.pendingS s.cur.slotB [a.toNat] then stall s
  else if n = 0 then illegal (.waitb a) s
  else if s.me.inFlight.any (fun b => b.1 == n) then stall s
  else retire s

/-- What looking through the rest of a lane block for a matrix instruction gives (R304). -/
inductive BlockScan where
  | holds
  | clear
  /-- Its code at this address has no cached translation. -/
  | miss (va : Nat)
  deriving DecidableEq, Repr

/-- Look through the lane code of group `g` from offset `o`, at most `n` instructions, up to the block's last one: for a
matrix instruction that has not issued. Code that no fetch can reach holds none. -/
def State.scanCode (s : State) (g : Nat) : Nat → Nat → BlockScan
  | 0, _ => .clear
  | n + 1, o =>
    let va := ((s.group g).ident.lcb + BitVec.ofNat 64 o).toNat
    match s.fetchBytes (s.streamAsker g false true) va 12 with
    | .trap _ _ _ => .clear
    | .miss => .miss va
    | .wait => .holds
    | .bytes bs =>
      let w := leNat bs
      if 0xA0 ≤ w / 2 ^ 88 ∧ w / 2 ^ 88 ≤ 0xA6 then .holds
      else if w / 2 ^ 47 % 2 = 1 then .clear
      else s.scanCode g n (o + 12)

/-- The blocks of a batch that may still hold a matrix instruction. -/
def State.batchScans (s : State) (g before : Nat) : List BlockScan :=
  let x := s.group g
  (x.blocks.filter (fun b => decide (b.seq < before))).map (fun b =>
    s.scanCode g ((x.ident.laneSize - b.next) / 12) b.next)

/-- Some matrix instruction of the batch has not issued, or not executed. -/
def State.batchBusy (s : State) (g before : Nat) : Bool :=
  (s.batchScans g before).any (fun r => r != .clear)
    || (s.coreOfGroup g).engine.any (fun e => e.g == g && decide (e.block < before))

/-- The code addresses whose translations the scan needs. -/
def scanMisses (rs : List BlockScan) : List Nat :=
  rs.filterMap (fun r => match r with
    | .miss va => some va
    | _ => none)

/-- BATCH_RETIRE (R305, R307): the oldest batch retires once its instructions have executed; its locks are released. -/
def execBatchRetire (g : Nat) (s : State) : Res :=
  let x := s.group g
  match x.inFlight with
  | [] => stall s
  | b :: rest =>
    if s.batchBusy g b.2 then .next (s.askWalks (s.streamAsker g false true) .fetch ((scanMisses (s.batchScans g b.2)).flatMap (fun a => span a 12)))
    else .next (s.setGroup g { x with inFlight := rest, locks := x.locks.filter (fun l => decide (b.2 ≤ l.2.1)) })

/-! ### The flame -/

def State.holdsFlame (s : State) (g : Nat) : Bool := (s.coreOfGroup g).flame == some g

/-- Give group `g` the flame. -/
def State.giveFlame (s : State) (g : Nat) : State :=
  let c := s.coreOfGroup g
  s.setCore (coreOf g) { c with flame := some g, takers := c.takers.filter (· != g) }

/-- The flame of a group that ends or reaches PHEND becomes free. -/
def State.dropFlame (s : State) (g : Nat) : State :=
  if s.holdsFlame g then s.setCore (coreOf g) (s.coreOfGroup g).freeFlame else s

/-- FLAME.TAKE (R290): waiting takers are served in the order in which they began to wait. -/
def execFlameTake (s : State) : Res :=
  let c := s.coreOfGroup s.cur.g
  notInHandler .flameTake s fun s =>
  needsConvergent .flameTake s fun s =>
    if s.holdsFlame s.cur.g then retire (s.giveFlame s.cur.g)
    else if c.flame.isNone && (c.takers.head?.getD s.cur.g == s.cur.g) then retire (s.giveFlame s.cur.g)
    else
      let takers := if c.takers.contains s.cur.g then c.takers else c.takers ++ [s.cur.g]
      stallAs .flame (s.setCore (coreOf s.cur.g) { c with takers := takers })

/-- The group entry of member `t` of the issuing group's team, if it is live. -/
def State.member? (s : State) (t : Nat) : Option Nat :=
  match s.teamOf s.cur.g with
  | some m => if m.live.contains t then m.members[t]? else none
  | none => if t = s.me.ident.index then some s.cur.g else none

/-- FLAME.PASS (R290). -/
def execFlamePass (a : SReg) (s : State) : Res :=
  notInHandler (.flamePass a) s fun s =>
    if s.me.pendingS s.cur.slotB [a.toNat] then stall s
    else needsConvergent (.flamePass a) s fun s =>
      match s.member? (s.me.rs a.toNat).toNat with
      | none => illegal (.flamePass a) s
      | some g =>
        if 15 < (s.me.rs a.toNat).toNat then illegal (.flamePass a) s
        else if !s.holdsFlame s.cur.g then trapAt (.flamePass a) causeFlame 0 0 s
        else
          afterWait (fun _ _ => true) s fun s =>
            if s.me.openMatrix && decide (63 ≤ s.me.batchCount) then stall s
            else
              let s := if s.me.openMatrix then s.setMe s.me.closeBatch else s
              retire (s.giveFlame g)

/-! ### GIVE and CLAIM (R195) -/

/-- Vector registers from `r` up are lost. -/
def Group.dropVectors (x : Group) (r : Nat) : Group := { x with v := x.v.filter (fun e => decide (e.1 < 32 * r)) }

/-- Vector registers `lo` to `hi - 1` hold 0. -/
def Group.clearVectors (x : Group) (lo hi : Nat) : Group :=
  { x with v := x.v.filter (fun e => decide (e.1 < 32 * lo) || decide (32 * hi ≤ e.1)) }

def execGive (n : BitVec 6) (s : State) : Res :=
  let b := s.me.csr.budget.toNat
  guarded (.give n) s fun s =>
  notInHandler (.give n) s fun s =>
  needsConvergent (.give n) s fun s =>
    if n = 0 ∨ b ≤ n.toNat then illegal (.give n) s
    else if !s.countsWithin s.cur.g 0 0 15 15 0 then stall s
    else
      let x := s.me.dropVectors (8 * (b - n.toNat))
      let s := s.setMe { x with csr := { x.csr with budget := BitVec.ofNat 32 (b - n.toNat) } }
      retire (s.onTeam s.me.ident.team (fun t => { t with pool := t.pool + 8 * n.toNat }))

/-- The registers of a team, its pool, its claimants and its number of live groups, as its member `g` meets them. -/
def State.claimView (s : State) (g : Nat) : Nat × Nat × List Nat × Nat :=
  match s.teamOf g with
  | some t => (t.total, t.pool, t.claimants, t.live.length)
  | none => (8 * (s.group g).csr.budget.toNat, 0, [], 1)

def execClaim (n : BitVec 6) (s : State) : Res :=
  let b := s.me.csr.budget.toNat
  let v := s.claimView s.cur.g
  guarded (.claim n) s fun s =>
  notInHandler (.claim n) s fun s =>
  needsConvergent (.claim n) s fun s =>
    if n = 0 ∨ 32 < b + n.toNat then illegal (.claim n) s
    else if v.1 - 8 * (v.2.2.2 - 1) < 8 * n.toNat then trapAt (.claim n) causeBudget 0 0 s
    else if v.2.2.1.head?.getD s.cur.g == s.cur.g && decide (8 * n.toNat ≤ v.2.1) then
      let s := s.setMe { s.me.clearVectors (8 * b) (8 * (b + n.toNat)) with
        csr := { s.me.csr with budget := BitVec.ofNat 32 (b + n.toNat) } }
      retire (s.onTeam s.me.ident.team (fun t =>
        { t with pool := t.pool - 8 * n.toNat, claimants := t.claimants.filter (· != s.cur.g) }))
    else
      stallAs .claim (s.onTeam s.me.ident.team (fun t =>
        { t with claimants := if t.claimants.contains s.cur.g then t.claimants else t.claimants ++ [s.cur.g] }))

/-! ### The end of a phase -/

/-- The entry of a group, and its shade's, become free. -/
def State.freeEntry (s : State) (g : Nat) : State :=
  let x := s.group g
  let s := (s.setGroup g x.dead).holdFor (coreOf g) (g % 32 / 8) 1
  match x.ident.shade with
  | some h => (s.setGroup h Group.vacant).holdFor (coreOf h) (h % 32 / 8) 1
  | none => s

/-- Empty the entries of a team's groups. -/
def State.vacate (s : State) (gs : List Nat) : State := gs.foldl State.freeEntry s

/-- A gate closes the team's next phase until its graph node opens it (R318). -/
def Launch.gated (l : Launch) (k : TeamKey) (phase : Nat) : Bool :=
  l.gates.any (fun e => e == (k.cluster, k.team, phase))

/-- The priority of a launch. -/
def Launch.prio (l : Launch) : Nat := l.record.prio % 8

/-- Items of a priority in a hardware core cluster's queue. -/
def State.queued (s : State) (h prio : Nat) : Nat := ((s.hcl h).tasks.filter (fun t => t.prio == prio)).length

/-- Queue an item at a hardware core cluster; a level holds 256 items, and the distributor holds what does not fit (R198). -/
def State.queueItem (s : State) (h : Nat) (t : TaskItem) : State :=
  if s.queued h t.prio < 256 ∧ (s.sched.waiting.any (fun e => e.1 == h && e.2.prio == t.prio)) = false then
    s.setHcl h { s.hcl h with tasks := (s.hcl h).tasks ++ [t] }
  else { s with sched := { s.sched with waiting := s.sched.waiting ++ [(h, t)] } }

/-- The distributor hands over the items that it holds and that fit now, in order. -/
def State.admitWaiting (s : State) : State :=
  s.sched.waiting.foldl (fun s e => s.queueItem e.1 e.2) { s with sched := { s.sched with waiting := [] } }

/-- The item of a team's next phase. -/
def phaseItem (k : TeamKey) (prio : Nat) : TaskItem :=
  { start := false, ticket := k.ticket, cluster := k.cluster, team := k.team, prio := prio, bypassed := 0,
    reserved := false, held := [] }

/-- The team phase nodes that wait for the end of this phase end with it (R318). -/
def GraphNode.endPhase (k : TeamKey) (phase : Nat) (x : GraphNode) : GraphNode :=
  if x.kind = 3 ∧ x.stage = .running ∧ x.arg0 % 2 ^ 32 = k.ticket ∧ x.arg1 % 2 ^ 32 = k.cluster
      ∧ x.arg1 / 2 ^ 32 % 16 = k.team ∧ x.arg2 % 2 ^ 32 = phase then { x with stage := .ended } else x

def State.endPhaseNodes (s : State) (k : TeamKey) (phase : Nat) : State :=
  { s with dies := s.dies.map (fun e =>
      (e.1, { e.2 with graphs := e.2.graphs.map (fun x => { x with nodes := x.nodes.map (GraphNode.endPhase k phase) }) })) }

/-- The phase of a team has ended: its entries and registers are released and the next phase is queued, or held by a gate
(R196, R198). -/
def State.phaseEnds (s : State) (k : TeamKey) : State :=
  match s.team? k, s.launch? k.ticket with
  | some t, some l =>
    let s := (s.vacate (t.live.filterMap (fun i => t.members[i]?))).holdFor t.core 4 l.regBytes
    let gated := l.gated k (t.phase + 1)
    let s := s.onTeam k (fun t => { t with stage := if gated then .held else .queued, phase := t.phase + 1 })
    let s := if gated then s else s.queueItem (hclOfCore t.core) (phaseItem k l.prio)
    (s.endPhaseNodes k t.phase).preemptSettle l.ctx
  | _, _ => s

/-- A cluster retires when all its teams have ended: its rectangle is free and its launch counts it (R196). -/
def State.clusterEnds (s : State) (ticket index : Nat) : State :=
  { s with sched := { s.sched with
      clusters := s.sched.clusters.filter (fun c => !(c.ticket == ticket && c.index == index)),
      launches := s.sched.launches.map (fun l => if l.ticket = ticket then { l with retired := l.retired + 1 } else l) } }

/-- A team ends when all its groups have ended. -/
def State.teamEnds (s : State) (k : TeamKey) : State :=
  let s := match s.team? k, s.launch? k.ticket with
    | some t, some l => s.holdFor t.core 4 l.regBytes
    | _, _ => s
  let s := s.onTeam k (fun t => { t with stage := .ended })
  let allEnded (c : Cluster) : Bool := c.teams.all (fun t => t.stage == .ended)
  let s := match s.sched.clusters.find? (fun c => c.ticket == k.ticket && c.index == k.cluster) with
    | some c => if allEnded c then s.clusterEnds k.ticket k.cluster else s
    | none => s
  match s.launch? k.ticket with
  | some l => s.preemptSettle l.ctx
  | none => s

/-- A phase of the team's context is past its limit while the context is PENDING: the context ends at once (R349, R351). -/
def State.lateFor (s : State) (k : TeamKey) : Option (Nat × Team) :=
  match s.launch? k.ticket with
  | some l => if s.preemptState l.ctx = 1 then (s.pastLimit l.ctx).map (fun t => (l.ctx, t)) else none
  | none => none

/-- Which of a group's slots waits in this way. -/
def Group.slotWaiting (x : Group) (w : SlotWait) : Option Bool :=
  if x.slotA.live && x.slotA.wait == w then some false
  else if x.slotB.live && x.slotB.wait == w then some true
  else none

/-- The fence at the end of BAR is over: the group's side-log entries have replayed (R254). -/
def State.barDone (s : State) (g : Nat) : Bool := (s.logOf g).isEmpty && !s.packetsOf g

/-- Every group leaves the barrier, through a full fence at team scope (R202). -/
def State.leaveBarrier (s : State) (gs : List Nat) : State :=
  gs.foldl (fun s g =>
    let x := s.group g
    match x.slotWaiting .bar with
    | some b =>
      let y := x.slot b
      s.setGroup g (x.setSlot b (if s.barDone g then y.advance else { y with wait := .barFence }))
    | none => s) s

/-- ILLEGAL at a group that waits at BAR. -/
def State.refuseBarrier (s : State) (g : Nat) : State :=
  let x := s.group g
  match x.slotWaiting .bar with
  | some b =>
    let y := x.slot b
    s.takeTrap g { cause := causeIllegal, mask := 0, code := 0, reason := 0, addr := 0,
                   site := { slotB := b, lane := false, pc := y.pc, lanePc := 0, w0 := wordOf .bar, w1 := 0, w2 := 0 } }
      y.pc
  | none => s

/-- What follows when a group of a team arrives or ends (R196, R202). -/
def State.teamSettle (s : State) (k : TeamKey) : State :=
  match s.team? k with
  | none => s
  | some t =>
    let gs := t.live.filterMap (fun i => t.members[i]?)
    let at_ (w : SlotWait) (g : Nat) : Bool := ((s.group g).slotWaiting w).isSome
    if t.stage ≠ .running then s
    else if t.live.isEmpty || gs.all (at_ .phend) then
      match s.lateFor k with
      | some (ctx, m) => s.phaseTimeout ctx m
      | none => if t.live.isEmpty then s.teamEnds k else s.phaseEnds k
    else if gs.all (at_ .bar) then s.leaveBarrier gs
    else if gs.all (fun g => at_ .bar g || at_ .phend g) then (gs.filter (at_ .bar)).foldl State.refuseBarrier s
    else s

/-- BAR (R202): the last group to arrive lets every group go on, with a full fence at team scope. -/
def execBar (s : State) : Res :=
  notInHandler .bar s fun s =>
  needsConvergent .bar s fun s =>
    if s.sl.wait = .bar then stall s
    else if s.sl.wait = .barFence then (if s.barDone s.cur.g then retire s else stall s)
    else if !s.countsWithin s.cur.g 0 0 0 15 15 then stall s
    else
      let s := s.setSl { s.sl with wait := .bar }
      match s.teamOf s.cur.g with
      | some _ => .next (s.teamSettle s.me.ident.team)
      | none => if s.barDone s.cur.g then retire s else .next (s.setSl { s.sl with wait := .barFence })

/-- What a phase record carries of a group (R197), as the group that a phase starts from: the rest is as at start. -/
def Group.record (x : Group) (slotB : Bool) : Group :=
  let y := (x.slot slotB).advance
  let lo := 8 * x.ident.carryFirst
  let hi := Nat.min (lo + 8 * x.ident.carryCount) (8 * x.csr.budget.toNat)
  let c := x.csr
  { Group.vacant with
    ident := x.ident, s := x.s, k := x.k, b := x.b, fmt := x.fmt, rateFrom := x.rateFrom, dueSince := x.dueSince,
    dirtySectors := x.dirtySectors, posted := x.posted, tickets := x.tickets, reservations := x.reservations,
    v := x.v.filter (fun e => decide (32 * lo ≤ e.1) && decide (e.1 < 32 * hi)),
    csr := { Csrs.start with part := c.part, fpe := c.fpe, fstat := c.fstat, frm := c.frm, utvec := c.utvec, tctl := c.tctl,
                             vstat := c.vstat, amax := c.amax, bkpri := c.bkpri, secpol := c.secpol, budget := c.budget },
    slotA := { Slot.free with live := true, pc := y.pc, xm := y.xm, lanes := y.lanes, depth := y.depth, loops := y.loops } }

/-- Open matrix instructions of a flame holder are closed before it gives the flame up (R305). -/
def State.closeForRelease (s : State) (g : Nat) : State :=
  let x := s.group g
  if s.holdsFlame g && x.openMatrix then s.setGroup g x.closeBatch else s

/-- That batch waits while 63 are in flight (R19, R305). -/
def State.closeWaits (s : State) (g : Nat) : Bool :=
  s.holdsFlame g && (s.group g).openMatrix && decide (63 ≤ (s.group g).batchCount)

/-- Bytes of a group's phase record (R212): 1 KiB and 128 bytes for each carried vector register, in whole KiB. -/
def recordBytes (carried : Nat) : Nat := (1024 + 128 * carried + 1023) / 1024 * 1024

/-- Vector registers that a group carries over a boundary (R197). -/
def Group.carried (x : Group) : Nat :=
  Nat.min (8 * (x.ident.carryFirst + x.ident.carryCount)) (8 * x.csr.budget.toNat) - 8 * x.ident.carryFirst

/-- Bytes of the phase-record region of a core that records occupy (R212). -/
def State.recordsHeld (s : State) (core : Nat) : Nat :=
  ((s.sched.clusters.flatMap (·.teams)).filter (fun t => t.core == core)).foldl (fun n t =>
    t.records.foldl (fun n r => if r.spilled then n else n + recordBytes r.group.carried) n) 0

/-- A record of this group does not fit in its core's region [PBL1, 32) and goes to the spill area (R212). -/
def State.recordSpills (s : State) (g : Nat) : Bool :=
  decide ((32 - (s.coreOfGroup g).pbL1) * 65536 < s.recordsHeld (coreOf g) + recordBytes (s.group g).carried)

/-- PHEND (R196). -/
def execPhend (s : State) : Res :=
  notInHandler .phend s fun s =>
    if !s.convergent || !s.me.joins.isEmpty then trapAt .phend causeIllconv 0 0 s
    else if s.sl.wait = .phend || s.closeWaits s.cur.g then stall s
    else
      let s := s.closeForRelease s.cur.g
      if !s.countsZero s.cur.g || !(s.logOf s.cur.g).isEmpty || s.packetsOf s.cur.g then stall s
      else
        let s := s.dropFlame s.cur.g
        let r : PhaseRec := { index := s.me.ident.index, group := s.me.record s.cur.slotB,
                              spilled := s.recordSpills s.cur.g }
        let s := s.onTeam s.me.ident.team (fun t => { t with records := t.records ++ [r] })
        .next ((s.setSl { s.sl with wait := .phend }).teamSettle s.me.ident.team)

/-! ### The end of a group -/

/-- A number for what an ended group leaves behind: the entry's, raised above those in use (R346). -/
def State.orphanKey (s : State) (g : Nat) : Nat :=
  let used := ((s.coreOfGroup g).sideLog.map (·.g) ++ s.hcls.flatMap (fun e => e.2.packets.map (·.g))).filter
    (fun k => k % orphan == g)
  g + orphan * (used.foldl (fun m k => Nat.max m (k / orphan)) 0 + 1)

/-- The group's accesses forget what they waited for: what is left of them walks again. -/
def State.dropWaits (s : State) (g : Nat) : State :=
  { s with vm := { s.vm with waiters := s.vm.waiters.filter (fun w => match w.who with
      | .stream h _ _ => h != g
      | .access h _ => h != g
      | _ => true) } }

/-- A group ends (R31, R180, R195, R291): its flame is free, its registers pass to the pool, its side-log entries stay. -/
def State.endGroup (s : State) (g : Nat) : State :=
  let x := s.group g
  let k := x.ident.team
  let s := x.reservations.foldl State.dropReservation (s.dropFlame g)
  let c := s.coreOfGroup g
  let n := s.orphanKey g
  let s := s.setCore (coreOf g) { c with
    sideLog := c.sideLog.map (fun e => if e.g = g then { e with g := n } else e),
    takers := c.takers.filter (· != g) }
  let s : State := { s with hcls := s.hcls.map (fun e => (e.1, { e.2 with
    packets := e.2.packets.map (fun p => if p.g = g then { p with g := n } else p) })) }
  let s := s.dropWaits g
  let s := s.freeEntry g
  let s := s.onTeam k (fun t => { t with
    live := t.live.filter (· != x.ident.index), pool := t.pool + 8 * x.csr.budget.toNat,
    claimants := t.claimants.filter (· != g) })
  s.teamSettle k

end Sys2Proof.Machine
end

