-- ==== Sys2Proof/Machine/Operands.lean ====
section
/-! DEFINITION. What every lane instruction shares (R16, R17, R23, R48, R55, R56, R72, R74, R122 to R125, R164): the checks made
at issue, its active lanes, its operands by element, and how it completes. -/

namespace Sys2Proof.Machine

/-- The lanes of a mask, in ascending order. -/
def lanesOf (m : Word) : List Nat := (List.range 32).filter (m.getLsbD ·)

/-- A lane instruction at issue: its block, its 96 bits, its active lanes and its member set (R164). -/
structure Lane where
  b : Block
  w : Nat
  act : Word
  members : Word
  deriving DecidableEq, Repr

/-- What an instruction's issue needs beside its encoding (R56): all lanes (R181), the flame (R289), the format record
that must not raise ILLFMT, and its rounding field. -/
structure Need where
  all : Bool
  flame : Bool
  badFormat : Group → Block → Bool
  rnd : Nat

/-- Nothing but the encoding. -/
def Need.plain : Need := { all := false, flame := false, badFormat := fun _ _ => false, rnd := 0 }

/-- Every register named lies below the budget (R23). -/
def Group.inBudget (x : Group) (rs : List (Nat × Nat)) : Bool :=
  rs.all (fun r => decide (r.1 + r.2 ≤ 8 * x.csr.budget.toNat))

/-- A trap at a lane instruction: its site names the block and the word. -/
def State.laneTrap (s : State) (l : Lane) (cause : Nat) (mask : Word) (code : Nat) : State :=
  s.takeTrap s.cur.g { cause := cause, mask := mask, code := code, reason := 0, addr := 0, site := s.me.laneSite l.b l.w }
    (s.me.slot l.b.slotB).pc

/-- The mask of a lane instruction: its snapshot, ANDed with mask kq unless kq is 0. -/
def Group.laneMask (x : Group) (b : Block) (kq : KReg) : Word := if kq = 0 then b.mask else b.mask &&& x.rk kq.toNat

/-- The lane instruction with word `w` of the queue's head at issue. -/
def Group.laneAt (x : Group) (b : Block) (w : Nat) (kq : KReg) : Lane :=
  { b := b, w := w, act := x.laneMask b kq, members := if kq = 0 then b.mask else x.rk kq.toNat }

/-- The trap that an instruction's checks at issue raise, in the order of R56. -/
def State.issueTrap (s : State) (l : Lane) (form : LaneForm) (kq : KReg) (need : Need) : Option Nat :=
  let x := s.me
  if !form.ok || !x.inBudget (form.reads ++ form.writes) then some causeIllegal
  else if need.rnd = 6 ∧ 5 ≤ l.b.frm.toNat % 8 then some causeIllegal
  else if need.all ∧ (kq ≠ 0 ∨ l.b.mask ≠ fullMask) then some causeIllconv
  else if need.flame ∧ s.holdsFlame s.cur.g = false then some causeFlame
  else if need.badFormat x l.b then some causeIllfmt
  else none

/-- A VOPT that may still raise FPX: the trap stays precise, and no later lane instruction issues before (R335). -/
def Group.mayFault (x : Group) : Bool :=
  x.loads.any (fun e => match e.kind with
    | .opt _ _ _ _ fpe _ => decide (fpe.toNat % 32 ≠ 0)
    | _ => false)

/-- What the instruction must wait for: results of loads and MSTA, read locks of registers it writes, and a VOPT that may
still trap. -/
def State.laneBusy (s : State) (form : LaneForm) : Bool :=
  s.pendingV s.cur.g (form.reads ++ form.writes) || s.me.lockedV form.writes || s.me.mayFault

/-- Issue the lane instruction at the head of the group's queue: its checks, then the wait for its operands, then `k`. -/
def laneGate (form : LaneForm) (w : Nat) (kq : KReg) (need : Need) (s : State) (k : Lane → State → Res) : Res :=
  match s.me.headBlock with
  | none => .fault .noBlock
  | some b =>
    let l := s.me.laneAt b w kq
    match s.issueTrap l form kq need with
    | some cause => .next (s.laneTrap l cause 0 0)
    | none => if s.laneBusy form then stall s else k l s

/-- The form and the word of a lane instruction. -/
def formOf (i : Instr) : LaneForm := (laneForm i).getD { ok := false, reads := [], writes := [] }
def laneWord (i : Instr) : Nat := (encodeLane i).getD 0

/-- Issue lane instruction `i`. -/
def laneOp (i : Instr) (kq : KReg) (need : Need) (s : State) (k : Lane → State → Res) : Res :=
  laneGate (formOf i) (laneWord i) kq need s k

/-! ### Completing -/

/-- The E bit of a lane word. -/
def endsBlock (w : Nat) : Bool := w / 2 ^ 47 % 2 == 1

/-- The block's next instruction is the following one; with E set its entry is freed, and the block still counts while
results of its MSTA instructions are to be written. -/
def State.laneDone (s : State) (l : Lane) : State :=
  let x := s.me
  let gone := x.blocks.filter (fun b => b.seq != l.b.seq)
  let wait := (s.coreOfGroup s.cur.g).blockBusy s.cur.g l.b
  let blocks := x.blocks.map (fun b => if b.seq = l.b.seq then { b with next := b.next + 12 } else b)
  s.setMe (if endsBlock l.w then
      { x with blocks := gone, draining := if wait then x.draining ++ [l.b] else x.draining, laneWait := none }
    else { x with blocks := blocks, laneWait := none })

/-- The instruction completes. -/
def laneRetire (l : Lane) (s : State) : Res := .next (s.laneDone l)

/-- The instruction completes, and a trap that resumes after it is taken (BOUNDS, FPX, MEMBER). -/
def laneRetireTrap (l : Lane) (cause : Nat) (mask : Word) (code : Nat) (s : State) : Res :=
  .next ((s.laneDone l).laneTrap l cause mask code)

/-- ILLEGAL for a check of operand contents (R56). -/
def laneIllegal (l : Lane) (mask : Word) (s : State) : Res := .next (s.laneTrap l causeIllegal mask 0)

/-- Write the words of a lane from register `vd` up. -/
def Group.writeWords (x : Group) (vd lane : Nat) (ws : List Word) : Group :=
  (ws.zip (List.range ws.length)).foldl (fun x e => x.wv (vd + e.2) lane e.1) x

/-- Complete with results for the active lanes: flags are set, lanes that fault write nothing, and FPX follows (R124). -/
def laneResults (l : Lane) (vd : Nat) (rs : List (Nat × LaneRes)) (s : State) : Res :=
  let bad := faultingLanes l.b.fpe rs
  let x := (s.me.orFstat (orAll (rs.map (·.2.flags)))).orVstat (orAll (rs.map (·.2.vstat)))
  let x := (rs.filter (fun r => !bad.contains r.1)).foldl (fun x r => x.writeWords vd r.1 r.2.words) x
  let s := s.setMe x
  if bad.isEmpty then laneRetire l s else laneRetireTrap l causeFpx (maskOf bad) (fpxCode l.b.fpe rs) s

/-- Give each active lane the result of a function of its number. -/
def perLane (l : Lane) (vd : Nat) (f : Group → Nat → LaneRes) (s : State) : Res :=
  laneResults l vd ((lanesOf l.act).map (fun i => (i, f s.me i))) s

/-! ### Operands -/

/-- A register, or a pair for a wide type, of a lane. -/
def Group.operand (x : Group) (wide : Bool) (r i : Nat) : Nat := if wide then (x.rv64 r i).toNat else (x.rv r i).toNat

/-- An f32 encoding widened bit for bit or exactly to f64 (R48). -/
def widenImm (b : Nat) : Nat :=
  match f32.val b with
  | .nan _ => b / 2 ^ 31 * 2 ^ 63 + f64.infBits + b % 2 ^ 23 * 2 ^ 29
  | v => (f64.convert 0 0 v).bits

/-- The value of an immediate for a type (R48). -/
def immFor (ty : Nat) (imm : BitVec 32) : Nat :=
  match ty with
  | 2 => (imm.signExtend 64).toNat
  | 5 => widenImm imm.toNat
  | _ => imm.toNat

/-- The vb operand of a lane: the register, or the immediate with .i. -/
def srcB (f : LA) (x : Group) (i : Nat) : Nat :=
  if f.imm? then immFor f.ty.toNat f.imm else x.operand (decide (elemBits f.ty.toNat = 64)) f.vb.toNat i

def srcA (f : LA) (x : Group) (i : Nat) : Nat := x.operand (decide (elemBits f.ty.toNat = 64)) f.va.toNat i
def srcC (f : LA) (x : Group) (i : Nat) : Nat := x.operand (decide (elemBits f.ty.toNat = 64)) f.vc.toNat i

/-- The words of a result of a type: two for a wide type. -/
def resultWords (ty v : Nat) : List Word :=
  if elemBits ty = 64 then [BitVec.ofNat 32 v, BitVec.ofNat 32 (v / 2 ^ 32)] else [BitVec.ofNat 32 v]

/-- Elements in one operand of a type. -/
def elemCount (ty : Nat) : Nat := perWord ty

/-- The rounding mode in force: the field's, or FRM's captured mode (R72, R74). -/
def modeOf (f : LA) (l : Lane) : Nat := if f.rnd = 6 then l.b.frm.toNat % 8 else f.rnd.toNat

/-- The dither value of element `k` of a lane (R73). -/
def ditherOf (f : LA) (x : Group) (i k : Nat) : Nat := if f.rnd = 5 then elemAt 16 k (x.rv f.vc.toNat i).toNat else 0

/-- A captured scalar register: s48 to s63; s0 reads zero (R17). -/
def Block.arg (b : Block) (r : Nat) : Word := if r < 48 then 0 else b.args.getD (r - 48) 0

end Sys2Proof.Machine
end

