-- ==== Sys2Proof/Machine/LaneInt.lean ====
section
/-! DEFINITION. Integer, bit, compare, select and move lane instructions (R126 to R132) and VRAND (R143). -/

namespace Sys2Proof.Machine

/-- A lane's integer result, element by element: `op` gives an element's bits and whether it was clamped. -/
def intLane (f : LA) (op : Nat → Nat → Nat → Nat × Bool) (x : Group) (i : Nat) : LaneRes :=
  let ty := f.ty.toNat
  let w := elemBits ty
  let rs := (List.range (elemCount ty)).map (fun k =>
    op (elemAt w k (srcA f x i)) (elemAt w k (srcB f x i)) (elemAt w k (srcC f x i)))
  { words := resultWords ty (joinElems w (rs.map (·.1))), flags := 0, vstat := if rs.any (·.2) then vstatSat else 0 }

/-- An integer instruction whose element result is exact before the wrap or clamp (R65). -/
def intArith (i : Instr) (f : LA) (op : Int → Int → Int → Int) (s : State) : Res :=
  let ty := f.ty.toNat
  let w := elemBits ty
  laneOp i f.kq Need.plain s fun l s =>
    perLane l f.vd.toNat (intLane f (fun a b c =>
      fitInt ty w f.sat (op (elemInt ty w a) (elemInt ty w b) (elemInt ty w c)))) s

/-- A bit instruction: `op` acts on the element width and the bits. -/
def bitArith (i : Instr) (f : LA) (op : Nat → Nat → Nat → Nat) (s : State) : Res :=
  let w := elemBits f.ty.toNat
  laneOp i f.kq Need.plain s fun l s => perLane l f.vd.toNat (intLane f (fun a b _ => (op w a b % 2 ^ w, false))) s

def execVadd (f : LA) (s : State) : Res := intArith (.vadd f) f (fun a b _ => a + b) s
def execVsub (f : LA) (s : State) : Res := intArith (.vsub f) f (fun a b _ => a - b) s
def execVmul (f : LA) (s : State) : Res := intArith (.vmul f) f (fun a b _ => a * b) s
def execVmad (f : LA) (s : State) : Res := intArith (.vmad f) f (fun a b c => a * b + c) s
def execVmin (f : LA) (s : State) : Res := intArith (.vmin f) f (fun a b _ => min a b) s
def execVmax (f : LA) (s : State) : Res := intArith (.vmax f) f (fun a b _ => max a b) s
def execVabs (f : LA) (s : State) : Res := intArith (.vabs f) f (fun a _ _ => a.natAbs) s
def execVneg (f : LA) (s : State) : Res := intArith (.vneg f) f (fun a _ _ => -a) s

/-- The high half of the product; .sat has no effect. -/
def execVmulh (f : LA) (s : State) : Res :=
  let ty := f.ty.toNat
  let w := elemBits ty
  laneOp (.vmulh f) f.kq Need.plain s fun l s =>
    perLane l f.vd.toNat (intLane f (fun a b _ => (intBits w (elemInt ty w a * elemInt ty w b / 2 ^ w), false))) s

/-- The quotient towards zero; −1 by a zero divisor, all ones as unsigned (R127). -/
def execVdiv (f : LA) (s : State) : Res :=
  let ty := f.ty.toNat
  let w := elemBits ty
  laneOp (.vdiv f) f.kq Need.plain s fun l s =>
    perLane l f.vd.toNat (intLane f (fun a b _ =>
      if b = 0 then (2 ^ w - 1, false) else fitInt ty w f.sat ((elemInt ty w a).tdiv (elemInt ty w b)))) s

/-- The remainder with the sign of a; a itself by a zero divisor. -/
def execVrem (f : LA) (s : State) : Res := intArith (.vrem f) f (fun a b _ => if b = 0 then a else a.tmod b) s

def execVand (f : LA) (s : State) : Res := bitArith (.vand f) f (fun _ a b => a &&& b) s
def execVor (f : LA) (s : State) : Res := bitArith (.vor f) f (fun _ a b => a ||| b) s
def execVxor (f : LA) (s : State) : Res := bitArith (.vxor f) f (fun _ a b => a ^^^ b) s
def execVnot (f : LA) (s : State) : Res := bitArith (.vnot f) f (fun w a _ => 2 ^ w - 1 - a) s
def execVshl (f : LA) (s : State) : Res := bitArith (.vshl f) f (fun w a b => a * 2 ^ (b % w)) s
def execVshr (f : LA) (s : State) : Res := bitArith (.vshr f) f (fun w a b => a / 2 ^ (b % w)) s

/-- Copies of bit w − 1 come in from the left, for any type. -/
def shiftRightArith (w a n : Nat) : Nat :=
  if 2 ^ (w - 1) ≤ a then intBits w (((a : Int) - 2 ^ w) / 2 ^ n) else a / 2 ^ n

/-- Rotate left. -/
def rotLeft (w a n : Nat) : Nat := a * 2 ^ n % 2 ^ w + a / 2 ^ (w - n)

def execVsar (f : LA) (s : State) : Res := bitArith (.vsar f) f (fun w a b => shiftRightArith w a (b % w)) s
def execVrot (f : LA) (s : State) : Res := bitArith (.vrot f) f (fun w a b => rotLeft w a (b % w)) s
def execVclz (f : LA) (s : State) : Res := bitArith (.vclz f) f (fun w a _ => clzNat w a) s
def execVpopc (f : LA) (s : State) : Res := bitArith (.vpopc f) f (fun w a _ => popNat w a) s

/-! ### Bit fields (R128) -/

/-- pos and min(len, w − pos) of imm32. -/
def fieldPos (f : LA) : Nat := f.imm.toNat % 64
def fieldLen (f : LA) (w : Nat) : Nat := Nat.min (f.imm.toNat / 2 ^ 8 % 128) (w - fieldPos f)

def execVbfe (f : LA) (s : State) : Res :=
  let ty := f.ty.toNat
  let w := elemBits ty
  let n := fieldLen f w
  laneOp (.vbfe f) f.kq Need.plain s fun l s =>
    perLane l f.vd.toNat (intLane f (fun a _ _ => (if n = 0 then 0 else intBits w (elemInt ty n (a / 2 ^ (fieldPos f) % 2 ^ n)), false))) s

def execVbfi (f : LA) (s : State) : Res :=
  let w := elemBits f.ty.toNat
  let n := fieldLen f w
  let p := fieldPos f
  laneOp (.vbfi f) f.kq Need.plain s fun l s =>
    perLane l f.vd.toNat (intLane f (fun a b _ => (a - a / 2 ^ p % 2 ^ n * 2 ^ p + b % 2 ^ n * 2 ^ p, false))) s

/-! ### Compare, select and moves (R129, R130) -/

/-- An integer condition of R52. -/
def condInt (c : Nat) (a b : Int) : Bool :=
  match c with
  | 0 => decide (a = b)
  | 1 => decide (a ≠ b)
  | 2 => decide (a < b)
  | 3 => decide (a ≤ b)
  | 4 => decide (b < a)
  | _ => decide (b ≤ a)

/-- Replace the bits `which` of a mask. -/
def Group.putMask (x : Group) (k : Nat) (which bits : Word) : Group :=
  x.wk k ((x.rk k &&& ~~~which) ||| (bits &&& which))

def execVcmp (f : LA) (s : State) : Res :=
  let ty := f.ty.toNat
  let w := elemBits ty
  laneOp (.vcmp f) f.kq Need.plain s fun l s =>
    let x := s.me
    let holds (i : Nat) : Bool := (List.range (elemCount ty)).all (fun k =>
      condInt f.sub.toNat (elemInt ty w (elemAt w k (srcA f x i))) (elemInt ty w (elemAt w k (srcB f x i))))
    laneRetire l (s.setMe (x.putMask (f.vd.toNat % 16) l.act (maskOf ((lanesOf l.act).filter holds))))

def execVsel (f : LA) (s : State) : Res :=
  laneOp (.vsel f) f.kq Need.plain s fun l s =>
    perLane l f.vd.toNat (fun x i =>
      LaneRes.plain (resultWords f.ty.toNat (if (x.rk (f.vc.toNat % 16)).getLsbD i then srcA f x i else srcB f x i))) s

def execVmov (f : LA) (s : State) : Res :=
  laneOp (.vmov f) f.kq Need.plain s fun l s =>
    perLane l f.vd.toNat (fun x i => LaneRes.plain (resultWords f.ty.toNat (if f.imm? then srcB f x i else srcA f x i))) s

def execVmovs (f : LA) (s : State) : Res :=
  laneOp (.vmovs f) f.kq Need.plain s fun l s => perLane l f.vd.toNat (fun _ _ => LaneRes.plain [l.b.arg f.va.toNat]) s

def execVlane (f : LA) (s : State) : Res :=
  laneOp (.vlane f) f.kq Need.plain s fun l s => perLane l f.vd.toNat (fun _ i => LaneRes.plain [BitVec.ofNat 32 i]) s

/-! ### Registers named by values (R131) -/

/-- The register numbers that the active lanes hold in a register. -/
def Lane.numbers (l : Lane) (x : Group) (r : Nat) : List (Nat × Nat) := (lanesOf l.act).map (fun i => (i, (x.rv r i).toNat))

/-- The lanes whose number is no register below the budget. -/
def badNumbers (x : Group) (ns : List (Nat × Nat)) : Word :=
  maskOf ((ns.filter (fun n => decide (8 * x.csr.budget.toNat ≤ n.2))).map (·.1))

def execVrdx (f : LA) (s : State) : Res :=
  laneOp (.vrdx f) f.kq Need.plain s fun l s =>
    let x := s.me
    let ns := l.numbers x f.va.toNat
    if badNumbers x ns ≠ 0 then laneIllegal l (badNumbers x ns) s
    else if s.pendingV s.cur.g (ns.map (fun n => (n.2, 1))) then stall s
    else laneResults l f.vd.toNat (ns.map (fun n => (n.1, LaneRes.plain [x.rv n.2 n.1]))) s

def execVwrx (f : LA) (s : State) : Res :=
  laneOp (.vwrx f) f.kq Need.plain s fun l s =>
    let x := s.me
    let ns := l.numbers x f.va.toNat
    let regs := ns.map (fun n => (n.2, 1))
    if badNumbers x ns ≠ 0 then laneIllegal l (badNumbers x ns) s
    else if s.pendingV s.cur.g regs || x.lockedV regs then stall s
    else laneRetire l (s.setMe (ns.foldl (fun y n => y.wv n.2 n.1 (x.rv f.vb.toNat n.1)) x))

/-! ### VTOS (R132) -/

/-- A lane of a register as a cross-lane instruction or VTOS reads it: zero for an exited lane (R180). -/
def Group.rvPresent (x : Group) (r i : Nat) : Word := if x.exited.getLsbD i then 0 else x.rv r i

def execVtos (f : LA) (s : State) : Res :=
  laneOp (.vtos f) f.kq Need.plain s fun l s =>
    if l.act = 0 then laneRetire l s
    else laneRetire l (s.setMe (s.me.ws f.vd.toNat (s.me.rvPresent f.va.toNat (f.imm.toNat % 32))))

/-! ### VRAND (R143) -/

def randRa : List Nat := [7, 13, 19, 5, 11, 23, 3, 17, 29, 9]
def randRb : List Nat := [16, 8, 24, 12, 20, 4, 28, 14, 6, 26]

/-- The ten rounds of mix, on (x, y, z). -/
def mix (c k0 k1 : Word) : Word :=
  let step (v : Word × Word × Word) (i : Nat) : Word × Word × Word :=
    let x := v.1 + (v.2.2 ^^^ v.2.1).rotateLeft (randRa.getD i 0) + BitVec.ofNat 32 ((i + 1) * 0x9E3779B9)
    let y := (v.2.1 ^^^ x).rotateLeft (randRb.getD i 0)
    (x, y, v.2.2 + y)
  let r := (List.range 10).foldl step (c, k0, k1)
  r.1 ^^^ r.2.2

def execVrand (f : LA) (s : State) : Res :=
  laneOp (.vrand f) f.kq Need.plain s fun l s =>
    let k := f.vb.toNat
    perLane l f.vd.toNat (fun x i => LaneRes.plain [mix (x.rv f.va.toNat i) (l.b.arg k) (l.b.arg (k + 1))]) s

end Sys2Proof.Machine
end

