-- ==== Sys2Proof/Machine/LaneFloat.lean ====
section
/-! DEFINITION. Floating-point lane instructions (R133 to R135), the special functions (R136) and VCVT (R137). -/

namespace Sys2Proof.Machine

/-- A lane's floating result, element by element: `op` takes the dither value and the three elements. -/
def floatLane (f : LA) (op : Nat → Nat → Nat → Nat → FRes) (x : Group) (i : Nat) : LaneRes :=
  let ty := f.ty.toNat
  let w := elemBits ty
  let rs := (List.range (elemCount ty)).map (fun k =>
    op (ditherOf f x i k) (elemAt w k (srcA f x i)) (elemAt w k (srcB f x i)) (elemAt w k (srcC f x i)))
  { words := resultWords ty (joinElems w (rs.map (·.bits))), flags := orAll (rs.map (·.flags)), vstat := 0 }

/-- Issue a floating instruction: rounding value 6 needs a usable captured FRM (R74). -/
def floatOp (i : Instr) (f : LA) (op : FFmt → Nat → Nat → Nat → Nat → Nat → FRes) (s : State) : Res :=
  laneOp i f.kq { Need.plain with rnd := f.rnd.toNat } s fun l s =>
    perLane l f.vd.toNat (floatLane f (op (fmtOf f.ty.toNat) (modeOf f l))) s

def execVfadd (f : LA) (s : State) : Res := floatOp (.vfadd f) f (fun t m d a b _ => t.add m d (t.val a) (t.val b)) s
def execVfsub (f : LA) (s : State) : Res := floatOp (.vfsub f) f (fun t m d a b _ => t.sub m d (t.val a) (t.val b)) s
def execVfmul (f : LA) (s : State) : Res := floatOp (.vfmul f) f (fun t m d a b _ => t.mul m d (t.val a) (t.val b)) s
def execVfma (f : LA) (s : State) : Res :=
  floatOp (.vfma f) f (fun t m d a b c => t.fma m d (t.val a) (t.val b) (t.val c)) s
def execVfdiv (f : LA) (s : State) : Res := floatOp (.vfdiv f) f (fun t m d a b _ => t.div m d (t.val a) (t.val b)) s
def execVfsqrt (f : LA) (s : State) : Res := floatOp (.vfsqrt f) f (fun t m d a _ _ => t.sqrt m d (t.val a)) s
def execVfmin (f : LA) (s : State) : Res :=
  floatOp (.vfmin f) f (fun t _ _ a b _ => t.minMax false (decide (f.sub = 1)) a b) s
def execVfmax (f : LA) (s : State) : Res :=
  floatOp (.vfmax f) f (fun t _ _ a b _ => t.minMax true (decide (f.sub = 1)) a b) s
def execVfabs (f : LA) (s : State) : Res :=
  floatOp (.vfabs f) f (fun t _ _ a _ _ => { bits := a % 2 ^ t.low, flags := 0 }) s
def execVfneg (f : LA) (s : State) : Res :=
  floatOp (.vfneg f) f (fun t _ _ a _ _ => { bits := a ^^^ 2 ^ t.low, flags := 0 }) s
def execVfrnd (f : LA) (s : State) : Res :=
  floatOp (.vfrnd f) f (fun t m d a _ _ => t.toIntegral m d (decide (f.sub = 1)) (t.val a)) s

/-- VFCMP writes a mask; a lane that faults writes no bit (R124, R129). -/
def execVfcmp (f : LA) (s : State) : Res :=
  let ty := f.ty.toNat
  let w := elemBits ty
  let t := fmtOf ty
  laneOp (.vfcmp f) f.kq Need.plain s fun l s =>
    let x := s.me
    let rs := (lanesOf l.act).map (fun i =>
      (i, (List.range (elemCount ty)).map (fun k =>
        fcompare f.sub.toNat (t.val (elemAt w k (srcA f x i))) (t.val (elemAt w k (srcB f x i))))))
    let flags := rs.map (fun r => (r.1, ({ words := [], flags := orAll (r.2.map (·.2)), vstat := 0 } : LaneRes)))
    let bad := faultingLanes l.b.fpe flags
    let yes := maskOf ((rs.filter (fun r => r.2.all (·.1))).map (·.1))
    laneResults l 0 flags (s.setMe (x.putMask (f.vd.toNat % 16) (l.act &&& ~~~(maskOf bad)) yes))

/-- VFCLASS: one register, even for f64 (R134). -/
def execVfclass (f : LA) (s : State) : Res :=
  let ty := f.ty.toNat
  let w := elemBits ty
  let t := fmtOf ty
  laneOp (.vfclass f) f.kq Need.plain s fun l s =>
    perLane l f.vd.toNat (fun x i =>
      LaneRes.plain [BitVec.ofNat 32 (joinElems 16 ((List.range (elemCount ty)).map (fun k =>
        t.classMask (t.val (elemAt w k (srcA f x i))))))]) s

/-- n of VFSCALE for element `k`: an i32 of the single register or of imm32, or the i16 of the same position (R135). -/
def scaleCount (f : LA) (x : Group) (i k : Nat) : Int :=
  let b := if f.imm? then f.imm else x.rv f.vb.toNat i
  if elemBits f.ty.toNat = 16 then elemInt 8 16 (elemAt 16 k b.toNat) else b.toInt

def execVfscale (f : LA) (s : State) : Res :=
  let ty := f.ty.toNat
  let w := elemBits ty
  let t := fmtOf ty
  laneOp (.vfscale f) f.kq { Need.plain with rnd := f.rnd.toNat } s fun l s =>
    perLane l f.vd.toNat (fun x i =>
      let rs := (List.range (elemCount ty)).map (fun k =>
        t.scaleB (modeOf f l) (ditherOf f x i k) (t.val (elemAt w k (srcA f x i))) (scaleCount f x i k))
      { words := resultWords ty (joinElems w (rs.map (·.bits))), flags := orAll (rs.map (·.flags)), vstat := 0 }) s

/-! ### Special functions -/

def specialOp (i : Instr) (f : LA) (op : FVal → FRes) (s : State) : Res :=
  floatOp i f (fun t _ _ a _ _ => op (t.val a)) s

def execVrcp (f : LA) (s : State) : Res := specialOp (.vrcp f) f rcpOf s
def execVrsq (f : LA) (s : State) : Res := specialOp (.vrsq f) f rsqOf s
def execVexp2 (f : LA) (s : State) : Res := specialOp (.vexp2 f) f exp2Of s
def execVlog2 (f : LA) (s : State) : Res := specialOp (.vlog2 f) f log2Of s
def execVsinpi (f : LA) (s : State) : Res := specialOp (.vsinpi f) f sinPiOf s
def execVcospi (f : LA) (s : State) : Res := specialOp (.vcospi f) f cosPiOf s
def execVtanh (f : LA) (s : State) : Res := specialOp (.vtanh f) f tanhOf s

/-! ### VCVT (R137) -/

/-- The value of a run of `n` registers of a lane, the lowest register lowest. -/
def Group.wideValue (x : Group) (r n i : Nat) : Nat := joinElems 32 ((List.range n).map (fun k => (x.rv (r + k) i).toNat))

/-- The words of `n` registers. -/
def splitWords (n v : Nat) : List Word := (List.range n).map (fun k => BitVec.ofNat 32 (v / 2 ^ (32 * k)))

/-- Element e takes its dither value from register vc + ⌊e/2⌋, half e mod 2. -/
def slotDither (f : LA) (x : Group) (i e : Nat) : Nat :=
  if f.rnd = 5 then elemAt 16 (e % 2) (x.rv (f.vc.toNat + e / 2) i).toNat else 0

def execVcvt (f : LA) (s : State) : Res :=
  let src := f.ty.toNat
  let dst := f.sub.toNat % 16
  let n := f.cvtCount
  laneOp (.vcvt f) f.kq { Need.plain with rnd := f.rnd.toNat } s fun l s =>
    perLane l f.vd.toNat (fun x i =>
      let v := x.wideValue f.va.toNat (f.cvtRegs src) i
      let rs := (List.range n).map (fun e =>
        convertElem src dst (modeOf f l) (slotDither f x i e) f.sat (elemAt (elemBits src) e v))
      { words := splitWords (f.cvtRegs dst) (joinElems (elemBits dst) (rs.map (·.bits))),
        flags := orAll (rs.map (·.flags)), vstat := if rs.any (·.sat) then vstatSat else 0 }) s

end Sys2Proof.Machine
end

