-- ==== Sys2Proof/Machine/LaneBlock.lean ====
section
/-! DEFINITION. Quantising and dequantising lane instructions (R138 to R140) and aligned-integer conversion (R141, R142). -/

namespace Sys2Proof.Machine

/-! ### The register form (R138) -/

/-- Lanes of one sub-block. -/
def subLanes (ty : Nat) : Nat := if ty = 12 then 2 else 4
/-- Sub-blocks in an element register. -/
def subCount (ty : Nat) : Nat := 32 / subLanes ty
/-- The lanes of sub-block `m`. -/
def lanesOfSub (ty m : Nat) : List Nat := span (subLanes ty * m) (subLanes ty)

/-- The companion lane and half that hold the exponent word of sub-block `m` of element register `r`. -/
def expPlace (ty r m : Nat) : Nat × Nat :=
  (if ty = 12 then 8 * (r % 4) + m / 2 else 4 * (r % 8) + m / 2, m % 2)

/-- The exponent word of a sub-block in companion register `c`. -/
def Group.expWord (x : Group) (ty r c m : Nat) : Nat :=
  let p := expPlace ty r m
  elemAt 16 p.2 (x.rv c p.1).toNat

/-- Write it. -/
def Group.setExpWord (x : Group) (ty r c m v : Nat) : Group :=
  let p := expPlace ty r m
  let w := (x.rv c p.1).toNat
  let low := if p.2 = 0 then v else elemAt 16 0 w
  let high := if p.2 = 1 then v else elemAt 16 1 w
  x.wv c p.1 (BitVec.ofNat 32 (joinElems 16 [low, high]))

/-- Element `e` of an element register. -/
def Group.blockElem (x : Group) (ty r e : Nat) : Bool × Nat :=
  let n := blockPer ty
  elemOfReg ty (elemAt (regBits ty) (e % n) (x.rv r (e / n)).toNat)

/-- Sub-block `m` of element register `r` with companion `c`, as held. -/
def Group.subBlock (x : Group) (ty r c m : Nat) : SubBlock :=
  let w := x.expWord ty r c m
  { x := sByte (w % 256), mu := w / 256, elems := (span (16 * m) 16).map (x.blockElem ty r) }

/-- Write the elements of the lanes `ls` of sub-block `m`, and its exponent word: where the companion is the destination,
that word remains, and a later sub-block's elements over it (assumption 139). -/
def Group.putSub (x : Group) (ty r c m : Nat) (b : SubBlock) (ls : List Nat) : Group :=
  let n := blockPer ty
  let word (l : Nat) : Word :=
    BitVec.ofNat 32 (joinElems (regBits ty) ((List.range n).map (fun j =>
      regElem ty (b.elems.getD (n * l + j - 16 * m) (false, 0)))))
  (ls.foldl (fun x l => x.wv r l (word l)) x).setExpWord ty r c m b.word

/-! ### VQNT and VDQN -/

/-- R84 for the format record that the instruction names. -/
def frecRefused (f : LA) (x : Group) (b : Block) : Bool :=
  let w := x.rfmt (f.imm.toNat % 8)
  frecBad w b.frm || !inSet w f.ty.toNat

/-- The floating side: encoding of slot `j` of a lane, as f32 (sub 0) or bf16 (sub 1), in the group at register `r`. -/
def slotBits (f : LA) (x : Group) (r l j : Nat) : Nat :=
  if f.sub = 0 then (x.rv (r + j) l).toNat else elemAt 16 (j % 2) (x.rv (r + j / 2) l).toNat

/-- The format of the floating side. -/
def slotFmt (f : LA) : FFmt := if f.sub = 0 then f32 else bf16

/-- The f32 encoding of a slot's encoding. -/
def slotAmax (f : LA) (b : Nat) : Nat := if f.sub = 0 then b else b * 2 ^ 16

/-- Bits that a register element may hold (R86), for each element of a lane's word. -/
def elemBitsMask (ty : Nat) : Nat := if ty = 12 then 0xBBBBBBBB else if ty = 13 then 0x8F8F8F8F else 0xFFFFFFFF

/-- A NaN sub-block: X = −128; its elements and micro-shifts are free values. -/
def Group.putNanSub (x : Group) (ty r c m use : Nat) (ls : List Nat) : Group :=
  let x := ls.foldl (fun x l => x.wv r l (Config.freeWord (use + l) &&& BitVec.ofNat 32 (elemBitsMask ty))) x
  x.setExpWord ty r c m ((Config.freeWord (use + 32 + m)).toNat % 256 * 256 + 0x80)

/-- Quantise sub-block `m` of an instruction with active lanes `act`; whether it was clamped is VSTAT.QCLAMP. -/
def quantOne (f : LA) (l : Lane) (use m : Nat) (x0 x : Group) : Group :=
  let ty := f.ty.toNat
  let n := blockPer ty
  let ls := (lanesOfSub ty m).filter (fun i => l.act.getLsbD i)
  let w := x0.rfmt (f.imm.toNat % 8)
  let vs := (span (16 * m) 16).map (fun e =>
    if ls.contains (e / n) then (slotFmt f).val (slotBits f x0 f.va.toNat (e / n) (e % n)) else .fin false 0 0)
  if ls.isEmpty then x
  else
    let r := quantSb (blockP ty) (frecMode w l.b.frm) vs
    if r.1.x = -128 then x.putNanSub ty f.vd.toNat f.vb.toNat m use ls
    else (x.putSub ty f.vd.toNat f.vb.toNat m r.1 ls).orVstat (if r.2 then vstatClamp else 0)

def execVqnt (f : LA) (s : State) : Res :=
  laneOp (.vqnt f) f.kq { Need.plain with badFormat := frecRefused f } s fun l s =>
    let x := s.me
    let ty := f.ty.toNat
    let y := (List.range (subCount ty)).foldl (fun y m => quantOne f l s.free m x y) x
    let seen := (lanesOf l.act).flatMap (fun i => (List.range (blockPer ty)).map (fun j =>
      slotAmax f (slotBits f x f.va.toNat i j)))
    let y := if frecAmax (x.rfmt (f.imm.toNat % 8)) then { y with csr := { y.csr with amax := amaxOf y.csr.amax seen } } else y
    laneRetire l { s.setMe y with free := s.free + 64 }

/-- A slot's result: the element's value converted (R89). -/
def dequantOne (f : LA) (l : Lane) (x : Group) (i j : Nat) : FRes :=
  let ty := f.ty.toNat
  let e := blockPer ty * i + j
  let w := x.expWord ty f.va.toNat f.vb.toNat (e / 16)
  let v := elemVal (blockP ty) (sByte (w % 256)) (muOf (w / 256) (e % 16)) (x.blockElem ty f.va.toNat e)
  if f.sub = 0 then f32.convert 0 0 v else bf16.convert (modeOf f l) (slotDither f x i j) v

def execVdqn (f : LA) (s : State) : Res :=
  laneOp (.vdqn f) f.kq { Need.plain with badFormat := frecRefused f, rnd := f.rnd.toNat } s fun l s =>
    perLane l f.vd.toNat (fun x i =>
      let rs := (List.range (blockPer f.ty.toNat)).map (dequantOne f l x i)
      { words := splitWords f.slotRegs (joinElems (if f.sub = 0 then 32 else 16) (rs.map (·.bits))),
        flags := orAll (rs.map (·.flags)), vstat := 0 }) s

/-! ### VAIC and VAIF -/

/-- Element `i` of a pair of registers, by lane. -/
def Group.pairElem (x : Group) (r i : Nat) : Word := if i < 32 then x.rv r i else x.rv (r + 1) (i - 32)

/-- Words of the 64-bit integer that lane `l` receives as element `i` of a quad. -/
def putAi (x : Group) (r i : Nat) (q : Int) : Group :=
  let v := intBits 64 q
  let b := if i < 32 then r else r + 2
  (x.wv b (i % 32) (BitVec.ofNat 32 v)).wv (b + 1) (i % 32) (BitVec.ofNat 32 (v / 2 ^ 32))

/-- VAIC: q is written first and Ec last, which remains where vc lies inside the quad (assumption 138). -/
def execVaic (f : LA) (s : State) : Res :=
  laneOp (.vaic f) f.kq Need.plain s fun l s =>
    let x := s.me
    let fc := f.imm.toNat % 64
    let want := (x.rv f.vb.toNat 0).toInt
    let on (i : Nat) : Bool := l.act.getLsbD (i % 32)
    let vs := (List.range 64).map (fun i => if on i then f32.val (x.pairElem f.va.toNat i).toNat else .fin false 0 0)
    let r := chunkOf fc (if -149 ≤ want ∧ want ≤ 127 then some want else none) vs
    let q (i : Nat) : Int :=
      if r.1.ec = aiNan then
        (Config.freeWord (s.free + 2 * i)).toNat + 2 ^ 32 * (Config.freeWord (s.free + 2 * i + 1)).toNat
      else r.1.q.getD i 0
    let y := ((List.range 64).filter on).foldl (fun y i => putAi y f.vd.toNat i (q i)) x
    let y := (lanesOf l.act).foldl (fun y i => y.wv f.vc.toNat i (BitVec.ofInt 32 r.1.ec)) y
    laneRetire l { s.setMe (y.orVstat (if r.2 then vstatAiovf else 0)) with free := s.free + 128 }

def execVaif (f : LA) (s : State) : Res :=
  laneOp (.vaif f) f.kq Need.plain s fun l s =>
    let fc := f.imm.toNat % 64
    perLane l f.vd.toNat (fun x i =>
      let ec := elemInt 8 16 ((x.rv f.vb.toNat 0).toNat % 2 ^ 16)
      let q (r : Nat) : Int := elemInt 2 64 (x.rv64 r i).toNat
      let rs := [aiDecode fc ec (q f.va.toNat), aiDecode fc ec (q (f.va.toNat + 2))]
      { words := rs.map (fun r => BitVec.ofNat 32 r.bits), flags := orAll (rs.map (·.flags)), vstat := 0 }) s

end Sys2Proof.Machine
end

