-- ==== Sys2Proof/Machine/LaneMem.lean ====
section
/-! DEFINITION. Lane loads and stores (R151 to R158, R161 to R163, R221) and the return of load data (R158, R345). -/

namespace Sys2Proof.Machine

/-! ### What lane memory instructions share -/

/-- Deliver what a check raised at a lane instruction; after BOUNDS the stream resumes at the next one (R334). -/
def laneRaise (l : Lane) (r : Raised) (s : State) : Res :=
  let site := s.me.laneSite l.b l.w
  .next ((if r.cause = causeBounds then s.laneDone l else s).raise s.cur.g site (s.me.slot l.b.slotB).pc r)

/-- Issue a lane instruction that names record `f.b`: it waits for a BRLD that still writes the record, and for an
acquiring access of the group (R119, R258, R260). -/
def memGate (form : LaneForm) (w : Nat) (f : LM) (need : Need) (s : State) (k : Lane → Rec → State → Res) : Res :=
  if s.me.pendingB [f.b.toNat] then stall s
  else
    laneGate form w f.kq need s fun l s =>
      if s.me.acquiring then stall s else k l (recOf (s.me.rb f.b.toNat)) s

/-- The same for lane instruction `i`. -/
def memOp (i : Instr) (f : LM) (need : Need) (s : State) (k : Lane → Rec → State → Res) : Res :=
  memGate (formOf i) (laneWord i) f need s k

/-- Each active lane's logical offset (R151). -/
def laneOffsets (f : LM) (l : Lane) (x : Group) : List (Nat × Int) :=
  (lanesOf l.act).map (fun i => (i, ((x.rv f.voff.toNat i).toNat : Int) + f.disp.toInt))

/-- The classes of flat access (R150). -/
def flatClasses : List Nat := [0, 1, 3]

/-- The low `n` bytes of a lane's data from register `r` up. -/
def Group.laneBytes (x : Group) (r n i : Nat) : List Byte :=
  natBytes n (joinElems 32 ((List.range ((n + 3) / 4)).map (fun k => (x.rv (r + k) i).toNat)))

/-- Go on with an admitted access. -/
def withAccess (l : Lane) (a : Admit) (s : State) (k : List LaneAcc → Res) : Res :=
  match a with
  | .trap t => laneRaise l t s
  | .miss s => .next s
  | .go accs => k accs

/-- A lane load enters the load class and completes for its block. -/
def laneLoad (l : Lane) (kind : LoadKind) (accs : List LaneAcc) (hint cls : Nat) (s : State) : Res :=
  let x := s.me
  if 63 ≤ x.loadCount then stall s
  else
    laneRetire l ((s.setMe (x.addLoad kind accs hint cls l.b.seq (x.laneSite l.b l.w))).handOver s.cur.g l.b.slotB true
      .load x.seq accs)

/-- The head of the lane queue waits for credit and remembers since when, and its words (R227). -/
def laneCreditWait (l : Lane) (s : State) : Res :=
  match s.me.laneWait with
  | some _ => stall s
  | none => .next (s.setMe { s.me with laneWait := some (s.ck, l.w) })

/-- The write of a lane's data on the instruction's stream. -/
def writeOf (f : LM) (r : Rec) (a : LaneAcc) (bs : List Byte) : Write :=
  { va := a.va, loc := a.loc, data := bs, stream := f.stream.toNat, cls := r.cls }

/-- An admitted lane store enters the store queue whole, at its charge (R156, R225). -/
def enterStore (l : Lane) (f : LM) (charge : Nat) (accs : List LaneAcc) (ws : List Write) (x : Group) (s : State) : Res :=
  laneRetire l (((s.setMe (x.addStore (.bytes ws) f.hint.toNat l.b.seq l.b.slotB true)).handOver s.cur.g l.b.slotB true .store
    x.seq accs).payCredit s.cur.g charge)

/-- A lane store that waits for its place in the store queue and for credit. -/
def laneStore (l : Lane) (f : LM) (charge : Nat) (accs : List LaneAcc) (ws : List Write) (s : State) : Res :=
  if s.me.storeFull then stall s
  else if s.creditFor s.cur.g charge = false then laneCreditWait l s
  else enterStore l f charge accs ws s.me s

/-! ### VLD, VST, VSTNB -/

def execVld (f : LM) (s : State) : Res :=
  let n := 2 ^ f.wc.toNat
  memOp (.vld f) f Need.plain s fun l r s =>
    let q : Ask := { classes := flatClasses, n := n, reads := true, writes := false }
    withAccess l (s.vetAccess s.cur.g l.b.slotB r q (laneOffsets f l s.me)) s fun accs =>
      laneLoad l (.lanes f.vd.toNat n) accs f.hint.toNat r.cls s

def execVst (f : LM) (s : State) : Res :=
  let n := 2 ^ f.wc.toNat
  memOp (.vst f) f Need.plain s fun l r s =>
    let q : Ask := { classes := flatClasses, n := n, reads := false, writes := true }
    withAccess l (s.vetAccess s.cur.g l.b.slotB r q (laneOffsets f l s.me)) s fun accs =>
      let ws := accs.map (fun a => writeOf f r a (s.me.laneBytes f.vd.toNat n a.lane))
      laneStore l f (if r.cls = 0 then storeCharge n (accs.map (·.va)) else 0) accs ws s

/-- The lanes that VSTNB accepts at the credit of a team (R157, R225): in ascending order, while the row-lines so far are
covered. -/
def acceptLanes (credit : Int) (n : Nat) : List (Nat × Nat) → List Nat → List (Nat × Nat)
  | [], _ => []
  | (i, a) :: rest, lines =>
    let now := distinct (lines ++ rowLines n [a])
    if 0 ≤ credit ∧ (32 * now.length : Int) ≤ credit then (i, a) :: acceptLanes credit n rest now else []

/-- The lanes accepted: all of them outside a budget, none while the group's stores stand at their limit. -/
def State.acceptedLanes (s : State) (cls n : Nat) (as : List (Nat × Nat)) : List (Nat × Nat) :=
  if s.me.storeFull then []
  else
    match s.teamOf s.cur.g with
    | some t => if cls = 0 ∧ budgetOf t.stbcfg ≠ 0 then acceptLanes t.credit n as [] else as
    | none => as

/-- VSTNB: as the checks of R153, that of the range locks covers every active lane, accepted or not (assumption 141). -/
def execVstnb (f : LM) (s : State) : Res :=
  let n := 2 ^ f.wc.toNat
  memOp (.vstnb f) f Need.plain s fun l r s =>
    let g := s.cur.g
    let os := laneOffsets f l s.me
    let as := r.addrs (hclOf g) os
    let q : Ask := { classes := flatClasses, n := n, reads := false, writes := true }
    let locked := s.lockConflicts (hclOf g) s.me.ident.ctx true n as
    match r.check s (hclOf g) q os with
    | some t => laneRaise l t s
    | none =>
      if locked ≠ 0 then laneRaise l (raised causeRangelock locked) s
      else
        let ok := s.acceptedLanes r.cls n as
        withAccess l (s.translate (s.streamAsker g l.b.slotB true) r.cls .store ok) s fun accs =>
          let x := s.me.putMask (f.second.toNat % 16) l.act (l.act &&& ~~~(maskOf (ok.map (·.1))))
          if ok.isEmpty then laneRetire l (s.setMe x)
          else
            let ws := accs.map (fun a => writeOf f r a (x.laneBytes f.vd.toNat n a.lane))
            enterStore l f (if r.cls = 0 then storeCharge n (accs.map (·.va)) else 0) accs ws x s

/-! ### VLDT (R221) -/

def execVldt (f : LM) (s : State) : Res :=
  let n := 2 ^ f.wc.toNat
  memOp (.vldt f) f Need.plain s fun l r s =>
    let w : Int := r.width
    let low := (lanesOf l.act).head?.getD 0
    let o0 : Int := ((s.me.rv f.voff.toNat low).toNat : Int) + f.disp.toInt - low * w
    let os := (lanesOf l.act).map (fun (i : Nat) => (i, o0 + i * w))
    let q : Ask := { classes := [0], n := n, reads := true, writes := false }
    if r.cls ≠ 0 ∨ r.swz ≠ 1 ∨ r.refused = true then laneIllegal l 0 s
    else if l.act ≠ 0 ∧ (o0 / w % 32 ≠ 0 ∨ o0 % w % n ≠ 0) then laneRaise l (raised causeAlign l.act) s
    else
      withAccess l (s.vetAccess s.cur.g l.b.slotB r q os) s fun accs =>
        laneLoad l (.column f.vd.toNat n) accs f.hint.toNat r.cls s

/-! ### VLDB and VSTB (R161 to R163) -/

/-- The format record that a buffer record names. -/
def Group.frecOf (x : Group) (b : Nat) : Word := x.rfmt (recOf (x.rb b)).fmt

/-- R84 for a block access: its block type is the widest of SET. -/
def blockNeed (f : LM) : Need :=
  { Need.plain with badFormat := fun x b => frecBad (x.frecOf f.b.toNat) b.frm }

/-- A live slot: its lowest active lane, its number, and its logical offset (R161). -/
structure LiveSlot where
  low : Nat
  slot : Nat
  lanes : List Nat
  off : Int
  deriving DecidableEq, Repr

/-- The live slots of block type `ty`, in ascending order. -/
def liveSlots (f : LM) (ty : Nat) (l : Lane) (x : Group) : List LiveSlot :=
  (List.range (subCount ty)).filterMap (fun m =>
    match (lanesOfSub ty m).filter (fun i => l.act.getLsbD i) with
    | [] => none
    | low :: rest =>
      some { low := low, slot := m, lanes := low :: rest,
             off := ((x.rv f.voff.toNat low).toNat : Int) + f.disp.toInt })

/-- The slot's sub-block, and the logical offset of its block: one below the range where the sub-block lies past the
granule, so that the slot fails with BOUNDS. -/
def LiveSlot.sub (v : LiveSlot) : Nat := (v.off % 64).toNat
def LiveSlot.base (v : LiveSlot) (w : Word) : Int := if frecGlen w ≤ v.sub then -64 else v.off - v.off % 64

/-- The lanes of the slots, each with its slot's block. -/
def slotLanes (w : Word) (vs : List LiveSlot) : List (Nat × Int) := vs.flatMap (fun v => v.lanes.map (fun i => (i, v.base w)))

/-- The checks of a block access (R153, R161): BASE is a multiple of 64 whether or not a slot is live. -/
def Rec.checkBlocks (r : Rec) (s : State) (q : Ask) (lanes : List (Nat × Int)) : Option Raised :=
  match r.check s (hclOf s.cur.g) q lanes with
  | some t => some t
  | none => if r.base % 64 = 0 then none else some (raised causeAlign (maskOf (lanes.map (·.1))))

def execVldb (f : LM) (s : State) : Res :=
  memOp (.vldb f) f (blockNeed f) s fun l r s =>
    let w := s.me.frecOf f.b.toNat
    let vs := liveSlots f (widest w) l s.me
    let q : Ask := { classes := flatClasses, n := 64, reads := true, writes := false }
    if r.swz ≠ 0 then laneIllegal l 0 s
    else
      match r.checkBlocks s q (slotLanes w vs) with
      | some t => laneRaise l t s
      | none =>
        withAccess l (s.vetAccess s.cur.g l.b.slotB r q (slotLanes w vs)) s fun accs =>
          let lows := accs.filter (fun a => vs.any (fun v => v.low == a.lane))
          let kind : LoadKind := .blocks f.vd.toNat f.second.toNat l.act w (vs.map (fun v => (v.low, v.slot, v.sub)))
          laneLoad l kind lows f.hint.toNat r.cls s

/-- The blocks that VSTB names, in ascending order of their lowest slot, each with its slots. -/
def blockGroups (w : Word) (vs : List LiveSlot) : List (Int × List LiveSlot) :=
  (distinct (vs.map (·.base w))).map (fun a => (a, vs.filter (fun v => v.base w == a)))

/-- Every sub-block of the granule is named by exactly one slot. -/
def granuleWhole (w : Word) (vs : List LiveSlot) : Bool :=
  (List.range (frecGlen w)).all (fun j => decide ((vs.filter (fun v => v.sub == j)).length = 1))

/-- The sub-blocks of a granule, in order. -/
def granuleSubs (f : LM) (ty : Nat) (w : Word) (x : Group) (vs : List LiveSlot) : List SubBlock :=
  (List.range (frecGlen w)).filterMap (fun j =>
    (vs.find? (fun v => v.sub == j)).map (fun v => x.subBlock ty f.vd.toNat f.second.toNat v.slot))

/-- VSTB: a granule that its slots do not name whole raises ALIGN after the checks of R153 and before the range locks
(assumption 140). -/
def execVstb (f : LM) (s : State) : Res :=
  memOp (.vstb f) f (blockNeed f) s fun l r s =>
    let x := s.me
    let w := x.frecOf f.b.toNat
    let ty := widest w
    let vs := liveSlots f ty l x
    let gs := blockGroups w vs
    let split := maskOf ((gs.filter (fun g => !granuleWhole w g.2)).flatMap (fun g => g.2.flatMap (·.lanes)))
    let q : Ask := { classes := flatClasses, n := 64, reads := false, writes := true }
    if r.swz ≠ 0 then laneIllegal l 0 s
    else
      match r.checkBlocks s q (slotLanes w vs) with
      | some t => laneRaise l t s
      | none =>
        if split ≠ 0 then laneRaise l (raised causeAlign split) s
        else
          withAccess l (s.vetAccess s.cur.g l.b.slotB r q (slotLanes w vs)) s fun accs =>
            let ws := gs.filterMap (fun g =>
              match g.2 with
              | [] => none
              | v :: _ => (accs.find? (fun a => a.lane == v.low)).map (fun a =>
                  writeOf f r a (storeBlock w ty (granuleSubs f ty w x g.2))))
            laneStore l f (if r.cls = 0 then 64 * gs.length else 0) accs ws s

/-! ### The return of load data -/

/-- A VLD of 1, 2, 4 or 8 bytes (R232). -/
def LoadKind.isFlat : LoadKind → Bool
  | .lanes _ n => decide (n ≤ 8)
  | _ => false

/-- Bytes of one access of a load. -/
def LoadKind.size : LoadKind → Nat
  | .lanes _ n => n
  | .column _ n => n
  | .blocks _ _ _ _ _ => 64
  | .scalar _ n => n
  | .record _ => 16
  | .atomic _ _ ty _ _ _ _ _ => 4 * wideOf ty
  | .fullEmpty _ _ _ => 4
  | .replica _ wide _ _ _ => if wide then 8 else 4
  | .opt _ _ _ _ _ _ => 4

def LoadKind.isColumn : LoadKind → Bool
  | .column _ _ => true
  | _ => false

/-- VRLD: the engine reads the replica at its home (R397). -/
def LoadKind.isReplica : LoadKind → Bool
  | .replica _ _ _ _ _ => true
  | _ => false

/-- An address as the fault record shows it: for a scratch place, its locator (R150). -/
def shownAddr (a : Nat) : Nat :=
  let c := (a - 2 ^ 60) / 2 ^ 21 % 12
  if isScr a then c / 4 * 2 ^ 23 + c % 4 * 2 ^ 21 + a % 2 ^ 21 else a

/-- BLKFMT (R85, R162): the lowest block that breaks R85, and the active lanes of the slots that read such a block. -/
def blocksTrap (act w : Word) (slots : List (Nat × Nat × Nat)) (got : List (Nat × Nat × List Byte)) : Option Raised :=
  let ty := widest w
  let bad := got.filter (fun a => blockBad w ty a.2.2)
  match bad with
  | [] => none
  | a :: rest =>
    let ls := (slots.filter (fun t => bad.any (fun b => b.1 == t.1))).flatMap (fun t => lanesOfSub ty t.2.1)
    some { cause := causeBlkfmt, mask := act &&& maskOf ls, reason := 0,
           addr := shownAddr (rest.foldl (fun m b => Nat.min m b.2.1) a.2.1) }

/-- The words of a lane's loaded bytes. -/
def bytesWords (bs : List Byte) : List Word := splitWords ((bs.length + 3) / 4) (bytesNat bs)

/-- The group after the sub-blocks of a VLDB are written (R162). -/
def Group.putBlocks (x : Group) (vd comp : Nat) (act w : Word) (slots : List (Nat × Nat × Nat))
    (got : List (Nat × Nat × List Byte)) : Group :=
  let ty := widest w
  slots.foldl (fun x t =>
    let bs := ((got.find? (fun a => a.1 == t.1)).map (·.2.2)).getD []
    x.putSub ty vd comp t.2.1 (loadSub ty bs t.2.2) ((lanesOfSub ty t.2.1).filter (fun i => act.getLsbD i))) x

/-- The exact sum of f32 values, rounded once (R397). -/
def sumF32 (bs : List Nat) : Nat :=
  let vs := bs.map f32.val
  let up := vs.any (fun v => v == .inf false)
  let down := vs.any (fun v => v == .inf true)
  if vs.any FVal.isNan || (up && down) then f32.nanBits
  else if up then (f32.inf false).bits
  else if down then (f32.inf true).bits
  else
    let term (v : FVal) : Int := match v with
      | .fin n m e => inUnits n m e f32.kmin
      | _ => 0
    (f32.roundInt 0 0 (vs.all (fun v => v.neg && v.isZero)) (vs.foldl (fun a v => a + term v) 0) f32.kmin).bits

/-- The exact sum of i64 values, clamped, and whether it was (R397). -/
def sumI64 (bs : List Nat) : Int × Bool := aiClamp (bs.foldl (fun a b => a + elemInt 2 64 b) 0)

/-- The terms of a lane's result of VRLD: this device's replica's, where it has been read as a rank's, and the other ranks'. -/
def replicaTerms (got : List (Nat × Nat × List Byte)) (t : Nat × List Nat) : List Nat :=
  ((got.filter (fun a => a.1 == t.1)).map (fun a => bytesNat a.2.2)) ++ t.2

/-- A lane's result of VRLD. -/
def Group.putReplica (x : Group) (vd : Nat) (wide : Bool) (got : List (Nat × Nat × List Byte)) (t : Nat × List Nat) : Group :=
  let vs := replicaTerms got t
  if wide then x.writeWords vd t.1 (splitWords 2 (intBits 64 (sumI64 vs).1))
  else x.writeWords vd t.1 [BitVec.ofNat 32 (sumF32 vs)]

/-- The group after a load's destination is written. -/
def Group.putLoad (x : Group) (e : LoadEntry) : Group :=
  let first := (e.got.head?.map (·.2.2)).getD []
  match e.kind with
  | .lanes vd _ => e.got.foldl (fun x a => x.writeWords vd a.1 (bytesWords a.2.2)) x
  | .column vd _ => e.got.foldl (fun x a => x.writeWords vd a.1 (bytesWords a.2.2)) x
  | .blocks vd comp act w slots => x.putBlocks vd comp act w slots e.got
  | .scalar rd n => if n = 8 then x.ws64 rd (BitVec.ofNat 64 (bytesNat first)) else x.ws rd (BitVec.ofNat 32 (bytesNat first))
  | .record bd => x.wb bd (BitVec.ofNat 128 (bytesNat first))
  | .replica vd wide _ _ terms =>
    let y := terms.foldl (fun x t => x.putReplica vd wide e.got t) x
    if wide then y.giveVstat e.id (if terms.any (fun t => (sumI64 (replicaTerms e.got t)).2) then vstatAiovf else 0) true else y
  | .atomic _ _ _ _ _ _ _ _ => x
  | .opt _ _ _ _ _ _ => x
  | .fullEmpty _ _ _ => x

/-- The check of a load's data: BRLD refuses some images (R119), VLDB some blocks (R85). -/
def LoadEntry.dataTrap (e : LoadEntry) : Option Raised :=
  match e.kind with
  | .record _ =>
    if imageRefused (BitVec.ofNat 128 (bytesNat ((e.got.head?.map (·.2.2)).getD []))) then some (raised causeIllegal 0) else none
  | .blocks _ _ act w slots => blocksTrap act w slots e.got
  | _ => none

/-- What a load has brought into the registers: all lanes of its vector registers, or its scalar registers or record. -/
def Group.broughtBy (x : Group) : LoadKind → List Word
  | .scalar rd n => (span rd (n / 4)).map x.rs
  | .record bd => (List.range 4).map (fun i => BitVec.ofNat 32 ((x.rb bd).toNat / 2 ^ (32 * i)))
  | k => (k.vregs.flatMap (fun r => span r.1 r.2)).flatMap (fun v => (List.range 32).map (x.rv v))

/-- The pair's replay log with the value of load `id`, which has completed (R359). -/
def Group.filledLog (x : Group) (id : Nat) : List ReplayRecord :=
  match x.loads.find? (fun e => e.id == id) with
  | some e => x.replayLog.map (fun r => if r = .value id [] then .value id (x.broughtBy e.kind) else r)
  | none => x.replayLog

/-- A load leaves the load class. -/
def Group.dropLoad (x : Group) (id : Nat) : Group :=
  { x with loads := x.loads.filter (fun e => e.id != id), replayLog := x.filledLog id }
def Group.setLoad (x : Group) (e : LoadEntry) : Group :=
  { x with loads := x.loads.map (fun y => if y.id = e.id then e else y) }

/-- Deliver what a load's data or its translation raised, at the load. -/
def State.loadRaise (s : State) (g : Nat) (e : LoadEntry) (r : Raised) : State :=
  let t : Trap := { cause := r.cause, mask := r.mask, code := 0, reason := r.reason, addr := r.addr, site := e.site }
  ((s.setGroup g ((s.group g).dropLoad e.id)).unwait (.access g e.id)).takeLate g e.id t
    (if e.site.lane then ((s.group g).slot e.slotB).pc else e.site.pc + 4)

/-- Every access of a load has its bytes: its destination is written; `fin` is what VOPT does then. -/
def State.loadEnds (s : State) (g : Nat) (e : LoadEntry) (fin : State → LoadEntry → State) : State :=
  match e.dataTrap, e.kind with
  | some r, _ => s.loadRaise g e r
  | none, .opt _ _ _ _ _ _ => fin s e
  | none, _ => s.setGroup g (((s.group g).putLoad e).dropLoad e.id)

/-- The class of the record that an access of a load goes through: VOPT has four records. -/
def LoadEntry.clsAt (e : LoadEntry) (lane : Nat) : Nat :=
  match e.kind with
  | .opt _ _ recs _ _ _ => (recOf (recs.getD (lane / 32) 0)).cls
  | _ => e.cls

/-- A load that is performed before later loads of its stream (R252): one that can return now, or a VATOM that is sent. -/
def LoadEntry.goesFirst (e : LoadEntry) : Bool :=
  e.accs.all (fun a => a.loc.isSome) && (match e.kind with
    | .fullEmpty _ _ _ | .replica _ _ _ _ _ => false
    | _ => true)

/-- An earlier load of the same stream is performed first. -/
def Group.earlierLoad (x : Group) (e : LoadEntry) : Bool :=
  x.loads.any (fun f => decide (f.id < e.id) && f.site.lane == e.site.lane && f.goesFirst)

/-- The group's earlier lane loads that are performed before an access that issues now. -/
def Group.laneLoadsFirst (x : Group) : Bool := x.loads.any (fun e => e.site.lane && e.goesFirst)

/-- A byte of these places is in an earlier packet of the group that no service group has executed (R158). -/
def State.inPackets (s : State) (g id n : Nat) (ps : List Loc) : Bool :=
  s.hcls.any (fun e => e.2.packets.any (fun p => p.g == g && decide (p.id < id) && p.lanes.any (fun l => ps.any (fun q => match q with
    | .dev a => decide (a < l.2.1 + 8) && decide (l.2.1 < a + n)
    | _ => false))))

/-- The bytes of device memory among the `n` from a place. -/
def devSpan (l : Loc) (n : Nat) : List Nat :=
  match l with
  | .dev a => span a n
  | _ => []

/-- What the accesses of a load do to the caches, each through its record's class. -/
def State.readCaches (s : State) (g : Nat) (e : LoadEntry) (here : List (Nat × Nat × Loc)) : State :=
  let n := e.kind.size
  match e.kind with
  | .replica _ _ _ _ _ => (s.l1Forget (coreOf g) (here.flatMap (fun a => devSpan a.2.2 n))).loadTouch
      (here.flatMap (fun a => devSpan a.2.2 n)) false 0
  | .opt _ _ _ _ _ _ => here.foldl (fun s a => s.loadCaches g (e.clsAt a.1) e.hint n false false [a.2.2]) s
  | k => s.loadCaches g e.cls e.hint n k.isColumn k.isFlat (here.map (·.2.2))

/-- The lanes of the accesses with a place are read now; the others wait for their pages. -/
def State.readLoad (s : State) (g : Nat) (e : LoadEntry) (fin : State → LoadEntry → State) : State :=
  let n := e.kind.size
  let home := e.kind.isColumn || e.kind.isReplica
  let here := e.accs.filterMap (fun a => a.loc.map (fun p => (a.lane, a.va, p)))
  let bad := here.filter (fun a => (List.range n).any (fun i => s.loadPoisoned g e.id (e.clsAt a.1) home (a.2.2.plus i)))
  match bad with
  | b :: _ => s.loadRaise g e { cause := causeUncorr, mask := maskOf (bad.map (·.1 % 32)), reason := 13, addr := b.2.1 }
  | [] =>
    let got := here.map (fun a =>
      (a.1, a.2.1, (List.range n).map (fun i => s.loadByte g e.id (e.clsAt a.1) home (a.2.2.plus i))))
    let s := s.readCaches g e here
    let e := { e with accs := e.accs.filter (fun a => a.loc.isNone), got := e.got ++ got }
    if e.accs.isEmpty then s.loadEnds g e fin else s.setGroup g ((s.group g).setLoad e)

/-- Put the places that the waiting accesses have now. -/
def placeWaiting : List LaneAcc → List LaneAcc → List LaneAcc
  | a :: rest, ps =>
    match a.loc, ps with
    | none, p :: ps => { a with loc := p.loc } :: placeWaiting rest ps
    | _, ps => a :: placeWaiting rest ps
  | [], _ => []

/-- LOAD_DATA_RETURN for load `k` of group `g`: accesses whose page was missing are translated again; then those with a
place are read. `send` handles a VATOM, whose lanes are sent to their service groups instead, and `fin` completes a VOPT. -/
def State.loadReturn (s : State) (g : Nat) (e : LoadEntry) (send fin : State → LoadEntry → State) : Res :=
  let x := s.group g
  let kind : Access := match e.kind with
    | .atomic _ _ _ _ _ _ _ _ => .store
    | _ => .load
  let waiting := (e.accs.filter (fun a => a.loc.isNone)).map (fun a => (a.lane, a.va))
  match s.translate (s.loadAsker g e) 0 kind waiting with
  | .trap r => .next (s.loadRaise g e r)
  | .miss s => .next s
  | .go ps =>
    let e := { e with accs := placeWaiting e.accs ps }
    let now := (e.accs.filter (fun a => a.loc.isSome)).map (·.va)
    if now.isEmpty && !e.accs.isEmpty then stall s
    else
      match e.kind with
      | .atomic _ _ _ _ _ _ _ _ => .next (send s e)
      | _ =>
        if x.earlierLoad e || s.loggedBytes g e.id now e.kind.size || s.inPackets g e.id e.kind.size (e.accs.filterMap (·.loc))
        then stall s
        else .next (s.readLoad g e fin)

end Sys2Proof.Machine
end

