-- ==== Sys2Proof/Machine/LaneOpt.lean ====
section
/-! DEFINITION. The optimiser instruction (R144 to R147). -/

namespace Sys2Proof.Machine

/-- A step of R146: a value and the flags raised so far. -/
structure OptVal where
  v : FVal
  bits : Nat
  flags : Nat
  deriving DecidableEq, Repr

/-- The value of an f32 encoding. -/
def optOf (b : Nat) : OptVal := { v := f32.val b, bits := b, flags := 0 }

/-- A rounded result, with the flags of its operands' steps. -/
def optRes (flags : Nat) (r : FRes) : OptVal := { v := f32.val r.bits, bits := r.bits, flags := flags ||| r.flags }

def optMul (a b : OptVal) : OptVal := optRes (a.flags ||| b.flags) (f32.mul 0 0 a.v b.v)
def optSub (a b : OptVal) : OptVal := optRes (a.flags ||| b.flags) (f32.sub 0 0 a.v b.v)
def optAdd (a b : OptVal) : OptVal := optRes (a.flags ||| b.flags) (f32.add 0 0 a.v b.v)
def optDiv (a b : OptVal) : OptVal := optRes (a.flags ||| b.flags) (f32.div 0 0 a.v b.v)
def optSqrt (a : OptVal) : OptVal := optRes a.flags (f32.sqrt 0 0 a.v)
def optFma (a b c : OptVal) : OptVal := optRes (a.flags ||| b.flags ||| c.flags) (f32.fma 0 0 a.v b.v c.v)
/-- −a, exact. -/
def optNeg (a : OptVal) : OptVal := { a with v := a.v.negate }

/-- The sign of Lion: +1, −1, +0, or the canonical NaN. -/
def optSign (c : OptVal) : OptVal :=
  match c.v with
  | .nan _ => { v := .nan false, bits := f32.nanBits, flags := c.flags }
  | v => if v.isZero then { optOf 0 with flags := c.flags }
         else { optOf (if v.neg then 0xBF800000 else 0x3F800000) with flags := c.flags }

/-- One lane of R146: w, m and v afterwards, and the flags raised. Mode 0 AdamW, 1 Adam, 2 Lion, 3 SGD. -/
def optLane (mode : Nat) (h : Nat → OptVal) (w g m v : OptVal) : Nat × Nat × Nat × Nat :=
  let g1 := optMul g (h 7)
  let g1 := if mode = 1 ∨ mode = 3 then optFma (h 4) w g1 else g1
  let t1 := optSub m g1
  match mode with
  | 3 =>
    let m' := optFma (h 1) m g1
    let w' := optFma (optNeg (h 0)) m' w
    (w'.bits, m'.bits, 0, w'.flags)
  | 2 =>
    let s := optSign (optFma (h 1) t1 g1)
    let m' := optFma (h 2) t1 g1
    let w' := optFma (optNeg (h 0)) (optFma (h 4) w s) w
    (w'.bits, m'.bits, 0, m'.flags ||| w'.flags)
  | _ =>
    let m' := optFma (h 1) t1 g1
    let t2 := optMul g1 g1
    let v' := optFma (h 2) (optSub v t2) t2
    let d := optAdd (optSqrt (optMul v' (h 6))) (h 3)
    let u := optDiv (optMul m' (h 5)) d
    let u := if mode = 0 then optFma (h 4) w u else u
    let w' := optFma (optNeg (h 0)) u w
    (w'.bits, m'.bits, v'.bits, w'.flags)

/-- The records named by imm32: weight, gradient, first moment and, for AdamW and Adam, second moment (R52). -/
def optRecs (f : LA) : List Nat :=
  let i := f.imm.toNat
  [i / 2 ^ 28, i / 2 ^ 24 % 16, i / 2 ^ 20 % 16] ++ (if f.sub.toNat < 2 then [i / 2 ^ 16 % 16] else [])

/-- The checks of R145. Every named record is read and needs RD, as R153 has it of a load (assumption 133). -/
def optCheck (s : State) (hcl : Nat) (rs : List Rec) (os : List (Nat × Int)) : Option Raised :=
  let all := maskOf (os.map (·.1))
  let stores := rs.take 1 ++ rs.drop 2
  let out := orAll (rs.map (fun r => (maskOf (outside (r.limit s hcl) 4 os)).toNat))
  let m : Word := if stores.any (fun r => !r.wr) || rs.any (fun r => !r.rd) then all else BitVec.ofNat 32 out
  let odd := orAll (rs.map (fun r =>
    (maskOf ((os.filter (fun l => decide ((r.base + r.swizzle l.2.toNat) % 4 ≠ 0))).map (·.1))).toNat))
  if rs.any (fun r => r.cls == 2 || r.cls == 4 || r.refused) then some (raised causeIllegal 0)
  else if m ≠ 0 then some (raised causeBounds m)
  else if rs.any (fun r => decide (r.base % r.unit ≠ 0)) then some (raised causeAlign all)
  else if odd ≠ 0 then some (raised causeAlign (BitVec.ofNat 32 odd))
  else none

/-- Translate every lane of each record, for a load or a store. The accesses of the records in order; lane l of record k has
number 32 × k + l. -/
def optPlaces (s : State) (q : Asker) (k : Access) : List (Nat × Rec × List (Nat × Nat)) → Admit
  | [] => .go []
  | (n, r, as) :: rest =>
    match s.translate q r.cls k (as.map (fun a => (32 * n + a.1, a.2))), optPlaces s q k rest with
    | .trap t, _ => .trap t
    | .miss s, _ => .miss s
    | .go _, .trap t => .trap t
    | .go _, .miss s => .miss s
    | .go a, .go b => .go (a ++ b)

/-- A VOPT enters the load class and the store class (R147): its loads, and its place in the store queue, whose bytes come
with the loads' data. Its flags enter FSTAT in lane program order. -/
def optIssue (f : LA) (l : Lane) (recs : List (BitVec 128)) (reads writes : List LaneAcc) (charge : Nat) (s : State) : Res :=
  let x := s.me
  let g := s.cur.g
  let kind : LoadKind := .opt f.sub.toNat l.act recs ((List.range 8).map (fun k => l.b.arg (f.vc.toNat + k))) l.b.fpe
    (writes.map (fun a => (a.lane / 32, { a with lane := a.lane % 32 })))
  let y := (x.awaitFstat x.seq).addLoad kind reads 0 0 l.b.seq (x.laneSite l.b l.w)
  let z := y.addStore (.bytes []) 0 l.b.seq l.b.slotB true
  let s := ((s.setMe z).handOver g l.b.slotB true .load x.seq reads).handOver g l.b.slotB true .store (x.seq + 1) writes
  laneRetire l (s.payCredit g charge)

/-- The value that a lane of VOPT read from record `k`. -/
def optVal (e : LoadEntry) (k lane : Nat) : OptVal :=
  optOf (((e.got.find? (fun a => a.1 == 32 * k + lane)).map (fun a => bytesNat a.2.2)).getD 0)

/-- What each active lane of a VOPT computes (R146). -/
def optOut (e : LoadEntry) (mode : Nat) (act : Word) (hyper : List Word) : List (Nat × Nat × Nat × Nat × Nat) :=
  (lanesOf act).map (fun i =>
    (i, optLane mode (fun k => optOf (hyper.getD k 0).toNat) (optVal e 0 i) (optVal e 1 i) (optVal e 2 i) (optVal e 3 i)))

/-- The writes of a VOPT in the order of R147, without the faulting lanes'. -/
def optWrites (recs : List (BitVec 128)) (out : List (Nat × Nat × Nat × Nat × Nat)) (faulty : List Nat)
    (writes : List (Nat × LaneAcc)) : List Write :=
  writes.filterMap (fun w =>
    let r := recOf (recs.getD w.1 0)
    let o := ((out.find? (fun o => o.1 == w.2.lane)).map (·.2)).getD (0, 0, 0, 0)
    if faulty.contains w.2.lane then none
    else some { va := w.2.va, loc := w.2.loc, data := natBytes 4 (if w.1 = 0 then o.1 else if w.1 = 2 then o.2.1 else o.2.2.1),
                stream := r.ws, cls := r.cls })

/-- Every load of a VOPT has its data: it computes, its stores have their bytes, and an enabled flag raises FPX, which leaves the
stores of the other lanes (R124, R146, R147). -/
def optDone (g : Nat) (s : State) (e : LoadEntry) : State :=
  match e.kind with
  | .opt mode act recs hyper fpe writes =>
    let x := s.group g
    let out := optOut e mode act hyper
    let res := out.map (fun o => (o.1, ({ words := [], flags := o.2.2.2.2, vstat := 0 } : LaneRes)))
    let faulty := faultingLanes fpe res
    let put (t : StoreEntry) : StoreEntry :=
      if t.id = e.id + 1 then { t with kind := .bytes (optWrites recs out faulty writes) } else t
    let y := { x.dropLoad e.id with stores := x.stores.map put }
    let s := s.setGroup g (y.giveFstat e.id (orAll (res.map (·.2.flags))))
    if faulty.isEmpty then s
    else
      s.takeLate g (e.id + 1) { cause := causeFpx, mask := maskOf faulty, code := fpxCode fpe res, reason := 0, addr := 0,
                                site := e.site } (x.slot e.slotB).pc
  | _ => s

/-- The records of a VOPT with the addresses of its lanes, numbered. -/
def optAddrs (hcl : Nat) (rs : List Rec) (os : List (Nat × Int)) : List (Nat × Rec × List (Nat × Nat)) :=
  (List.range rs.length).zip (rs.map (fun r => (r, r.addrs hcl os)))

/-- VOPT. -/
def optOp (i : Instr) (f : LA) (s : State) : Res :=
  if s.me.pendingB (optRecs f) then stall s
  else
    laneOp i f.kq { Need.plain with all := true } s fun l s =>
      let g := s.cur.g
      let x := s.me
      let who := s.streamAsker g l.b.slotB true
      let recs := (optRecs f).map x.rb
      let rs := recs.map recOf
      let os : List (Nat × Int) := (lanesOf l.act).map (fun i => (i, ((x.rv f.va.toNat i).toNat : Int)))
      let as := optAddrs who.hcl rs os
      let stored := as.take 1 ++ as.drop 2
      let locked := orAll (as.map (fun a => (s.lockConflicts who.hcl who.ctx false 4 a.2.2).toNat)
        ++ stored.map (fun a => (s.lockConflicts who.hcl who.ctx true 4 a.2.2).toNat))
      let lines := rowLines 4 ((stored.filter (fun a => a.2.1.cls == 0)).flatMap (fun a => a.2.2.map (·.2)))
      if x.acquiring then stall s
      else
        match optCheck s who.hcl rs os with
        | some t => laneRaise l t s
        | none =>
          if locked ≠ 0 then laneRaise l (raised causeRangelock (BitVec.ofNat 32 locked)) s
          else
            withAccess l (optPlaces s who .load as) s fun reads =>
            withAccess l (optPlaces s who .store stored) s fun writes =>
              if decide (63 ≤ x.loadCount) || x.storeFull then stall s
              else if s.creditFor g (32 * lines.length) = false then laneCreditWait l s
              else optIssue f l recs reads writes (32 * lines.length) s

def execVoptAdamw (f : LA) (s : State) : Res := optOp (.voptAdamw f) f s
def execVoptAdam (f : LA) (s : State) : Res := optOp (.voptAdam f) f s
def execVoptLion (f : LA) (s : State) : Res := optOp (.voptLion f) f s
def execVoptSgd (f : LA) (s : State) : Res := optOp (.voptSgd f) f s

end Sys2Proof.Machine
end

