-- ==== Sys2Proof/Machine/FullEmpty.lean ====
section
/-! DEFINITION. Full/empty words of the scratchpads (R213 to R216, R260). -/

namespace Sys2Proof.Machine

/-- One access to a word at its home: 0 VLDF, 1 VLDFK, 2 VSTE, 3 VSTF, 4 VFEC.empty, 5 VFEC.full. The core afterwards and
the word read; none while the lane must wait (R214). -/
def Core.feAccess (c : Core) (op word : Nat) (data : Word) : Option (Core × Word) :=
  let w := c.scrWord word
  match op with
  | 0 => if w.full then some (c.setScr word { w with full := false }, w.data) else none
  | 1 => if w.full then some (c, w.data) else none
  | 2 => if w.full then none else some (c.setScr word { data := data, full := true }, data)
  | 3 => some (c.setScr word { data := data, full := true }, data)
  | 4 => some (c.setScr word { w with full := false }, w.data)
  | _ => some (c.setScr word { w with full := true }, w.data)

/-- A full/empty load after one more lane has its word. -/
def LoadEntry.feGot (e : LoadEntry) (lane : Nat) (v : Word) : LoadEntry :=
  match e.kind with
  | .fullEmpty vd got n => { e with kind := .fullEmpty vd ((lane, v) :: got) (n - 1) }
  | _ => e

/-- The destination of a full/empty load whose lanes have all proceeded. -/
def LoadEntry.feWords (e : LoadEntry) : Option (Nat × List (Nat × Word)) :=
  match e.kind with
  | .fullEmpty vd got 0 => some (vd, got)
  | _ => none

/-- A lane of instruction `id` of group `g` has proceeded. A load whose lanes all have writes its destination and
invalidates the core's L1 (R260); a store leaves the store class. -/
def State.feProceed (s : State) (g id lane : Nat) (v : Word) : State :=
  let x := s.group g
  match x.loads.find? (fun e => e.id == id) with
  | some e =>
    let e := e.feGot lane v
    match e.feWords with
    | some (vd, got) =>
      (s.setGroup g ((got.foldl (fun x a => x.wv vd a.1 a.2) x).dropLoad id)).l1Invalidate (coreOf g)
    | none => s.setGroup g (x.setLoad e)
  | none =>
    let one (e : FeStore) : FeStore := if e.id = id then { e with waiting := e.waiting - 1 } else e
    s.setGroup g { x with feStores := (x.feStores.map one).filter (fun e => e.waiting != 0) }

/-- Serve the accesses that wait on a word, the oldest whose condition holds first, until none can proceed (R215). -/
def feServe (core word : Nat) : Nat → State → State
  | 0, s => s
  | n + 1, s =>
    let c := s.core core
    match c.waiters.find? (fun w => w.word == word && (c.feAccess w.op word w.data).isSome) with
    | none => s
    | some w =>
      match c.feAccess w.op word w.data with
      | none => s
      | some (c, v) =>
        let c := { c with waiters := c.waiters.filter (fun y => !(y.g == w.g && y.id == w.id && y.lane == w.lane)) }
        feServe core word n ((s.setCore core c).feProceed w.g w.id w.lane v)

/-- A lane's access reaches the word's home: it proceeds or waits. -/
def State.feArrive (s : State) (g id op lane va : Nat) (data : Word) (site : TrapSite) : State :=
  let core := (va - 2 ^ 60) / 2 ^ 21
  let word := va % 2 ^ 21 / 4
  let c := s.core core
  match c.feAccess op word data with
  | some (c, v) => feServe core word c.waiters.length ((s.setCore core c).feProceed g id lane v)
  | none =>
    let w : FeWaiter := { g := g, id := id, lane := lane, word := word, op := op, data := data, since := s.ck, site := site }
    s.setCore core { c with waiters := c.waiters ++ [w] }

/-- Every lane's access, in ascending lane order. -/
def feLanes (g id op : Nat) (data : Nat → Word) (site : TrapSite) : List LaneAcc → State → State
  | [], s => s
  | a :: rest, s => feLanes g id op data site rest (s.feArrive g id op a.lane a.va (data a.lane) site)

/-- The group's own store to one of these words has not been made: one in the queue, or a full/empty one that has not
gone to its home (R158). -/
def Group.queuedOver (x : Group) (as : List Nat) : Bool :=
  x.stores.any (fun e => match e.kind with
    | .bytes ws => rangesMeet 4 as (ws.map (fun w => (w.va, w.data.length)))
    | .discard _ _ => false
    | .reduce _ _ _ _ => false)
    || x.feStores.any (fun e => e.ahead.any (fun a => as.contains a.2.1))

/-- What full/empty instructions share: class 1, the checks of R153 with n = 4, and the range locks. -/
def feOp (i : Instr) (f : LM) (store : Bool) (s : State) (k : Lane → List LaneAcc → State → Res) : Res :=
  memOp i f Need.plain s fun l r s =>
    let q : Ask := { classes := [1], n := 4, reads := !store, writes := store }
    withAccess l (s.vetAccess s.cur.g l.b.slotB r q (laneOffsets f l s.me)) s fun accs => k l accs s

/-- VLDF (`op` 0) and VLDFK (1): the load completes when every lane has proceeded; with no active lane it completes at
once. -/
def feLoad (i : Instr) (f : LM) (op : Nat) (s : State) : Res :=
  feOp i f false s fun l accs s =>
    let x := s.me
    let site := x.laneSite l.b l.w
    if decide (63 ≤ x.loadCount) || x.queuedOver (accs.map (·.va)) || x.laneLoadsFirst then stall s
    else if accs.isEmpty then laneRetire l (s.l1Invalidate (coreOf s.cur.g))
    else
      let y := x.addLoad (.fullEmpty f.vd.toNat [] accs.length) [] 0 1 l.b.seq site
      laneRetire l (feLanes s.cur.g x.seq op (fun _ => 0) site accs (s.setMe y))

/-- The lanes of a full/empty store go to their words' homes now, in ascending lane order. -/
def State.feSend (s : State) (g : Nat) (e : FeStore) : State :=
  let x := s.group g
  let s := s.setGroup g { x with feStores := x.feStores.map (fun y => if y.id = e.id then { y with ahead := [] } else y) }
  e.ahead.foldl (fun s a => s.feArrive g e.id e.op a.1 a.2.1 a.2.2 e.site) s

/-- What the lanes of a full/empty store follow: for VSTE and VSTF every earlier access of the group (R260), for VFEC its own
earlier full/empty stores to the words (R158). -/
def State.feFollows (s : State) (g : Nat) (e : FeStore) : Bool :=
  if e.op < 4 then !s.earlierDone g e.id
  else (s.group g).feStores.any (fun y => decide (y.id < e.id) && y.ahead.any (fun a => e.ahead.any (fun b => a.2.1 == b.2.1)))

/-- VSTE (2), VSTF (3) and VFEC (4, 5): the instruction counts as a store until every lane has proceeded (R214). -/
def feStore (i : Instr) (f : LM) (op : Nat) (s : State) : Res :=
  feOp i f true s fun l accs s =>
    let x := s.me
    let g := s.cur.g
    let e : FeStore := { id := x.seq, seq := l.b.seq, waiting := accs.length, op := op, site := x.laneSite l.b l.w,
                         ahead := accs.map (fun a => (a.lane, a.va, x.rv f.vd.toNat a.lane)) }
    if 63 ≤ x.storeCount then stall s
    else if accs.isEmpty then laneRetire l s
    else
      let s := s.setMe { x.bump with feStores := x.feStores ++ [e] }
      laneRetire l (if s.feFollows g e then s else s.feSend g e)

def execVldf (f : LM) (s : State) : Res := feLoad (.vldf f) f 0 s
def execVldfk (f : LM) (s : State) : Res := feLoad (.vldfk f) f 1 s
def execVste (f : LM) (s : State) : Res := feStore (.vste f) f 2 s
def execVstf (f : LM) (s : State) : Res := feStore (.vstf f) f 3 s
def execVfecEmpty (f : LM) (s : State) : Res := feStore (.vfecEmpty f) f 4 s
def execVfecFull (f : LM) (s : State) : Res := feStore (.vfecFull f) f 5 s

/-- STORE_QUEUE_DRAIN: a side-log entry of the group replays, or else its store queue's head leaves, or else a full/empty
store whose turn has come goes to its words' homes. -/
def execStoreQueueDrain (g : Nat) (s : State) : Res :=
  match s.drainStores g with
  | some s => .next s
  | none =>
    match (s.group g).feStores.find? (fun e => !e.ahead.isEmpty && !s.feFollows g e) with
    | some e => .next (s.feSend g e)
    | none => stall s

/-- The lanes of group `g` that have waited longer than the limit, on every core. -/
def State.feLate (s : State) (g : Nat) : List FeWaiter :=
  let t := s.vm.fetmocfg.toNat
  if t = 0 then []
  else s.cores.flatMap (fun e => e.2.waiters.filter (fun w => w.g == g && decide (w.since + t < s.ck)))

/-- FETMO_TIMEOUT (R216): the late lanes of one instruction abandon their wait, and it raises FETMO; the
instruction is over. -/
def execFetmoTimeout (g : Nat) (s : State) : Res :=
  match s.feLate g with
  | [] => stall s
  | w :: rest =>
    let lanes := ((w :: rest).filter (fun y => y.id == w.id)).map (·.lane)
    let drop (c : Core) : Core :=
      { c with waiters := c.waiters.filter (fun y => !(y.g == g && y.id == w.id && lanes.contains y.lane)) }
    let s := { s with cores := s.cores.map (fun (e : Nat × Core) => (e.1, drop e.2)) }
    let x := s.group g
    let s := s.setGroup g { x.dropLoad w.id with feStores := x.feStores.filter (fun y => y.id != w.id) }
    let t : Trap := { cause := causeFetmo, mask := maskOf lanes, code := 0, reason := 0, addr := 0, site := w.site }
    .next (s.takeLate g w.id t ((s.group g).slot w.site.slotB).pc)

end Sys2Proof.Machine
end

