-- ==== Sys2Proof/Machine/Atomics.lean ====
section
/-! DEFINITION. Atomics and reductions at memory (R258, R259, R323 to R327): issue, the service groups' packets, and the
return of load data. -/

namespace Sys2Proof.Machine

/-! ### One address (R326) -/

/-- One lane's step on the current value: the value afterwards, and whether a sum was clamped. -/
def atomStep (op ty cur x c : Nat) : Nat × Bool :=
  let w := elemBits ty
  match op with
  | 0 => ((cur + x) % 2 ^ w, false)
  | 1 => (if elemInt ty w cur ≤ elemInt ty w x then cur else x, false)
  | 2 => (if elemInt ty w cur ≤ elemInt ty w x then x else cur, false)
  | 3 => (cur &&& x, false)
  | 4 => (cur ||| x, false)
  | 5 => (cur ^^^ x, false)
  | 6 => (x, false)
  | 7 => (if cur = c then x else cur, false)
  | 8 => ((f32.add 0 0 (f32.val cur) (f32.val x)).bits, false)
  | _ =>
    let r := aiClamp (elemInt 2 64 cur + elemInt 2 64 x)
    (intBits 64 r.1, r.2)

/-- The lanes that name one address, in ascending order: the last value, each lane's old value, and whether a sum was
clamped. -/
def atomLanes (op ty : Nat) : Nat → List (Nat × Nat × Nat) → Nat × List (Nat × Nat) × Bool
  | cur, [] => (cur, [], false)
  | cur, (l, x, c) :: rest =>
    let r := atomStep op ty cur x c
    let t := atomLanes op ty r.1 rest
    (t.1, (l, cur) :: t.2.1, r.2 || t.2.2)

/-! ### Service groups -/

/-- Add old values to the VATOM's entry; with all of them it completes: the destination is written, VSTAT.AIOVF set for a
clamp, and with .acq the L1 invalidated. -/
def State.atomReturn (s : State) (g id : Nat) (old : List (Nat × Nat)) (clamped : Bool) : State :=
  let x := s.group g
  match x.loads.find? (fun e => e.id == id) with
  | none => s
  | some e =>
    match e.kind with
    | .atomic vd op ty args had acq rel cl =>
      let all := had ++ old
      let cl := cl || clamped
      if all.length = args.length then
        let x := all.foldl (fun x a => x.writeWords vd a.1 (resultWords ty a.2)) x
        let s := s.setGroup g ((x.giveVstat id (if cl then vstatAiovf else 0) true).dropLoad id)
        if acq then s.l1Invalidate (coreOf g) else s
      else s.setGroup g (x.setLoad { e with kind := .atomic vd op ty args all acq rel cl })
    | _ => s

/-- A packet of a VREDM is acknowledged; with the last one the instruction completes, and VSTAT.AIOVF is set for a clamp in
any of them. A replayed reduction sets it too, while its group lives (R93). -/
def State.reduceAck (s : State) (g id : Nat) (clamped : Bool) : State :=
  let x := s.group g
  let last := !s.hcls.any (fun e => e.2.packets.any (fun p => p.g == g && p.id == id))
  let x := x.giveVstat id (if clamped then vstatAiovf else 0) last
  s.setGroup g (if last then { x with storesOther := x.storesOther.filter (fun e => e.1 != id) } else x)

/-- The addresses of a packet, in ascending order of the lowest lane that names each. -/
def Packet.addresses (p : Packet) : List Nat := distinct (p.lanes.map (fun l => l.2.1))

/-- Execute one address of a packet, as one indivisible step: the old values and whether a sum was clamped. -/
def State.atomAddress (s : State) (p : Packet) (pa : Nat) : State × List (Nat × Nat) × Bool :=
  let n := elemBits p.ty / 8
  let ls := (p.lanes.filter (fun l => l.2.1 == pa)).map (fun l => (l.1, l.2.2.1, l.2.2.2))
  let s := s.loadTouch (span pa n) false 0
  let r := atomLanes p.op p.ty (bytesNat (s.devBytes pa n)) ls
  let ws := (span pa n).zip (natBytes n r.1)
  let s := s.storeDev ws p.ctx 0 0
  let c := coreOf (p.g % orphan)
  (s.setCore c ((s.core c).l1Update ws), r.2.1, r.2.2)

/-- Execute the addresses in order. -/
def atomAddresses (p : Packet) : List Nat → State → State × List (Nat × Nat) × Bool
  | [], s => (s, [], false)
  | pa :: rest, s =>
    let r := s.atomAddress p pa
    let t := atomAddresses p rest r.1
    (t.1, r.2.1 ++ t.2.1, r.2.2 || t.2.2)

/-- The poisoned addresses of a packet. -/
def State.poisonedIn (s : State) (p : Packet) : List (Nat × Nat × Nat × Nat) := p.lanes.filter (fun l => s.poisoned l.2.1)

/-- A packet met poison: the context that issued it ends with UNCORR, unit 13 (R366). -/
def State.packetPoison (s : State) (p : Packet) (bad : List (Nat × Nat × Nat × Nat)) : State :=
  let mask := maskOf (bad.map (·.1))
  match (s.group p.g).loads.find? (fun e => e.id == p.id) with
  | some e => s.loadRaise p.g e { cause := causeUncorr, mask := mask, reason := 13, addr := 0 }
  | none =>
    s.terminate p.ctx causeUncorr 13 0 (locCode (p.g % orphan) false) p.ticket mask 0 0 0 0 0 0 0

/-- The sectors that a packet wrote count as stored to by its group (R255). -/
def State.noteSectors (s : State) (p : Packet) : State :=
  let x := s.group p.g
  if p.g < orphan ∧ x.resident = true then
    s.setGroup p.g { x with dirtySectors := distinct (x.dirtySectors ++ p.lanes.map (fun l => l.2.1 / 1024)) }
  else s

/-- ATOMIC_PACKET: the service group of a hardware core cluster executes the packet at the head of its queue. -/
def execAtomicPacket (hcl : Nat) (s : State) : Res :=
  let h := s.hcl hcl
  match h.packets with
  | [] => stall s
  | p :: rest =>
    let s := s.setHcl hcl { h with packets := rest }
    match s.poisonedIn p with
    | b :: bs => .next (s.packetPoison p (b :: bs))
    | [] =>
      let r := atomAddresses p p.addresses s
      let s := r.1.noteSectors p
      .next (State.preemptSettle (if p.returns then s.atomReturn p.g p.id r.2.1 r.2.2
        else if p.g < orphan then s.reduceAck p.g p.id r.2.2 else s) p.ctx)

/-! ### Issue -/

/-- What an atomic does at issue beside R153: its sub, whether it returns, and its modifiers. -/
structure Atom where
  op : Nat
  returns : Bool
  rel : Bool
  acq : Bool
  deriving DecidableEq, Repr

/-- An operand of a lane: a register, or a pair for a 64-bit type. -/
def atomOperand (f : LM) (x : Group) (r i : Nat) : Nat := x.operand (decide (elemBits f.ty.toNat = 64)) r i

/-- The checks of R325, in its order. -/
def atomCheck (s : State) (r : Rec) (f : LM) (a : Atom) (os : List (Nat × Int)) : Option Raised :=
  let g := s.cur.g
  let n := elemBits f.ty.toNat / 8
  let q : Ask := { classes := [0], n := n, reads := a.returns, writes := true }
  let locked := s.lockConflicts (hclOf g) s.me.ident.ctx true n (r.addrs (hclOf g) os)
  match r.check s (hclOf g) q os with
  | some t => some t
  | none =>
    if locked ≠ 0 then some (raised causeRangelock locked)
    else if a.op = 8 ∧ s.me.ident.deterministic = true then some (raised causeDeterm 0)
    else none

/-- A lane whose address translates to host memory ends the context (R325). -/
def hostLanes (accs : List LaneAcc) : Option Raised :=
  let bad := accs.filter (fun a => match a.loc with
    | some (.host _) => true
    | _ => false)
  match bad with
  | [] => none
  | b :: _ => some { cause := causePage, mask := maskOf (bad.map (·.lane)), reason := reasonAtomicHost, addr := b.va }

/-- Lanes for a packet: those with a device address. -/
def packetLanes (args : List (Nat × Nat × Nat)) (accs : List LaneAcc) : List (Nat × Nat × Nat × Nat) :=
  accs.filterMap (fun a => match a.loc, args.find? (fun e => e.1 == a.lane) with
    | some (.dev pa), some e => some (a.lane, pa, e.2.1, e.2.2)
    | _, _ => none)

/-- VATOMs of the group that hold a return slot (R325). -/
def Group.returnSlots (x : Group) : Nat :=
  (x.loads.filter (fun e => match e.kind with
    | .atomic _ _ _ _ _ _ _ _ => true
    | _ => false)).length

/-- The packet of group `g` that instruction `id` sends. -/
def State.packetOf (s : State) (g id op ty : Nat) (returns : Bool) (ls : List (Nat × Nat × Nat × Nat)) : Packet :=
  let x := s.group g
  { g := g, id := id, ctx := x.ident.ctx, op := op, ty := ty, returns := returns, ticket := x.ident.team.ticket, lanes := ls }

/-- An aligned-integer add that clamps sets VSTAT.AIOVF when it completes (R326). -/
def Group.awaitAiovf (x : Group) (op : Nat) : Group := if op = 9 then x.awaitVstat x.seq else x

/-- What a VATOM follows before its lanes are sent: as a load and a store, the group's earlier lane loads and lane stores,
earlier atomics alone as coherence orders them (R258, R326); with .rel every earlier access. -/
def State.atomFollows (s : State) (g : Nat) (e : LoadEntry) : Bool :=
  let x := s.group g
  let sent (f : LoadEntry) : Bool := match f.kind with
    | .atomic _ _ _ _ _ _ _ _ => f.accs.isEmpty
    | _ => false
  let release : Bool := match e.kind with
    | .atomic _ _ _ _ _ _ rel _ => rel
    | _ => false
  x.loads.any (fun f => decide (f.id < e.id) && f.site.lane && !sent f)
    || x.stores.any (fun f => decide (f.id < e.id) && f.lane)
    || x.feStores.any (fun f => decide (f.id < e.id))
    || (s.logOf g).any (fun f => decide (f.id < e.id))
    || (release && !s.earlierDone g e.id)

/-- The lanes of a VATOM that have their places are sent to their service groups when its turn has come and the queues have
room; the others wait as a faulting load's do. -/
def sendWaiting (g : Nat) (s : State) (e : LoadEntry) : State :=
  match e.kind with
  | .atomic _ op ty args _ _ _ _ =>
    match hostLanes e.accs with
    | some t => s.loadRaise g e t
    | none =>
      let ls := packetLanes args e.accs
      if s.atomFollows g e || s.packetsFull (ls.map (·.2.1)) then s
      else
        (s.setGroup g ((s.group g).setLoad { e with accs := e.accs.filter (fun a => a.loc.isNone) })).sendPackets
          (s.packetOf g e.id op ty true ls)
  | _ => s

/-- VATOM after its checks: it takes a return slot and is sent as soon as it may be. -/
def atomIssue (l : Lane) (f : LM) (a : Atom) (accs : List LaneAcc) (s : State) : Res :=
  let x := s.me
  let g := s.cur.g
  let args := accs.map (fun e => (e.lane, atomOperand f x f.vd.toNat e.lane, if a.op = 7 then atomOperand f x f.second.toNat e.lane else 0))
  if accs.isEmpty then laneRetire l (if a.acq then s.l1Invalidate (coreOf g) else s)
  else if decide (4 ≤ x.returnSlots) || decide (63 ≤ x.loadCount) then stall s
  else
    let kind : LoadKind := .atomic f.vd.toNat a.op f.ty.toNat args [] a.acq a.rel false
    let e : LoadEntry := { id := x.seq, seq := l.b.seq, kind := kind, accs := accs, got := [], hint := 0, cls := 0,
                           slotB := l.b.slotB, site := x.laneSite l.b l.w }
    let y := { (x.awaitAiovf a.op).bump with loads := x.loads ++ [e] }
    laneRetire l (sendWaiting g ((s.setMe y).handOver g l.b.slotB true .store x.seq accs) e)

/-- VREDM after its checks: it takes a place in the store queue, from where its packets go out in order (R325), or with a lane
whose page is missing the side log takes it whole (R346). -/
def reduceIssue (l : Lane) (f : LM) (a : Atom) (accs : List LaneAcc) (s : State) : Res :=
  let x := s.me
  let kind : StoreKind := .reduce a.op f.ty.toNat a.rel (accs.map (fun e => (e, atomOperand f x f.vd.toNat e.lane)))
  if accs.isEmpty then laneRetire l s
  else if x.storeFull then stall s
  else
    laneRetire l ((s.setMe ((x.awaitAiovf a.op).addStore kind 0 l.b.seq l.b.slotB true)).handOver s.cur.g l.b.slotB true .store
      x.seq accs)

/-- Issue an atomic of a form. -/
def atomOp (form : LaneForm) (w : Nat) (f : LM) (a : Atom) (s : State) : Res :=
  memGate form w f Need.plain s fun l r s =>
    let g := s.cur.g
    let os := laneOffsets f l s.me
    match atomCheck s r f a os with
    | some t => laneRaise l t s
    | none =>
      withAccess l (s.translate (s.streamAsker g l.b.slotB true) r.cls .store (r.addrs (hclOf g) os)) s fun accs =>
        match hostLanes accs with
        | some t => laneRaise l t s
        | none => if a.returns then atomIssue l f a accs s else reduceIssue l f a accs s

/-- VATOM with sub `op`. -/
def vatom (i : Instr) (f : LM) (op : Nat) (s : State) : Res :=
  atomOp (formOf i) (laneWord i) f { op := op, returns := true, rel := f.m.getLsbD 0, acq := f.m.getLsbD 1 } s

/-- VREDM with sub `op`. -/
def vredm (f : LM) (op : Nat) (tys : List Nat) (s : State) : Res :=
  atomOp (reduceForm f op tys) (withOp 0x7D (encodeLM f)) f { op := op, returns := false, rel := f.m.getLsbD 0, acq := false } s

def execVatomAdd (f : LM) (s : State) : Res := vatom (.vatomAdd f) f 0 s
def execVatomMin (f : LM) (s : State) : Res := vatom (.vatomMin f) f 1 s
def execVatomMax (f : LM) (s : State) : Res := vatom (.vatomMax f) f 2 s
def execVatomAnd (f : LM) (s : State) : Res := vatom (.vatomAnd f) f 3 s
def execVatomOr (f : LM) (s : State) : Res := vatom (.vatomOr f) f 4 s
def execVatomXor (f : LM) (s : State) : Res := vatom (.vatomXor f) f 5 s
def execVatomXchg (f : LM) (s : State) : Res := vatom (.vatomXchg f) f 6 s
def execVatomCas (f : LM) (s : State) : Res := vatom (.vatomCas f) f 7 s
def execVatomFadd (f : LM) (s : State) : Res := vatom (.vatomFadd f) f 8 s
def execVatomAiadd (f : LM) (s : State) : Res := vatom (.vatomAiadd f) f 9 s

def execVredmAdd (f : LM) (s : State) : Res := vredm f 0 [0, 1, 2, 3] s
def execVredmMin (f : LM) (s : State) : Res := vredm f 1 [0, 1, 2, 3] s
def execVredmMax (f : LM) (s : State) : Res := vredm f 2 [0, 1, 2, 3] s
def execVredmAnd (f : LM) (s : State) : Res := vredm f 3 [0, 1, 2, 3] s
def execVredmOr (f : LM) (s : State) : Res := vredm f 4 [0, 1, 2, 3] s
def execVredmXor (f : LM) (s : State) : Res := vredm f 5 [0, 1, 2, 3] s
def execVredmFadd (f : LM) (s : State) : Res := vredm f 8 [4] s
def execVredmAiadd (f : LM) (s : State) : Res := vredm f 9 [2] s

/-! ### Load data -/

/-- The generation changed while a VRLD was in flight: its lanes receive their fixed values, and STALE is set (R397). -/
def State.replicaStale (s : State) (g : Nat) (e : LoadEntry) : State :=
  match e.kind with
  | .replica vd wide c _ terms =>
    let ws : List Word := if wide then [0, 0x80000000] else [0x7FC00000]
    let lanes := terms.map (·.1)
    (s.setComm c ((s.comm c).setStale true)).setGroup g
      (lanes.foldl (fun x i => x.writeWords vd i ws) (((s.group g).giveVstat e.id 0 true).dropLoad e.id))
  | _ => s

/-- A VRLD that met another generation. -/
def LoadEntry.otherGen (e : LoadEntry) (gen : BitVec 64) : Bool :=
  match e.kind with
  | .replica _ _ _ was _ => decide (was ≠ gen)
  | _ => false

/-- A request of a VRLD for another rank's value has not left this device, for want of a route (R386). -/
def State.replicaAsks (s : State) (g : Nat) (e : LoadEntry) : Bool :=
  match e.kind with
  | .replica _ _ _ _ _ => s.fabric.waiting.any (fun m => match m.msg with
    | some (.replicaRequest _ _ _ _ tag) => tag / 32 == g * 2 ^ 32 + e.id
    | _ => false)
  | _ => false

/-- LOAD_DATA_RETURN: the data of load `k` of a group arrive. -/
def execLoadDataReturn (g k : Nat) (s : State) : Res :=
  match (s.group g).loads.find? (fun e => e.id == k) with
  | some e =>
    if e.otherGen s.member.gen then .next (s.replicaStale g e)
    else if e.ready && !s.replicaAsks g e then s.loadReturn g e (sendWaiting g) (optDone g)
    else stall s
  | none => stall s

end Sys2Proof.Machine
end

