-- ==== Sys2Proof/Machine/Ras.lean ====
section
/-! DEFINITION. Storage errors (R361, R362, R364, R365), poison and page retirement (R366), and their records (R367, R368). -/

namespace Sys2Proof.Machine

/-! ### FLAGS of a record (R367) -/

def flagTransient : Nat := 1
def flagLasting : Nat := 2
def flagRetired : Nat := 4
def flagQuarantined : Nat := 8
def flagTerminated : Nat := 16
def flagLimit : Nat := 32

/-! ### Retirement (R366) -/

/-- The first entry of the retire table that is not valid. -/
def Ras.freeEntry (r : Ras) : Option Nat := (List.range 1024).find? (fun j => !(Sparse.get 0 r.retire j).getLsbD 31)

/-- Enter a page in the retire table, and the FLAGS bit that says how it went. -/
def State.retirePage (s : State) (pa : Nat) : State × Nat :=
  if s.retired pa then (s, flagRetired)
  else
    match s.ras.freeEntry with
    | none => ({ s with ras := { s.ras with retFull := true } }, flagLimit)
    | some j =>
      ({ s with ras := { s.ras with retire := Sparse.put s.ras.retire j (BitVec.ofNat 32 (2 ^ 31 + pa / 2 ^ 16 % 2 ^ 24)) } },
        flagRetired)

/-- A sector reads as uncorrectable from now on. -/
def State.poisonSector (s : State) (n : Nat) : State :=
  { s with ras := { s.ras with poison := if s.ras.poison.contains n then s.ras.poison else s.ras.poison ++ [n] } }

/-- Some launch is in flight: a context runs. -/
def State.contextRuns (s : State) : Bool := s.sched.launches.any (fun l => l.status.isNone)

/-- Clear entry `j` while no context runs: zero is written over the whole page, and its poison is gone. -/
def State.clearRetired (s : State) (j : Nat) : State :=
  let e := Sparse.get 0 s.ras.retire j
  let page := e.toNat % 2 ^ 24
  if s.contextRuns || !e.getLsbD 31 then s
  else
    { s with
      mem := s.mem.filter (fun c => c.1 / 2 ^ 16 != page),
      llc := { s.llc with sectors := s.llc.sectors.filter (fun x => x.1 / 64 != page),
                          discards := s.llc.discards.filter (fun x => x.1 / 2048 != page) },
      ras := { s.ras with poison := s.ras.poison.filter (fun n => n / 64 != page),
                          retire := Sparse.put s.ras.retire j (e &&& 0x00FFFFFF) } }

/-- RETENT_CLEAR: ignored while any context runs. -/
def execRetentClear (j : Nat) (s : State) : Res := .next (s.clearRetired j)

/-! ### The LLC (R364, R365) -/

/-- A launch of the context, the oldest in flight: the TICKET of a termination that no group brought about. -/
def State.oldestTicket (s : State) (ctx : Nat) : Nat :=
  match s.sched.launches.find? (fun l => l.ctx == ctx && l.status.isNone) with
  | some l => l.ticket
  | none => 0

/-- The first group entry that holds a group of the context. -/
def State.groupOf (s : State) (ctx : Nat) : Option Nat :=
  (s.groups.find? (fun e => e.2.resident && e.2.ident.ctx == ctx)).map (·.1)

/-- Terminate a context for a reason that lies outside its groups: LOC and TICKET are those of a group of it (R376), where one
is running. -/
def State.terminateFor (s : State) (cause reason ctx : Nat) : State :=
  match s.groupOf ctx with
  | some g => s.terminate ctx cause reason 0 (locCode g false) (s.group g).ident.team.ticket 0 0 0 0 0 0 0 0
  | none => s.terminate ctx cause reason 0 0 (s.oldestTicket ctx) 0 0 0 0 0 0 0 0

/-- The bytes of a dirty sector are lost: memory holds it as poisoned, and its page is retired. -/
def State.loseSector (s : State) (n : Nat) : State × Nat := ((s.dropSector n).poisonSector n).retirePage (n * 1024)

/-- The bytes of several sectors are lost; FLAGS gathered. -/
def loseSectors : List Nat → Nat → State → State × Nat
  | [], f, s => (s, f)
  | n :: rest, f, s => loseSectors rest (f ||| (s.loseSector n).2) (s.loseSector n).1

/-- The test of a way after an uncorrectable error: FLAGS, and the way out of service where the error is lasting. -/
def State.testWay (s : State) (home : Nat × Nat × Nat) (way : Nat) (patternOk : Bool) : State × Nat :=
  let key := sliceKey home.1 home.2.1
  let dis := Sparse.get 0 s.llc.wayDis key
  if patternOk then (s, flagTransient)
  else if 8 ≤ popNat 16 dis.toNat then (s, flagLasting ||| flagLimit)
  else
    let gone := (s.llc.sectors.filter (fun e => e.2.way == way && (s.home e.1).1 == home.1 && (s.home e.1).2.1 == home.2.1)).map (·.1)
    let s := gone.foldl (fun s n => (s.cleanSector n).dropSector n) s
    ({ s with llc := { s.llc with wayDis := Sparse.put s.llc.wayDis key (setBit dis way) } }, flagLasting ||| flagQuarantined)

/-- The sectors whose bytes an error loses, and the contexts it ends. Of a set with a tag error the owners that can still be
read end; where none can, every context with a dirty sector in the slice does. -/
def State.lossOf (s : State) (n : Nat) (x : Sector) (err : LlcError) : List Nat × List Nat :=
  let dirty (l : List (Nat × Sector)) : List (Nat × Sector) := l.filter (fun e => e.2.dirty != 0)
  let owners (l : List (Nat × Sector)) : List Nat := distinct ((l.map (·.2.owner)).filter (fun c => c != 0))
  let h := s.home n
  if !err.tag then (if x.dirty = 0 then ([], []) else ([n], owners [(n, x)]))
  else
    let set := dirty (s.sameSet n)
    let read := set.filter (fun e => err.readable.getLsbD e.2.way)
    let slice := dirty (s.llc.sectors.filter (fun e => (s.home e.1).1 == h.1 && (s.home e.1).2.1 == h.2.1))
    (set.map (·.1), owners (if set.isEmpty then [] else if read.isEmpty then slice else read))

/-- LLC_UNCORRECTABLE: an error in a present sector. Clean, it is invalidated and will be read again, and the error is transient
(R369); dirty, its owner ends. An error whose one retry reads correctly is transient, and the data is used (R362). -/
def execLlcUncorrectable (err : LlcError) (s : State) : Res :=
  let n := err.pa / 1024
  match s.sector? n with
  | none => stall s
  | some x =>
    let h := s.home n
    let loc := h.1 * 2 ^ 14 + h.2.1 * 2 ^ 7 + x.way * 2 ^ 3
    let owner := if x.dirty = 0 then 0 else x.owner
    let log (flags : Nat) (s : State) : State := s.logError 4 2 flags owner loc err.synd.toNat (n * 1024)
    if err.retryOk then .next (log flagTransient s)
    else if !err.tag && x.dirty == 0 then .next (log flagTransient (s.dropSector n))
    else
      let loss := s.lossOf n x err
      let s := if err.tag then ((s.sameSet n).filter (fun e => e.2.dirty == 0)).foldl (fun s e => s.dropSector e.1) s
               else s.dropSector n
      let r := loseSectors loss.1 0 s
      let t := r.1.testWay h x.way err.patternOk
      let flags := r.2 ||| t.2 ||| (if loss.2.isEmpty then 0 else flagTerminated)
      .next (loss.2.foldl (fun s c => s.terminateFor causeUncorr 4 c) (log flags t.1))

/-! ### Corrected errors (R361, R362) -/

/-- The core that LOC names (R343). -/
def coreOfLoc (loc : Nat) : Nat :=
  let row := loc / 2 ^ 10 % 16
  let col := loc / 2 ^ 6 % 16
  loc / 2 ^ 14 * 144 + (3 * (row / 3) + col / 4) * 12 + 4 * (row % 3) + col % 4

/-- One more corrected error of a unit. -/
def State.countCorrected (s : State) (unit : Nat) : State :=
  let n := Nat.min 0xFFFFFFFF (Sparse.get 0 s.ras.corrected unit + 1)
  { s with ras := { s.ras with corrected := Sparse.put s.ras.corrected unit n } }

/-- What a corrected error that the retry meets again comes to (R362): a way of the LLC is quarantined, a page of HBM retired. -/
def State.lastingFault (s : State) (unit pa : Nat) : State × Nat :=
  if unit = 4 then
    match s.sector? (pa / 1024) with
    | some x => s.testWay (s.home (pa / 1024)) x.way false
    | none => (s, flagLasting)
  else if unit ≤ 3 then ((s.retirePage pa).1, flagLasting ||| (s.retirePage pa).2)
  else (s, flagLasting)

/-- CORRECTED_ERROR: one more of its unit, and a record; an L1 line is invalidated and will be fetched again. -/
def execCorrectedError (err : ErrSite) (s : State) : Res :=
  if !([1, 2, 3, 4, 5, 6, 7, 8, 10, 12].contains err.unit) then stall s
  else
    let s := s.countCorrected err.unit
    let c := coreOfLoc err.loc.toNat
    let s := if err.unit = 5 then s.setCore c { s.core c with l1 := (s.core c).l1.filter (fun l => l.line != err.pa / 128) }
             else s
    let r := if err.retryOk then (s, flagTransient) else s.lastingFault err.unit err.pa
    .next (r.1.logError err.unit 1 r.2 err.ctx err.loc.toNat err.synd.toNat err.pa)

/-! ### HBM (R362, R366) -/

/-- HBM_UNCORRECTABLE: poisoned and its page retired, unless the one retry read correctly; of the link, one of four retries,
which is then a corrected error. -/
def execHbmUncorrectable (err : HbmError) (s : State) : Res :=
  match s.place err.pa with
  | none => stall s
  | some p =>
    if err.unit = 0 ∨ 3 < err.unit then stall s
    else
      let loc := p.stack * 2 ^ 12 + p.layer * 2 ^ 8 + p.v / 2 ^ 17 % 32 * 2 ^ 3
      let pa := err.pa / 1024 * 1024
      let log (cls flags : Nat) (s : State) : Res := .next (s.logError err.unit cls flags 0 loc err.synd.toNat pa)
      if err.unit = 3 ∧ err.failed < 4 then log 1 flagTransient (s.countCorrected 3)
      else if err.failed = 0 then log 2 flagTransient s
      else
        let r := (s.poisonSector (pa / 1024)).retirePage pa
        log 2 (flagLasting ||| r.2) r.1

/-! ### The pool, the accumulator store and the load value queue (R361) -/

/-- The context that uses a word, with the handler bit, the LOC and the TICKET of its record: the holder of the flame for the
accumulator store (R308), the team for a phase record that waits, the group else. -/
def State.wordUser (s : State) (err : PoolError) : Option (Nat × Nat × Nat × Nat) :=
  let ofGroup (g : Nat) : Option (Nat × Nat × Nat × Nat) :=
    let x := s.group g
    if x.resident then some (x.ident.ctx, (if x.inHandler then 1 else 0), locCode g false, x.ident.team.ticket) else none
  match err.unit, err.record with
  | 8, _ => (s.core err.core).flame.bind ofGroup
  | 6, some (t, c, i) =>
    ((s.sched.clusters.find? (fun x => x.ticket == t && x.index == c)).bind (fun x =>
      x.teams.find? (fun m => m.key.team == i && !m.isRunning && m.core == err.core && !m.records.isEmpty))).bind (fun _ =>
        (s.launch? t).map (fun l => (l.ctx, 0, locCode (32 * err.core) false, t)))
  | _, _ => ofGroup err.g

/-- POOL_UNCORRECTABLE: the context using the word ends, unless the one retry read correctly. -/
def execPoolUncorrectable (err : PoolError) (s : State) : Res :=
  if !([6, 7, 8, 10].contains err.unit) || coreOf err.g != err.core then stall s
  else
    let log (flags ctx loc : Nat) : State := s.logError err.unit 2 flags ctx loc err.synd.toNat 0
    match s.wordUser err with
    | none => .next (log (if err.retryOk then flagTransient else flagLasting) 0 (locCode err.g false))
    | some (ctx, handler, loc, ticket) =>
      if err.retryOk then .next (log flagTransient ctx loc)
      else .next ((log (flagLasting ||| flagTerminated) ctx loc).terminate ctx causeUncorr err.unit handler loc ticket
        0 0 0 0 0 0 0 0)

end Sys2Proof.Machine
end

