-- ==== Sys2Proof/Machine/Regions.lean ====
section
/-! DEFINITION. The commit of an address region's mapping (R229 to R231), page hotness at the end of an interval (R245, R246),
and the host's accesses to device memory through BAR 2 (R251, R436). -/

namespace Sys2Proof.Machine

/-! ### The matrix of a region -/

/-- Gauss–Jordan elimination over GF(2) on the columns below `n`: each pivot column with its row. -/
def reduceRows : Nat → List Nat → List (Nat × Nat) → List (Nat × Nat)
  | 0, _, done => done
  | n + 1, rows, done =>
    match rows.find? (·.testBit n) with
    | none => reduceRows n rows done
    | some p =>
      let clear (r : Nat) : Nat := if r.testBit n then r ^^^ p else r
      reduceRows n ((rows.erase p).map clear) ((n, p) :: done.map (fun d => (d.1, clear d.2)))

/-- A list of `n` members: what is not listed is `d`. -/
def padded {α : Type} (n : Nat) (d : α) (l : List α) : List α := (List.range n).map (fun i => l.getD i d)

/-- The pivots of a matrix whose row i carries unit vector i above bit 30. -/
def RegionMap.pivots (r : RegionMap) : List (Nat × Nat) :=
  reduceRows 30 ((r.rows.zip (List.range 30)).map (fun e => e.1.toNat % 2 ^ 30 + 2 ^ (30 + e.2))) []

/-- Fewer than 30 pivots: singular. -/
def RegionMap.singular (r : RegionMap) : Bool := decide (r.pivots.length ≠ 30)

/-- All 30 rows and all 256 entries. -/
def RegionMap.full (r : RegionMap) : RegionMap := { r with rows := padded 30 0 r.rows, slots := padded 256 0 r.slots }

/-- The vector a with M·a = v. -/
def RegionMap.preimage (r : RegionMap) (v : Nat) : Nat :=
  (r.pivots.map (fun e => popNat 30 (e.2 / 2 ^ 30 &&& v) % 2 * 2 ^ e.1)).foldl (· + ·) 0

/-! ### DRAM -/

/-- The DRAM address of a physical address under a mapping: stack and layer, v below the slot, and the byte. -/
def RegionMap.dram (r : RegionMap) (pa : Nat) : Option Nat :=
  (r.place pa).map (fun p => ((p.stack * 16 + p.layer) * 2 ^ 22 + p.v % 2 ^ 22) * 1024 + pa % 1024)

/-- The physical address at which a mapping shows a DRAM address. -/
def RegionMap.shows (r : RegionMap) (d : Nat) : Option Nat :=
  let code := d / 2 ^ 32
  match r.slots.idxOf? (BitVec.ofNat 8 code) with
  | none => none
  | some j =>
    let pa := r.base + r.preimage (j * 2 ^ 22 + d / 1024 % 2 ^ 22) * 1024 + d % 1024
    if code = 0xFF ∨ r.limit ≤ pa then none else some pa

/-- Move what lies under a mapping out of reach: to its DRAM addresses. -/
def State.unmap (s : State) (r : RegionMap) : State :=
  let hidden (m : Memory) (c : Host.Cell) : Memory := match r.dram c.1 with
    | some d => m.write d c.2
    | none => m
  let here (pa : Nat) : Bool := (r.place pa).isSome
  { s with
    mem := s.mem.filter (fun c => !here c.1), dark := s.mem.foldl hidden s.dark,
    ras := { s.ras with poison := s.ras.poison.filter (fun n => !here (n * 1024)) },
    darkPoison := s.darkPoison ++ s.ras.poison.filterMap (fun n => (r.dram (n * 1024)).map (· / 1024)) }

/-- Bring what a mapping shows into reach. -/
def State.remap (s : State) (r : RegionMap) : State :=
  let shown (m : Memory) (c : Host.Cell) : Memory := match r.shows c.1 with
    | some pa => m.write pa c.2
    | none => m
  let kept (d : Nat) : Bool := (r.shows d).isNone
  { s with
    mem := s.dark.foldl shown s.mem, dark := s.dark.filter (fun c => kept c.1),
    ras := { s.ras with poison := s.ras.poison ++ s.darkPoison.filterMap (fun n => (r.shows (n * 1024)).map (· / 1024)) },
    darkPoison := s.darkPoison.filter (fun n => kept (n * 1024)) }

/-! ### A commit (R231) -/

/-- BASE and LIMIT keep their rules (R230). -/
def RegionMap.limitsOk (r : RegionMap) : Bool :=
  decide (r.base % 2 ^ 30 = 0) && decide (r.base < 2 ^ 40) && decide (r.limit % 2 ^ 30 = 0) && decide (r.base ≤ r.limit)
    && decide (r.limit ≤ 2 ^ 40)

/-- Disabled: LIMIT = BASE. -/
def RegionMap.isOff (r : RegionMap) : Bool := decide (r.limit = r.base)

/-- The (stack, layer) pairs that a mapping's table names. -/
def RegionMap.names (r : RegionMap) : List Byte := r.slots.filter (fun b => b != 0xFF)

/-- The range or the table of one enabled mapping meets that of another. -/
def RegionMap.overlaps (r q : RegionMap) : Bool :=
  !q.isOff && ((decide (r.base < q.limit) && decide (q.base < r.limit)) || r.names.any (fun b => q.names.contains b))

/-- The other regions' mappings: those that are active, and those that a pending commit will make so. -/
def State.otherMaps (s : State) (k : Nat) : List RegionMap :=
  ((List.range 8).filter (fun j => j != k)).flatMap (fun j =>
    let q := s.region j
    if q.status = 1 then [q.active, q.next] else [q.active])

/-- STATUS codes. -/
def regionActive : Nat := 0
def regionPending : Nat := 1

/-- The first failing check of a staged mapping, as STATUS; PENDING when every check passes. -/
def State.commitCheck (s : State) (k : Nat) (r : RegionMap) : Nat :=
  if !r.limitsOk then 5
  else if r.isOff then regionPending
  else if r.rows.any (fun w => decide (2 ^ 30 ≤ w.toNat)) then 6
  else if r.singular then 2
  else if r.names.length ≠ (distinct r.names).length ∨ (s.otherMaps k).any r.overlaps = true then 3
  else if r.names.any (fun b => decide (12 ≤ b.toNat / 16) || decide (b.toNat % 16 = 15)) then 4
  else regionPending

/-- A commit is issued; while one is PENDING it is ignored. -/
def State.commitRegion (s : State) (k : Nat) : State :=
  let x := s.region k
  if x.status = regionPending then s
  else s.setRegion k { x with status := s.commitCheck k x.staged.full, next := x.staged.full }

/-- REGION_COMMIT: 1 is written to COMMIT. -/
def execRegionCommit (k : Nat) (s : State) : Res := if 8 ≤ k then stall s else .next (s.commitRegion k)

/-- A place of an access in flight lies in a range. -/
def Loc.within (r : RegionMap) : Option Loc → Bool
  | some (.dev a) => decide (r.base ≤ a) && decide (a < r.limit)
  | _ => false

/-- A group's access in flight lies in a range. -/
def Group.reaches (x : Group) (r : RegionMap) : Bool :=
  x.loads.any (fun l => l.accs.any (fun a => Loc.within r a.loc))
    || x.stores.any (fun e => match e.kind with
      | .bytes ws => ws.any (fun w => Loc.within r w.loc)
      | .discard ls _ => ls.any (fun l => Loc.within r (some (.dev (l * 32))))
      | .reduce _ _ _ ls => ls.any (fun l => Loc.within r l.1.loc))

/-- Some access in flight lies in a range: of a group's loads and stores, or of the atomic service. -/
def State.inFlightWithin (s : State) (r : RegionMap) : Bool :=
  s.groups.any (fun e => e.2.reaches r)
    || s.hcls.any (fun e => e.2.packets.any (fun p => p.lanes.any (fun l => Loc.within r (some (.dev l.2.1)))))

/-- Write a region's dirty sectors back and drop every copy of it, the DRAM cache layer's blocks too, whose bytes go to their
data layers under the old mapping. -/
def State.purge (s : State) (r : RegionMap) : State :=
  let inside (a : Nat) : Bool := decide (r.base ≤ a) && decide (a < r.limit)
  let ns := (s.llc.sectors.map (·.1)).filter (fun n => inside (n * 1024))
  let s := ns.foldl (fun s n => (s.cleanSector n).dropSector n) s
  let layer := s.llc.layer.map (fun e => (e.1, e.2.filter (fun b => !inside (b.sector * 1024))))
  let discards := s.llc.discards.filter (fun e => !inside (e.1 * 32))
  let s := { s with llc := { s.llc with layer := layer.filter (fun e => !e.2.isEmpty), discards := discards } }
  { s with cores := s.cores.map (fun e => (e.1, { e.2 with l1 := e.2.l1.filter (fun l => !inside (l.line * 128)) })) }

/-- REGION_COMMIT_DONE: once the accesses in flight have completed, the new mapping takes effect. -/
def execRegionCommitDone (k : Nat) (s : State) : Res :=
  let x := s.region k
  if x.status ≠ regionPending ∨ s.inFlightWithin x.active = true then stall s
  else
    let s := (s.purge x.active).unmap x.active
    .next ((s.setRegion k { x with active := x.next, status := regionActive }).remap x.next)

/-! ### Page hotness (R245, R246) -/

/-- GLOWBASE. -/
def Hot.glow (h : Hot) : Nat := h.glowBaseH.toNat * 2 ^ 32 + h.glowBase.toNat / 4096 * 4096

/-- A ranks before b: the higher value, then the lower page number. Entries are (page, stack, estimate). -/
def hotter (a b : Nat × Nat × Nat) : Bool :=
  decide (b.2.2 < a.2.2) || (decide (b.2.2 = a.2.2) && decide (a.1 ≤ b.1))

/-- Insert an entry into a ranked list. -/
def rankIn (x : Nat × Nat × Nat) : List (Nat × Nat × Nat) → List (Nat × Nat × Nat)
  | [] => [x]
  | y :: rest => if hotter x y then x :: y :: rest else y :: rankIn x rest

/-- The first 256 pages of all controllers' tables, ranked. -/
def Hot.list (h : Hot) : List (Nat × Nat × Nat) :=
  ((h.tables.flatMap (fun t => t.2.map (fun e => (e.1, t.1, e.2)))).foldr rankIn []).take 256

/-- HOT_INTERVAL_END: the glow list is written, SEQ last, and every sketch and table is cleared. Before the interval's end
the event has nothing to do. -/
def execHotIntervalEnd (s : State) : Res :=
  if s.hot.over s.ck then
    let i := s.hot.interval
    let at_ := s.hot.glow + 4096 * (i % 2)
    let l := s.hot.list
    let entry (e : Nat × Nat × Nat) : List Byte := natBytes 3 e.1 ++ natBytes 1 e.2.1 ++ natBytes 2 e.2.2 ++ natBytes 2 0
    let body := natBytes 8 s.sinceCold ++ natBytes 2 l.length ++ natBytes 46 0 ++ l.flatMap entry
    let put (a : Nat) (bs : List Byte) (s : State) : State :=
      if (span a bs.length).all s.mapped then s.storeDevAt a bs 0 0 else s
    let s := put at_ (natBytes 8 (i + 1)) (put (at_ + 8) body s)
    .next (({ s with hot := { s.hot with counters := [], tables := [], interval := i + 1, since := s.ck } } : State).send (.msix 4))
  else stall s

/-! ### BAR 2 (R251, R436) -/

/-- HOST_BAR2_READ: served by the memory controller; Unsupported Request outside the enabled regions. The bytes of a poisoned
sector are free. -/
def execHostBar2Read (addr n : Nat) (s : State) : Res :=
  let pas := span addr n
  if pas.any s.settling then stall s
  else if !pas.all s.mapped then .next (s.send (.hostRead addr none))
  else
    let byte (a : Nat) : Byte :=
      if s.poisoned a then Config.freeByte s.free a
      else if (Sparse.find s.llc.discards (a / 32)).isSome then s.devByte a
      else s.mem.read a
    let t := (distinct (pas.map (· / 1024))).foldl (fun s k => s.ctlRead k 0) s.useFree
    .next (t.send (.hostRead addr (some (pas.map byte))))

/-- HOST_BAR2_WRITE: a present sector is written back, updated and left clean. -/
def execHostBar2Write (addr : Nat) (data : List Byte) (s : State) : Res :=
  let pas := span addr data.length
  if pas.any s.settling then stall s
  else if !pas.all s.mapped then .next s
  else .next (s.storeThrough (pas.zip data))

end Sys2Proof.Machine
end

