-- ==== Sys2Proof/Machine/Hash.lean ====
section
/-! DEFINITION. SHA-512, which names lines (R267) and signs images and reports (R440, R442). -/

namespace Sys2Proof.Machine

/-! ### Constants: the fractional parts of roots of the first primes -/

/-- A prime, by trial division. -/
def isPrime (n : Nat) : Bool := decide (2 ≤ n) && (List.range 20).all (fun d => decide (d < 2) || decide (n ≤ d) || n % d != 0)

/-- The first 80 primes. -/
def firstPrimes : List Nat := (List.range 410).filter isPrime

/-- The largest r below 2 ^ bits, from `r` on, whose k-th power is at most n. -/
def rootFloor (k n : Nat) : Nat → Nat → Nat
  | 0, r => r
  | bits + 1, r => rootFloor k n bits (if (r + 2 ^ bits) ^ k ≤ n then r + 2 ^ bits else r)

/-- The first 64 bits of the fractional part of the k-th root of a prime. -/
def rootFraction (k p : Nat) : Dword := BitVec.ofNat 64 (rootFloor k (p * 2 ^ (64 * k)) 70 0)

/-- The 80 round constants. -/
def shaConstants : List Dword := firstPrimes.map (rootFraction 3)

/-- The first hash value. -/
def shaStart : List Dword := (firstPrimes.take 8).map (rootFraction 2)

/-! ### The message -/

/-- The value of bytes, the first highest. -/
def beNat (bs : List Byte) : Nat := bs.foldl (fun a b => 256 * a + b.toNat) 0

/-- The `n` bytes of a value, the highest first. -/
def beBytes (n v : Nat) : List Byte := (natBytes n v).reverse

/-- The message with its padding: a 1 bit, zeros, and the length in bits. -/
def shaPad (bs : List Byte) : List Byte :=
  let n := bs.length
  bs ++ [0x80] ++ List.replicate ((239 - n % 128) % 128) 0 ++ beBytes 16 (8 * n)

/-- The 16 words of a 128-byte block. -/
def shaWords (bs : List Byte) : List Dword :=
  (List.range 16).map (fun i => BitVec.ofNat 64 (beNat ((bs.drop (8 * i)).take 8)))

/-! ### Compression -/

/-- The sum modulo 2 of three rotations. -/
def mixed (x : Dword) (i j k : Nat) : Dword := x.rotateRight i ^^^ x.rotateRight j ^^^ x.rotateRight k

/-- The sum modulo 2 of two rotations and a shift. -/
def spread (x : Dword) (i j k : Nat) : Dword := x.rotateRight i ^^^ x.rotateRight j ^^^ x >>> k

/-- `n` further words of the schedule, the newest first: each comes from those 16, 15, 7 and 2 before it. -/
def shaExtend : Nat → List Dword → List Dword
  | 0, w => w
  | n + 1, w =>
    shaExtend n ((w.getD 15 0 + spread (w.getD 14 0) 1 8 7 + w.getD 6 0 + spread (w.getD 1 0) 19 61 6) :: w)

/-- The two registers that a round makes, as they were made, the newest first: the words that become a, b, c, d in turn, and
those that become e, f, g, h. -/
structure ShaTrail where
  upper : List Dword
  lower : List Dword

/-- One round, given the sum of its constant and its word of the schedule. -/
def ShaTrail.round (t : ShaTrail) (kw : Dword) : ShaTrail :=
  let u (i : Nat) : Dword := t.upper.getD i 0
  let l (i : Nat) : Dword := t.lower.getD i 0
  let choice := (l 0 &&& l 1) ||| (~~~l 0 &&& l 2)
  let majority := (u 0 &&& u 1) ||| (u 2 &&& (u 0 ||| u 1))
  let new := kw + l 3 + choice + mixed (l 0) 14 18 41
  { upper := (new + majority + mixed (u 0) 28 34 39) :: t.upper.take 3, lower := (u 3 + new) :: t.lower.take 3 }

/-- One block. -/
def shaBlock (h : List Dword) (bs : List Byte) : List Dword :=
  let schedule := (shaExtend 64 (shaWords bs).reverse).reverse
  let t := (List.zipWith (· + ·) shaConstants schedule).foldl ShaTrail.round { upper := h.take 4, lower := h.drop 4 }
  List.zipWith (· + ·) h (t.upper ++ t.lower)

/-- The blocks of a padded message. -/
def shaBlocks : Nat → List Byte → List Dword → List Dword
  | 0, _, h => h
  | n + 1, bs, h => shaBlocks n (bs.drop 128) (shaBlock h (bs.take 128))

/-- SHA-512: 64 bytes. -/
def sha512 (bs : List Byte) : List Byte :=
  let m := shaPad bs
  (shaBlocks (m.length / 128) m shaStart).flatMap (fun v => beBytes 8 v.toNat)

end Sys2Proof.Machine
end

