-- ==== Sys2Proof/Machine/Signature.lean ====
section
/-! DEFINITION. ECDSA over the curve P-521 with SHA-512, which verifies firmware images (R440) and signs attestation reports
(R442). The curve's constants are those of the standard that the name P-521 refers to. -/

namespace Sys2Proof.Machine

/-- The field's prime. -/
def p521 : Nat := 2 ^ 521 - 1

/-- The order of the base point. -/
def order521 : Nat := 2 ^ 521 - 0x5ae79787c40d069948033feb708f65a2fc44a36477663b851449048e16ec79bf7

/-- A point of the curve; none is the point at infinity. -/
abbrev CurvePoint := Option (Nat × Nat)

/-- The base point. -/
def base521 : CurvePoint := some
  (0xc6858e06b70404e9cd9e3ecb662395b4429c648139053fb521f828af606b4d3dbaa14b5e77efe75928fe1dc127a2ffa8de3348b3c1856a429bf97e7e31c2e5bd66,
   0x11839296a789a3bc0045c8a5fb42c7d1bd998f54449579b446817afbd17273e662c97ee72995ef42640c550b9013fad0761353c7086a272c24088be94769fd16650)

/-- acc · b^e modulo m, for exponents of at most `n` bits. -/
def powMod (m : Nat) : Nat → Nat → Nat → Nat → Nat
  | 0, _, _, acc => acc
  | n + 1, b, e, acc => powMod m n (b * b % m) (e / 2) (if e % 2 = 1 then acc * b % m else acc)

/-- The inverse modulo a prime of 521 bits. -/
def invMod (m a : Nat) : Nat := powMod m 521 (a % m) (m - 2) 1

/-- The third point of the line of slope `l` through two points, mirrored. -/
def chord (l x1 y1 x2 : Nat) : CurvePoint :=
  let x := (l * l + 2 * p521 - x1 - x2) % p521
  some (x, (l * (x1 + p521 - x) + p521 - y1) % p521)

/-- The sum of two points of the curve y² = x³ − 3x + b. -/
def pointAdd : CurvePoint → CurvePoint → CurvePoint
  | none, q => q
  | p, none => p
  | some (x1, y1), some (x2, y2) =>
    if x1 ≠ x2 then chord ((y2 + p521 - y1) * invMod p521 (x2 + p521 - x1) % p521) x1 y1 x2
    else if (y1 + y2) % p521 = 0 then none
    else chord ((3 * x1 * x1 + p521 - 3) * invMod p521 (2 * y1) % p521) x1 y1 x2

/-- acc + k · p, for k of at most `n` bits. -/
def pointMul : Nat → Nat → CurvePoint → CurvePoint → CurvePoint
  | 0, _, _, acc => acc
  | n + 1, k, p, acc => pointMul n (k / 2) (pointAdd p p) (if k % 2 = 1 then pointAdd acc p else acc)

/-- A signature (r, s) of a digest verifies under a public key. -/
def verify521 (digest r s : Nat) (key : Nat × Nat) : Bool :=
  let n := order521
  let w := invMod n s
  let q := pointMul 521 (digest * w % n) base521 (pointMul 521 (r * w % n) (some key) none)
  decide (0 < r ∧ r < n ∧ 0 < s ∧ s < n) && (match q with
    | some (x, _) => decide (x % n = r)
    | none => false)

/-- The signature of a digest by private key `d` with the per-signature secret `k`. -/
def sign521 (digest d k : Nat) : Nat × Nat :=
  let n := order521
  let r := match pointMul 521 k base521 none with
    | some (x, _) => x % n
    | none => 0
  (r, invMod n k * ((digest + r * d) % n) % n)

end Sys2Proof.Machine
end

