-- ==== Sys2Proof/Machine/Boot.lean ====
section
/-! DEFINITION. Firmware images and starts (R440, R441), attestation (R442), the clock that stamps records (R443), and power
and cooling (R444). -/

namespace Sys2Proof.Machine

/-! ### BOOTSTAT.STATE (R441) -/

def stageRomwait : Nat := 1
def stageTrain : Nat := 3
def stageBist : Nat := 4
def stageZero : Nat := 5
def stageReady : Nat := 6
def stageFail : Nat := 7
def stageThermal : Nat := 8

def State.setStage (s : State) (n : Nat) : State := { s with boot := { s.boot with stage := n } }

/-- The contexts with a launch in flight. -/
def State.runningContexts (s : State) : List Nat :=
  distinct ((s.sched.launches.filter (fun l => l.status.isNone)).map (·.ctx))

/-! ### Starts (R441) -/

/-- A cold start begins: the part is as after power-on, but for what state ZERO clears, what a start keeps, and the world
outside. -/
def State.coldStart (s : State) (pilot : Bool) : State :=
  let s := (List.range 8).foldl (fun s k => s.unmap (s.region k).active) s
  { State.reset with
    ck := s.ck, turns := s.turns, free := s.free, mem := s.mem, dark := s.dark, darkPoison := s.darkPoison,
    llc := { State.reset.llc with wayDis := s.llc.wayDis },
    fabric := { State.reset.fabric with sent := s.fabric.sent },
    inv := { State.reset.inv with jnext := s.inv.jnext },
    member := { State.reset.member with
      devId := s.member.homeId, homeId := s.member.homeId, state := if pilot then 0 else 2, gen := s.member.gen },
    host := { State.reset.host with mem := s.host.mem },
    boot := { State.reset.boot with pilot := pilot, coldAt := s.ck, ptpAt := s.ck },
    ras := { State.reset.ras with poison := s.ras.poison, retire := s.ras.retire, retFull := s.ras.retFull } }

/-- POWER_ON clears START.PILOT. -/
def execPowerOn (s : State) : Res := .next (s.coldStart false)

/-- PERST. -/
def execPerst (s : State) : Res := .next (s.coldStart s.boot.pilot)

/-- START_COLD: every context ends with cause PAGE, reason 8, first. -/
def execStartCold (s : State) : Res :=
  let t := s.runningContexts.foldl (fun s c => s.terminateFor causePage reasonRefused c) s
  .next (t.coldStart t.boot.pilot)

/-- A port after a warm start: its counts since the cold start stay. -/
def Port.restarted (p : Port) : Port := { Port.down with replays := p.replays, corrected := p.corrected }

/-- Every context with a launch in flight reads SAVED or TERMINATED. -/
def State.warmOk (s : State) : Bool :=
  s.runningContexts.all (fun c => decide (2 ≤ Sparse.get 0 s.sched.preempt c))

/-- START_WARM: ignored while a context still runs, and before READY. -/
def execStartWarm (s : State) : Res :=
  if s.boot.stage ≠ stageReady ∨ s.warmOk = false then stall s
  else
    let m := s.member
    .next { s with
      boot := { s.boot with stage := stageZero, warm := true },
      fabric := { s.fabric with ports := s.fabric.ports.map (fun e => (e.1, e.2.restarted)) },
      member := { m with devId := if s.boot.pilot then m.homeId else m.devId, state := if s.boot.pilot then 0 else 2,
                         refused := false, adopt := 0, monitors := [], reports := [] },
      vm := { s.vm with tlb := [], walks := [] } }

/-! ### The image (R440) -/

/-- The `n` bytes of the firmware load window at `o`. -/
def State.imageBytes (s : State) (o n : Nat) : List Byte := (span o n).map (fun a => Sparse.get 0 s.host.image a)

/-- A field of the header. -/
def State.imageField (s : State) (o n : Nat) : Nat := bytesNat (s.imageBytes o n)

/-- The message that an image's signature signs. -/
def State.imageMessage (s : State) : List Byte := s.imageBytes 0 124 ++ s.imageBytes 256 (s.imageField 12 4 - 256)

/-- The first failing check of the image as BOOTSTAT.CODE; none where it verifies. A header with non-zero bytes in a zero
field fails too, with a code that is not given. -/
def State.imageCode (s : State) : Option Nat :=
  let len := s.imageField 12 4
  let key := s.imageField 16 4
  if s.imageField 0 4 ≠ 0x57465653 then some 1
  else if len % 256 ≠ 0 ∨ len < 512 ∨ 2 ^ 24 < len then some 2
  else if 4 ≤ key ∨ Config.revokedKeys.getLsbD key = true then some 3
  else if s.imageField 8 4 < Config.fusedSvn then some 4
  else if !verify521 (beNat (sha512 s.imageMessage)) (beNat (s.imageBytes 124 66)) (beNat (s.imageBytes 190 66))
      (Config.bootKeyX key, Config.bootKeyY key) then some 5
  else if s.imageField 20 104 ≠ 0 then some ((Config.freeWord s.free).toNat % 256)
  else none

/-- START_LOAD: in ROMWAIT the image is verified. -/
def execStartLoad (s : State) : Res :=
  if s.boot.stage ≠ stageRomwait then stall s
  else
    match s.imageCode with
    | some c => .next (State.useFree { s with boot := { s.boot with stage := stageFail, code := c } })
    | none =>
      .next { s with boot := { s.boot with
        stage := stageTrain, svn := s.imageField 8 4, imageHash := sha512 s.imageMessage } }

/-- BOOT_TRAIN_DONE. -/
def execBootTrainDone (s : State) : Res := if s.boot.stage = stageTrain then .next (s.setStage stageBist) else stall s

/-- BOOT_BIST_DONE. -/
def execBootBistDone (s : State) : Res := if s.boot.stage = stageBist then .next (s.setStage stageZero) else stall s

/-- A cold start zeroes every HBM byte and clears the retire table, LLCWAYDIS, the journal and the generation, which is then 1
(R412). -/
def State.zeroAll (s : State) : State :=
  { s with
    mem := [], dark := [], darkPoison := [], llc := { s.llc with sectors := [], wayDis := [], discards := [] },
    inv := { s.inv with jnext := 1 }, member := { s.member with gen := 1 },
    ras := { s.ras with poison := [], retire := [], retFull := false } }

/-- BOOT_ZERO_DONE: memory is zero, or written back, and the device is READY. -/
def execBootZeroDone (s : State) : Res :=
  if s.boot.stage ≠ stageZero then stall s
  else if s.boot.warm then
    let t := (s.llc.sectors.map (·.1)).foldl State.cleanSector s
    .next { t with boot := { t.boot with stage := stageReady, warm := false } }
  else .next (s.zeroAll.setStage stageReady)

/-! ### Attestation (R442) and the clock (R443) -/

/-- The report without its signature. -/
def State.attestBody (s : State) (nonce : List Byte) : List Byte :=
  let t := s.ptpNow
  nonce ++ padded 64 0 s.boot.imageHash ++ natBytes 4 s.boot.svn ++ natBytes 4 Config.fusedSvn ++ natBytes 6 t.1
    ++ natBytes 4 t.2 ++ natBytes 1 Config.revokedKeys.toNat ++ natBytes 1 s.boot.stage ++ natBytes 264 0

/-- ATTESTATION_REQUEST: a signed report, the public key and its certificate. -/
def execAttestationRequest (nonce : List Byte) (s : State) : Res :=
  if nonce.length ≠ 32 then stall s
  else
    let body := s.attestBody nonce
    let digest := beNat (sha512 body)
    let sig := sign521 digest Config.identityKey (Config.signatureSecret digest % (order521 - 1) + 1)
    let key := (pointMul 521 Config.identityKey base521 none).getD (0, 0)
    .next (s.send (.attestation (body ++ beBytes 66 sig.1 ++ beBytes 66 sig.2) key.1 key.2 (Config.certificate)))

/-- IEEE_1588_CLOCK_STEP: later records carry the new time. -/
def execIeee1588ClockStep (seconds nanos : Nat) (s : State) : Res :=
  .next { s with boot := { s.boot with ptpSeconds := seconds, ptpNanos := nanos, ptpAt := s.ck } }

/-! ### Power and cooling (R444) -/

/-- POWER_CONTROL: the arithmetic clock steps by 50 MHz, down to 1.2 GHz while the module draws more than LIMIT, up to 2.0 GHz
while it draws less. -/
def execPowerControl (watts : Nat) (s : State) : Res :=
  let c := s.boot.clock
  .next { s with boot := { s.boot with
    clock := if s.boot.pwrlim < watts then Nat.max 1200 (c - 50) else if watts < s.boot.pwrlim then Nat.min 2000 (c + 50) else c } }

/-- PWRLIM_WRITE: LIMIT is clamped to 1,000 and to the form limit. -/
def execPwrlimWrite (value : Word) (s : State) : Res :=
  .next { s with boot := { s.boot with pwrlim := Nat.max 1000 (Nat.min formLimit (value.toNat % 2 ^ 16)) } }

/-- THERMAL_SHUTDOWN: the record of unit 16, every context ended, and the clocks stopped. -/
def execThermalShutdown (die : Nat) (s : State) : Res :=
  if 5 < die ∨ s.boot.stage = stageThermal then stall s
  else
    let t := s.logError 16 2 flagTerminated 0 (die * 2 ^ 13) 0 0
    let t := s.runningContexts.foldl (fun s c => s.terminateFor causeUncorr 16 c) t
    .next ((t.send (.msix 7)).setStage stageThermal)

end Sys2Proof.Machine
end

