-- ==== Sys2Proof/Machine/Content.lean ====
section
/-! DEFINITION. The content-addressed region class (R267 to R278, R285): lines and names, the directory, VLAL, VLKP, SWAPROOT,
RCADJ and the reclaimer. -/

namespace Sys2Proof.Machine

/-! ### Names (R267, R268) -/

/-- The name of a line's bytes with ordinal `j`. -/
def nameOf (salt : Nat) (bs : List Byte) (j : Nat) : LineName :=
  let d := sha512 (natBytes 8 salt ++ bs)
  BitVec.ofNat 128 (bytesNat (d.take 15) + 2 ^ 120 * ((d.getD 15 0).toNat / 4 * 4 + j))

/-- A name without its ordinal. -/
def digestPart (n : LineName) : LineName := n &&& ~~~(3#128 <<< 120)

/-- The bytes of a name. -/
def nameBytes (n : LineName) : List Byte := natBytes 16 n.toNat

/-- The names that a node's bytes hold, in slot order. -/
def childNames (bs : List Byte) : List LineName :=
  (List.range 16).map (fun j => BitVec.ofNat 128 (bytesNat ((bs.drop (16 * j)).take 16)))

/-! ### The directory (R269 to R272) -/

def State.lineRegion (s : State) (k : Nat) : Region := Sparse.get Region.off s.dir.regions k

def Region.enabled (r : Region) : Bool := r.flags % 2 == 1

/-- The bucket of a name. -/
def Dir.bucket (d : Dir) (n : LineName) : Nat := n.toNat % 2 ^ 64 % 2 ^ d.log

/-- The entry of a name, pending or visible. -/
def Dir.entry (d : Dir) (n : LineName) : Option DirEntry := d.entries.find? (fun e => e.name == n)

/-- The visible entry of a name. -/
def Dir.known (d : Dir) (n : LineName) : Option DirEntry := d.entries.find? (fun e => e.name == n && e.pending.isNone)

/-- The visible entry of a name in region `k`. -/
def Dir.knownIn (d : Dir) (k : Nat) (n : LineName) : Option DirEntry :=
  d.entries.find? (fun e => e.name == n && e.pending.isNone && e.region == k)

def Dir.setEntry (d : Dir) (n : LineName) (f : DirEntry → DirEntry) : Dir :=
  { d with entries := d.entries.map (fun e => if e.name = n then f e else e) }

def Dir.dropEntry (d : Dir) (n : LineName) : Dir := { d with entries := d.entries.filter (fun e => e.name != n) }

/-- Change LIVE of a region. -/
def Dir.onLive (d : Dir) (k : Nat) (f : Nat → Nat) : Dir :=
  let r := Sparse.get Region.off d.regions k
  { d with regions := Sparse.put d.regions k { r with live := f r.live } }

/-- The count that stays. -/
def countStuck : Nat := 0xFFFFFFFF

/-- Give a name's entry a count: at 0 it leaves the directory for the reclaim queue. A stuck count stays. -/
def Dir.setCount (d : Dir) (n : LineName) (c : Nat) : Dir :=
  match d.known n with
  | none => d
  | some e =>
    if e.count = countStuck then d
    else if c = 0 then
      let d := (d.dropEntry n).onLive e.region (· - 1)
      { d with reclaim := d.reclaim ++ [{ e with count := 0 }] }
    else d.setEntry n (fun e => { e with count := Nat.min c countStuck })

/-- One reference more, or fewer. -/
def Dir.incr (d : Dir) (n : LineName) : Dir := d.setCount n (((d.known n).map (·.count)).getD 0 + 1)
def Dir.decr (d : Dir) (n : LineName) : Dir := d.setCount n (((d.known n).map (·.count)).getD 0 - 1)

/-- The lowest line slot that no entry and no line of the reclaim queue holds. -/
def Dir.freeSlot (d : Dir) : Option Nat :=
  let used := d.entries.map (·.slot) ++ d.reclaim.map (·.slot)
  (List.range (Nat.min d.lineCount (used.length + 1))).find? (fun n => !used.contains n)

/-- The physical address of a slot. -/
def Dir.slotAddr (d : Dir) (slot : Nat) : Nat := d.lineBase + 256 * slot

/-- The bytes of a line in its slot. -/
def State.lineBytes (s : State) (slot : Nat) : List Byte := s.devBytes (s.dir.slotAddr slot) 256

/-- A visible line's bytes do not hash to its name, or are lost (R276, R361). -/
def State.lineCorrupt (s : State) (e : DirEntry) : Bool :=
  let bs := s.lineBytes e.slot
  decide (digestPart (nameOf (s.lineRegion e.region).salt bs 0) ≠ digestPart e.name)
    || s.poisoned (s.dir.slotAddr e.slot)

/-- An uncorrectable error of a line's slot is recorded, unit 11 (R276, R361). -/
def State.lineError (s : State) (ctx : Nat) (e : DirEntry) : State := s.logError 11 2 0 ctx 0 0 (s.dir.slotAddr e.slot)

/-- The region whose root-cell area holds `extent` bytes from an address, or the address itself where there are none
(R270). -/
def State.regionOf (s : State) (ctx base extent : Nat) : Option Nat :=
  (s.dir.regions.find? (fun e => e.2.enabled && e.2.ctx == ctx && decide (e.2.rootVa ≤ base)
    && decide (base + Nat.max 1 extent ≤ e.2.rootVa + e.2.rootSize))).map (·.1)

/-- The region that a record of the issuing context names with a permission; none raises ILLEGAL. -/
def State.treeRegion (s : State) (ctx : Nat) (r : Rec) (perm : Bool) : Option Nat :=
  if r.cls = 2 ∧ perm = true then s.regionOf ctx r.base r.extent else none

/-- The region of a visible entry belongs to a context (R278). -/
def Dir.ownedBy (d : Dir) (ctx : Nat) (e : DirEntry) : Bool := (Sparse.get Region.off d.regions e.region).ctx == ctx

/-! ### The reclaimer (R272) -/

/-- What a line holds is read at its home, a row access of its sector (R220). -/
def State.readLine (s : State) (slot : Nat) : State := s.loadTouch (span (s.dir.slotAddr slot) 256) false 0

/-- The reclaimer takes the first line of its queue: a node's children each lose a reference, in slot order, and the slot is
free. Of a node whose bytes are lost no child is known: the error is recorded, and no count changes (assumption 135). -/
def State.reclaimLine (s : State) : State :=
  match s.dir.reclaim with
  | [] => s
  | e :: rest =>
    if !e.node then { s with dir := { s.dir with reclaim := rest } }
    else if s.poisoned (s.dir.slotAddr e.slot) then
      (State.lineError { s with dir := { s.dir with reclaim := rest } } 0 e)
    else
      let s := s.readLine e.slot
      let kids := (childNames (s.lineBytes e.slot)).filter (· != 0)
      { s with dir := kids.foldl Dir.decr { s.dir with reclaim := rest } }

def reclaimLines : Nat → State → State
  | 0, s => s
  | n + 1, s => if s.dir.reclaim.isEmpty then s else reclaimLines n s.reclaimLine

/-- The state that every operation on the directory meets: nothing depends on how far the reclaimer has got, so its queue
counts as served (R272). -/
def State.reclaimed (s : State) : State := reclaimLines (s.dir.reclaim.length + s.dir.entries.length) s

/-- RECLAIM_LINE: the reclaimer goes on by one line. -/
def execReclaimLine (s : State) : Res := if s.dir.reclaim.isEmpty then stall s else .next s.reclaimLine

/-! ### Status values (R273) -/

def lineOk : Nat := 0
def lineNew : Nat := 1
def lineCollide : Nat := 2
def lineNoName : Nat := 3
def lineFull : Nat := 4
def lineBadChild : Nat := 5
def lineStale : Nat := 6
def lineUnderflow : Nat := 7
def lineCorruptStatus : Nat := 8

/-! ### VLAL (R274, R275, R285) -/

/-- The 256 bytes of a pair in the layout of R274. -/
def Group.pairBytes (x : Group) (r : Nat) : List Byte :=
  (List.range 32).flatMap (fun l => natBytes 4 (x.rv r l).toNat ++ natBytes 4 (x.rv (r + 1) l).toNat)

/-- Write a pair in that layout. -/
def Group.putPair (x : Group) (r : Nat) (bs : List Byte) : Group :=
  (List.range 32).foldl (fun x l =>
    (x.wv r l (BitVec.ofNat 32 (bytesNat ((bs.drop (8 * l)).take 4)))).wv (r + 1) l
      (BitVec.ofNat 32 (bytesNat ((bs.drop (8 * l + 4)).take 4)))) x

/-- The line of an entry holds these bytes. -/
def State.holdsLine (s : State) (e : DirEntry) (bs : List Byte) : Bool :=
  match e.pending with
  | some p => p.bytes == bs
  | none => s.lineBytes e.slot == bs

/-- What the step at the bucket finds (R275). -/
inductive Bucket where
  /-- An existing line of equal content, visible. -/
  | found (n : LineName)
  /-- A pending entry of equal content. -/
  | wait
  | collide
  | full
  /-- A free ordinal and a free slot. -/
  | free (n : LineName) (slot : Nat)
  deriving DecidableEq, Repr

/-- The step at the bucket of some content whose name with ordinal 0 is `base`. -/
def State.bucketAt (s : State) (k : Nat) (node : Bool) (bs : List Byte) (base : LineName) : Bucket :=
  let d := s.dir
  let r := s.lineRegion k
  let names := (List.range 4).map (fun j => base ||| (BitVec.ofNat 128 j <<< 120))
  let same := names.filterMap (fun n => d.entries.find? (fun e =>
    e.name == n && e.region == k && e.node == node && s.holdsLine e bs))
  match same with
  | e :: _ => if e.pending.isSome then .wait else .found e.name
  | [] =>
    let here := d.entries.filter (fun e => d.bucket e.name == d.bucket base)
    let pend := (d.entries.filter (fun e => e.region == k && e.pending.isSome)).length
    match names.find? (fun n => n != 0 && (d.entry n).isNone) with
    | none => .collide
    | some n =>
      match d.freeSlot with
      | none => .full
      | some slot =>
        if 8 ≤ here.length ∨ (r.quota ≠ 0 ∧ r.quota ≤ r.live + pend) then .full else .free n slot

/-- The step at the bucket of some content. -/
def State.bucketStep (s : State) (k : Nat) (node : Bool) (bs : List Byte) : Bucket :=
  s.bucketAt k node bs (nameOf (s.lineRegion k).salt bs 0)

/-- VLAL ends with a status, and with a name where there is one. -/
def vlalEnds (l : Lane) (f : LA) (status : Nat) (n : Option LineName) (s : State) : Res :=
  let x := s.me
  let x := match n with
    | some v => x.ws128 f.vd.toNat v
    | none => x
  laneRetire l (s.setMe (x.ws f.vc.toNat (BitVec.ofNat 32 status)))

/-- The pending entry that this VLAL made before it waited. -/
def State.ownPending (s : State) (l : Lane) : Option (DirEntry × PendingLine) :=
  s.dir.entries.findSome? (fun e => match e.pending with
    | some p => if p.g = some s.cur.g ∧ p.block = l.b.seq ∧ p.next = l.b.next then some (e, p) else none
    | none => none)

/-- A VLAL that waits for credit counts once in the load class and once in the store class (R275). -/
def Group.lineWait (x : Group) : Group :=
  if x.storesOther.any lineWaits then x else { x with storesOther := x.storesOther ++ [(x.seq, x.seq, 0)] }

/-- It no longer waits. -/
def Group.lineGo (x : Group) : Group := { x with storesOther := x.storesOther.filter (fun e => !lineWaits e) }

/-- A VLAL with a pending entry goes on once its charge is accepted: it writes the line, counts a node's children, and the
entry becomes visible. A line store in a region that changes its mapping is waited for (R231). -/
def vlalSettle (l : Lane) (f : LA) (e : DirEntry) (p : PendingLine) (s : State) : Res :=
  if s.settling (s.dir.slotAddr e.slot) then .next (s.setMe s.me.lineWait)
  else if s.creditFor s.cur.g 256 = false then laneCreditWait l (s.setMe s.me.lineWait)
  else
    let s := ((s.setMe s.me.lineGo).payCredit s.cur.g 256).storeDevAt (s.dir.slotAddr e.slot) p.bytes 0 p.stream
    let kids := if e.node then (childNames p.bytes).filter (· != 0) else []
    if kids.all (fun c => (s.dir.knownIn e.region c).isSome) then
      let d := kids.foldl Dir.incr s.dir
      let d := (d.setEntry e.name (fun e => { e with pending := none })).onLive e.region (· + 1)
      vlalEnds l f lineNew (some e.name) { s with dir := d }
    else vlalEnds l f lineBadChild none { s with dir := s.dir.dropEntry e.name }

/-- A new VLAL: the step at the bucket. -/
def vlalStep (l : Lane) (f : LA) (k stream : Nat) (node : Bool) (bs : List Byte) (s : State) : Res :=
  match s.bucketStep k node bs with
  | .found n => vlalEnds l f lineOk (some n) { s with dir := s.dir.incr n }
  | .wait => stall s
  | .collide => vlalEnds l f lineCollide none s
  | .full => vlalEnds l f lineFull none s
  | .free n slot =>
    let p : PendingLine := { g := some s.cur.g, block := l.b.seq, next := l.b.next, bytes := bs, stream := stream }
    let e : DirEntry := { name := n, node := node, region := k, slot := slot, count := 1, pending := some p }
    vlalSettle l f e p { s with dir := { s.dir with entries := s.dir.entries ++ [e] } }

/-- VLAL, leaf or node. One that waits for credit has made its checks and taken its line (R275). -/
def vlalOp (i : Instr) (f : LA) (node : Bool) (s : State) : Res :=
  let b := f.imm.toNat % 16
  if s.me.pendingB [b] then stall s
  else
    laneOp i f.kq { Need.plain with all := true } s fun l s =>
      let x := s.me
      let r := recOf (x.rb b)
      match s.ownPending l with
      | some (e, p) => vlalSettle l f e p s.reclaimed
      | none =>
        match s.treeRegion x.ident.ctx r r.wr with
        | none => laneIllegal l 0 s
        | some k =>
          if x.acquiring || decide (63 ≤ x.loadCount) || decide (63 ≤ x.storeCount) then stall s
          else vlalStep l f k r.ws node (x.pairBytes f.va.toNat) s.reclaimed

def execVlalLeaf (f : LA) (s : State) : Res := vlalOp (.vlalLeaf f) f false s
def execVlalNode (f : LA) (s : State) : Res := vlalOp (.vlalNode f) f true s

/-! ### VLKP (R276) -/

/-- The step of VLKP at the bucket of its name. -/
def vlkpStep (l : Lane) (f : LA) (k : Nat) (n : LineName) (s : State) : Res :=
  let ends (status : Nat) (x : Group) (s : State) : Res :=
    laneRetire l (s.setMe (x.ws f.vc.toNat (BitVec.ofNat 32 status)))
  if n = 0 then ends lineOk (s.me.putPair f.vd.toNat []) s
  else
    match s.dir.knownIn k n with
    | none => ends lineNoName s.me s
    | some e =>
      if s.settling (s.dir.slotAddr e.slot) then stall s
      else if s.lineCorrupt e then ends lineCorruptStatus s.me ((s.readLine e.slot).lineError s.me.ident.ctx e)
      else ends lineOk (s.me.putPair f.vd.toNat (s.lineBytes e.slot)) (s.readLine e.slot)

def execVlkp (f : LA) (s : State) : Res :=
  let b := f.imm.toNat % 16
  if s.me.pendingB [b] then stall s
  else
    laneOp (.vlkp f) f.kq { Need.plain with all := true } s fun l s =>
      let x := s.me
      let r := recOf (x.rb b)
      let q := f.va.toNat
      match s.treeRegion x.ident.ctx r r.rd with
      | none => laneIllegal l 0 s
      | some k =>
        if x.acquiring || decide (63 ≤ x.loadCount) then stall s
        else vlkpStep l f k (l.b.arg (q + 3) ++ l.b.arg (q + 2) ++ l.b.arg (q + 1) ++ l.b.arg q) s.reclaimed

/-! ### SWAPROOT and RCADJ (R277, R278) -/

/-- The status of a scalar content instruction is written, with an acquire at device scope. -/
def contentEnds (d : SReg) (status : Nat) (s : State) : Res :=
  let s := s.acquired s.cur.g 4
  retire (s.setMe (s.me.ws d.toNat (BitVec.ofNat 32 status)))

/-- The step at the cell's service group: `pas` are the addresses of the cell's 16 bytes. -/
def swapStep (d : SReg) (k : Nat) (pas : List Nat) (old new : LineName) (s : State) : Res :=
  let s := s.loadTouch pas false 0
  let cur : LineName := BitVec.ofNat 128 (bytesNat (pas.map s.devByte))
  if cur ≠ old then contentEnds d lineStale s
  else if new ≠ 0 ∧ (s.dir.knownIn k new).isNone = true then contentEnds d lineNoName s
  else
    let dir := if new = 0 then s.dir else s.dir.incr new
    let s := s.storeDev (pas.zip (nameBytes new)) s.me.ident.ctx 0 0
    let x := s.me
    let s := s.setMe { x with dirtySectors := distinct (x.dirtySectors ++ pas.map (· / 1024)) }
    contentEnds d lineOk { s with dir := if cur = 0 then dir else dir.decr cur }

/-- The device addresses of a cell from the places of its pages; none where one of them lies in host memory. -/
def cellBytes (pieces : List (Nat × Nat)) (ps : List (Option Loc)) : Option (List Nat) :=
  let one (e : (Nat × Nat) × Option Loc) : Option (List Nat) := match e.2 with
    | some (.dev pa) => some (span pa e.1.2)
    | _ => none
  ((pieces.zip ps).mapM one).map List.flatten

def execSwaproot (d e w : SReg) (b : BReg) (s : State) : Res :=
  let i : Instr := .swaproot d e w b
  guarded i s fun s =>
    let x := s.me
    let r := recOf (x.rb b.toNat)
    let o := (x.rs d.toNat).toNat
    let regs := d.toNat :: (span e.toNat 4 ++ span w.toNat 4)
    let va := r.base + o
    let who := s.streamAsker s.cur.g s.cur.slotB false
    let pieces := pagePieces va 16
    let uncorr : Raised := { cause := causeUncorr, mask := 0, reason := 13, addr := va }
    if x.pendingS s.cur.slotB regs || x.pendingB [b.toNat] || x.acquiring then stall s
    else
      match s.treeRegion x.ident.ctx r r.wr with
      | none => illegal i s
      | some k =>
        let locked := s.lockConflicts (hclOf s.cur.g) x.ident.ctx true 16 [(0, va)]
        if r.refused then illegal i s
        else if o % 16 ≠ 0 then trapAt i causeAlign 0 0 s
        else if r.extent < o + 16 then trapAt i causeBounds 0 0 s
        else if r.base % r.unit ≠ 0 then trapAt i causeAlign 0 0 s
        else if locked ≠ 0 then trapAt i causeRangelock 0 0 s
        else
          afterRelease s fun s =>
            match s.resolveAll who 2 .store (pieces.map (·.1)) with
            | .trap t va bad => raiseAt i (if bad then uncorr else { cause := causePage, mask := 0, reason := t, addr := va }) s
            | .miss => .next (s.askFor who 2 .store (pieces.map (·.1)))
            | .places ps =>
              if ps.any (·.isNone) then stall s
              else
                match cellBytes pieces ps with
                | none => raiseAt i { cause := causePage, mask := 0, reason := reasonAtomicHost, addr := va } s
                | some pas =>
                  if pas.any s.poisoned then raiseAt i uncorr s
                  else swapStep d k pas (x.rs128 e.toNat) (x.rs128 w.toNat) (s.unwait who.who).reclaimed

/-- The step of RCADJ at the bucket of its name: the status, and the directory afterwards. -/
def adjustStep (dir : Dir) (ctx : Nat) (n : LineName) (delta : Int) : Nat × Dir :=
  match dir.known n with
  | none => (lineNoName, dir)
  | some e =>
    let c := (e.count : Int) + delta
    if n = 0 ∨ dir.ownedBy ctx e = false then (lineNoName, dir)
    else if e.count = countStuck then (lineOk, dir)
    else if c < 0 then (lineUnderflow, dir)
    else (lineOk, dir.setCount n c.toNat)

def execRcadj (d q v : SReg) (s : State) : Res :=
  let i : Instr := .rcadj d q v
  guarded i s fun s =>
    if s.me.pendingS s.cur.slotB (d.toNat :: v.toNat :: span q.toNat 4) then stall s
    else
      afterRelease s fun s =>
        let s := s.reclaimed
        let x := s.me
        let r := adjustStep s.dir x.ident.ctx (x.rs128 q.toNat) (x.rs v.toNat).toInt
        contentEnds d r.1 { s with dir := r.2 }

end Sys2Proof.Machine
end

