-- ==== Sys2Proof/Machine/ScalarFlow.lean ====
section
/-! DEFINITION. Branches, jumps, calls and zero-overhead loops (R106 to R111), LRUN, WAITC and SLEEP (R113 to R115),
TRAP, BRK and TRET (R339, R340). -/

namespace Sys2Proof.Machine

/-- PC + 4 × a signed displacement (R34). -/
def target {n : Nat} (pc : Dword) (d : BitVec n) : Dword := pc + (d.signExtend 64 <<< 2)

/-- The issuing slot transfers control. -/
def goTo (t : Dword) (s : State) : Res := .next (s.setSl (s.sl.goto t))

/-- Branch when the condition holds, else go on. -/
def branch (c : Bool) (t : Dword) (s : State) : Res := if c then goTo t s else retire s

/-- The condition of B on a register's value (R37). -/
def condB (c : Nat) (x : Word) : Bool :=
  match c with
  | 0 => x == 0
  | 1 => x != 0
  | 2 => x.slt 0
  | 3 => !(x.slt 0)
  | 4 => (0 : Word).slt x
  | 5 => !((0 : Word).slt x)
  | _ => true

/-- The condition of BK on a mask and XM (R37). -/
def condK (c : Nat) (k xm : Word) : Bool :=
  match c with
  | 0 => k &&& xm != 0
  | 1 => k &&& xm == 0
  | 2 => k &&& xm == xm
  | _ => k &&& xm != xm

def execB (c : BitVec 5) (r : SReg) (d : BitVec 15) (s : State) : Res :=
  guarded (.b c r d) s fun s =>
    if s.me.pendingS s.cur.slotB [r.toNat] then stall s
    else branch (condB c.toNat (s.me.rs r.toNat)) (target s.sl.pc d) s

def execBk (c : BitVec 2) (k : KReg) (d : BitVec 15) (s : State) : Res :=
  branch (condK c.toNat (s.me.rk k.toNat) s.sl.xm) (target s.sl.pc d) s

def execJ (d : BitVec 26) (s : State) : Res := goTo (target s.sl.pc d) s

/-- Write the link pair s46:s47 and call (R107). -/
def linkCall (t : Dword) (s : State) : Res :=
  let s := s.setMe (s.me.ws64 46 (s.sl.pc + 4))
  .next (s.setSl (s.sl.callTo t))

def execCall (d : BitVec 26) (s : State) : Res :=
  if s.me.pendingS s.cur.slotB [46, 47] then stall s else linkCall (target s.sl.pc d) s

/-- The checks of a register-indirect target (R108), then `k`. -/
def checkTarget (i : Instr) (t : Dword) (s : State) (k : State → Res) : Res :=
  if 2 ^ 57 ≤ t.toNat then illegal i s
  else if t.toNat % 4 ≠ 0 then trapAt i causeAlign 0 0 s
  else k s

def execJi (a : SReg) (s : State) : Res :=
  guarded (.ji a) s fun s =>
    if s.me.pendingS s.cur.slotB [a.toNat, a.toNat + 1] then stall s
    else checkTarget (.ji a) (s.me.rs64 a.toNat) s (goTo (s.me.rs64 a.toNat))

def execCalli (a : SReg) (s : State) : Res :=
  guarded (.calli a) s fun s =>
    if s.me.pendingS s.cur.slotB [a.toNat, a.toNat + 1, 46, 47] then stall s
    else checkTarget (.calli a) (s.me.rs64 a.toNat) s (linkCall (s.me.rs64 a.toNat))

def execRet (s : State) : Res :=
  if s.me.pendingS s.cur.slotB [46, 47] then stall s
  else checkTarget .ret (s.me.rs64 46) s (goTo (s.me.rs64 46))

/-! ### Loops (R109, R111) -/

/-- LOOP at level `l` with count `c` and body end PC + 4 × `e` (R109). -/
def openLoop (i : Instr) (l : Nat) (c : Word) (e : BitVec 15) (s : State) : Res :=
  let y := s.sl
  let d := y.depth
  let stop := y.pc + (e.setWidth 64 <<< 2)
  let outer := y.loops.getD (d - 1) LoopLevel.zero
  if l ≠ d then illegal i s
  else if 0 < d ∧ outer.holds y.pc = true ∧ outer.last.toNat < stop.toNat then illegal i s
  else if withHigh (y.pc + 4) 0 ≠ withHigh stop 0 then illegal i s
  else if c = 0 then .next (s.setSl { y with pc := stop + 4, wait := .none })
  else
    let lv : LoopLevel := { high := y.pc.extractLsb' 32 32, start := low32 (y.pc + 4), stop := low32 stop, count := c }
    .next (s.setSl { y with loops := y.loops.set d lv, depth := d + 1, pc := y.pc + 4, wait := .none })

def execLoopImm (l : BitVec 2) (c : BitVec 8) (e : BitVec 15) (s : State) : Res :=
  guarded (.loopImm l c e) s (openLoop (.loopImm l c e) l.toNat (c.setWidth 32) e)

def execLoopReg (l : BitVec 2) (r : SReg) (e : BitVec 15) (s : State) : Res :=
  guarded (.loopReg l r e) s fun s =>
    if s.me.pendingS s.cur.slotB [r.toNat] then stall s
    else openLoop (.loopReg l r e) l.toNat (s.me.rs r.toNat) e s

/-- LOOPX closes the innermost level (R111). -/
def execLoopx (s : State) : Res :=
  match s.sl.depth with
  | 0 => illegal .loopx s
  | d + 1 =>
    let lv := s.sl.loops.getD d LoopLevel.zero
    .next (s.setSl { s.sl with pc := lv.last + 4, depth := d, wait := .none })

/-! ### LRUN, WAITC and SLEEP -/

/-- The entry that LRUN makes (R15). -/
def State.newBlock (s : State) (index : Nat) (mask : Word) (drain : Bool) : Block :=
  let x := s.me
  { seq := x.seq, index := index, next := index * 12, mask := mask, part := x.csr.part, frm := x.csr.frm, fpe := x.csr.fpe,
    args := (List.range 16).map (fun i => x.rs (48 + i)), slotB := s.cur.slotB, lrunPc := s.sl.pc, drain := drain,
    trap := x.inHandler }

/-- The snapshot XM ∧ kN, or XM alone for N = 0 (R15). -/
def State.snapshot (s : State) (k : KReg) : Word := if k = 0 then s.sl.xm else s.sl.xm &&& s.me.rk k.toNat

/-- Entries of the lane queue that an LRUN of this moment may use are all taken: 16, or the 2 trap entries (R15, R338). -/
def Group.queueFull (x : Group) : Bool :=
  if x.inHandler then decide (2 ≤ (x.blocks.filter (·.trap)).length)
  else decide (16 ≤ (x.blocks.filter (fun b => !b.trap)).length)

/-- LRUN (R13, R113). Captured registers are awaited (R100). The lane-block count stands at most at 16 (R19). -/
def execLrun (k : KReg) (r : Bool) (b : BitVec 20) (s : State) : Res :=
  if s.me.ident.laneSize ≤ b.toNat * 12 then illegal (.lrun k r b) s
  else if s.snapshot k = 0 then retire s
  else if s.me.queueFull || decide (16 ≤ s.blockCount s.cur.g)
      || s.me.pendingS s.cur.slotB ((List.range 16).map (48 + ·)) then stall s
  else
    let x := s.me
    retire (s.setMe { x.bump with blocks := x.blocks ++ [s.newBlock b.toNat (s.snapshot k) r] })

/-- WAITC (R20, R114). -/
def execWaitc (b l st c t : BitVec 4) (s : State) : Res :=
  if s.countsWithin s.cur.g b.toNat l.toNat st.toNat c.toNat t.toNat then retire s else stall s

/-- SLEEP holds the slot for n ck (R115); SLEEP_EXPIRY ends it. -/
def execSleep (n : BitVec 16) (s : State) : Res :=
  guarded (.sleep n) s fun s => retire (s.setSl { s.sl with sleep := some (s.ck + n.toNat) })

/-- A SLEEP's count has run out: the stream resumes (R115). Before that the event has nothing to do. -/
def execSleepExpiry (g : Nat) (slotB : Bool) (s : State) : Res :=
  match ((s.group g).slot slotB).sleep with
  | some t =>
    if t ≤ s.ck then
      .next (s.setGroup g ((s.group g).setSlot slotB { (s.group g).slot slotB with sleep := none }))
    else stall s
  | none => stall s

/-! ### TRAP, BRK and TRET -/

def execTrap (c : BitVec 16) (s : State) : Res := trapAt (.trap c) causeSwtrap 0 c.toNat s
def execBrk (c : BitVec 16) (s : State) : Res := trapAt (.brk c) causeBrk 0 c.toNat s

/-- TRET (R340). -/
def execTret (s : State) : Res :=
  let x := s.me
  if !x.inHandler then illegal .tret s
  else if s.blockCount s.cur.g ≠ 0 then stall s
  else if s.sl.depth ≠ x.handlerDepth then illegal .tret s
  else .next (s.setMe (x.leave s.cur.slotB))

/-- A pending trap is delivered to its slot's handler or terminates the context (R336, R340): the oldest one, once no
handler is active. -/
def execTrapDelivery (g : Nat) (s : State) : Res :=
  let x := s.group g
  match x.pending with
  | [] => stall s
  | t :: rest =>
    if x.inHandler then stall s
    else .next ((s.setGroup g { x with pending := rest }).takeTrap g t (x.slot t.site.slotB).pc)

end Sys2Proof.Machine
end

