-- ==== Sys2Proof/Machine/Diverge.lean ====
section
/-! DEFINITION. Divergence (R166 to R181): the join stack, continuations, BRD, BRX, CALLX, RETX, JOIN and EXIT. -/

namespace Sys2Proof.Machine

/-! ### Parts, slots and continuations -/

/-- The lowest lane of a set; 32 for none. -/
def lowLane (w : Word) : Nat := firstOne 32 32 0 w.toNat

/-- A continuation as it re-enters a path slot (R174). -/
def Slot.ofCont (c : Continuation) : Slot :=
  { Slot.free with live := true, pc := c.pc, xm := c.lanes, lanes := c.lanes, depth := c.depth, loops := c.loops,
                   top := c.top }

/-- A part that a division moves away, with lanes of its own, from the slot it would have continued in. -/
def Slot.moved (y : Slot) (lanes : Word) : Slot := { y with xm := lanes, lanes := lanes, sleep := none, wait := .none }

/-- The side that stays keeps the lanes that lie outside XM (R173, R175). -/
def Slot.stays (y : Slot) (lanes : Word) : Slot := { y with xm := lanes, lanes := lanes ||| (y.lanes &&& ~~~y.xm),
                                                            wait := .none }

/-- The record of a part (R174). -/
def Slot.cont (y : Slot) : Continuation := { pc := y.pc, lanes := y.lanes, top := y.top, depth := y.depth, loops := y.loops }

/-- A free slot takes the group's oldest continuation. -/
def Group.refillSlot (x : Group) (b : Bool) : Group :=
  if (x.slot b).live then x
  else
    match x.conts with
    | [] => x
    | c :: rest => ({ x with conts := rest }).setSlot b (Slot.ofCont c)

/-- Continuations re-enter the free slots, slot A first. -/
def Group.refill (x : Group) : Group := (x.refillSlot false).refillSlot true

/-- R169: the lane blocks that the issuing part enqueued have completed. -/
def partIdle (s : State) (k : State → Res) : Res := if s.ownBlocksDone s.cur.g s.cur.slotB then k s else stall s

/-! ### Continuation records (R174) -/

/-- Records beyond the guaranteed 4 that the groups of a core hold, of the 128 shared. -/
def State.sharedRecords (s : State) (core : Nat) : Nat :=
  (s.groups.filter (fun e => coreOf e.1 == core)).foldl (fun n e => n + (e.2.conts.length - 4)) 0

/-- Since when a slot has waited for records. -/
def Slot.askedRecords (y : Slot) : Option Nat :=
  match y.wait with
  | .records t => if y.live then some t else none
  | _ => none

/-- Another slot of the core has waited longer for shared records. -/
def State.recordsAskedBefore (s : State) (core : Nat) (mine : Option Nat) : Bool :=
  let earlier (y : Slot) : Bool := match y.askedRecords, mine with
    | some t, some m => decide (t < m)
    | some _, none => true
    | none, _ => false
  (s.groups.filter (fun e => coreOf e.1 == core)).any (fun e => earlier e.2.slotA || earlier e.2.slotB)

/-- Take `need` records at once: over 31 for the group traps with code 1, and a want of shared records waits. -/
def takeRecords (i : Instr) (need : Nat) (s : State) (k : State → Res) : Res :=
  let held := s.me.conts.length
  let extra := (held + need - 4) - (held - 4)
  let core := coreOf s.cur.g
  if 31 < held + need then trapAt i causeJoinovf 0 1 s
  else if extra = 0 then k s
  else if s.sharedRecords core + extra ≤ 128 && !s.recordsAskedBefore core s.sl.askedRecords then k s
  else
    match s.sl.wait with
    | .records _ => stall s
    | _ => stallAs (.records s.ck) s

/-! ### Join entries (R170 to R172) -/

/-- The top entry of the issuing part, with its number. -/
def State.topEntry (s : State) : Option (Nat × JoinEntry) :=
  match s.sl.top with
  | none => none
  | some n => (Sparse.find s.me.joins n).map (fun e => (n, e))

/-- JSET (R171). -/
def execJset (d : BitVec 15) (s : State) : Res :=
  notInHandler (.jset d) s fun s =>
    let x := s.me
    let y := s.sl
    match (List.range 16).find? (fun n => (Sparse.find x.joins n).isNone) with
    | none => trapAt (.jset d) causeJoinovf 0 0 s
    | some n =>
      let e : JoinEntry := { joinPc := target y.pc d, count := 1, arrived := 0, depth := y.depth, call := false,
                             loops := loopsZero, parent := y.top }
      retire (s.setMe (({ x with joins := Sparse.put x.joins n e }).setSlot s.cur.slotB { y with top := some n }))

/-- The entry after the part in a slot arrives. -/
def JoinEntry.arrive (e : JoinEntry) (y : Slot) : JoinEntry :=
  { e with
    loops := if e.arrived = 0 ∨ lowLane y.lanes < lowLane e.arrived then y.loops else e.loops,
    arrived := e.arrived ||| y.lanes, count := e.count - 1 }

/-- The merged part of an entry, after the JOIN: it continues at the join PC + 4, and a JOIN that stands at the end of a loop's
body makes no end processing (assumption 34). -/
def JoinEntry.merged (e : JoinEntry) : Slot :=
  { Slot.free with live := true, pc := e.joinPc + 4, xm := e.arrived, lanes := e.arrived, depth := e.depth,
                   loops := e.loops, top := e.parent }

/-- JOIN (R172): the last part to arrive continues as the merged part, in slot A where that is free. -/
def execJoin (s : State) : Res :=
  notInHandler .join s fun s =>
  partIdle s fun s =>
    let x := s.me
    let b := s.cur.slotB
    match s.topEntry with
    | none => illegal .join s
    | some (n, e) =>
      if e.joinPc ≠ s.sl.pc ∨ s.sl.depth ≠ e.depth then illegal .join s
      else
        let e := e.arrive s.sl
        let x := x.setSlot b Slot.free
        if e.count ≠ 0 then .next (s.setMe ({ x with joins := Sparse.put x.joins n e }).refill)
        else
          let x := { x with joins := Sparse.erase x.joins n }
          .next (s.setMe (x.setSlot x.slotA.live e.merged).refill)

/-- RETX (R178): control goes to the region's JOIN; no loop level closes. -/
def execRetx (s : State) : Res :=
  notInHandler .retx s fun s =>
    match s.topEntry with
    | none => illegal .retx s
    | some (_, e) =>
      if e.call = false ∨ e.depth ≠ s.sl.depth then illegal .retx s
      else .next (s.setSl { s.sl with pc := e.joinPc, wait := .none })

/-- Raise the count of entry `n` by `k`, and mark a call. -/
def Group.countUp (x : Group) (n k : Nat) (call : Bool) : Group :=
  match Sparse.find x.joins n with
  | none => x
  | some e => { x with joins := Sparse.put x.joins n { e with count := e.count + k, call := e.call || call } }

/-! ### BRD (R173) -/

/-- Divide the issuing part: `stay` remains in its slot and `leave` becomes the newest continuation. -/
def divide (n : Nat) (stay : Slot) (leave : Continuation) (s : State) : Res :=
  let x := s.me
  .next (s.setMe ((({ x with conts := x.conts ++ [leave] }).setSlot s.cur.slotB stay).countUp n 1 false))

def execBrd (k : KReg) (d : BitVec 15) (s : State) : Res :=
  guarded (.brd k d) s fun s =>
  notInHandler (.brd k d) s fun s =>
  partIdle s fun s =>
    let x := s.me
    let y := s.sl
    let t := y.xm &&& x.rk k.toNat
    let f := y.xm &&& ~~~(x.rk k.toNat)
    let fall := y.advance
    let taken := { y with pc := target y.pc d, wait := .none }
    match y.top with
    | none => illegal (.brd k d) s
    | some n =>
      if t = 0 then .next (s.setSl fall)
      else if f = 0 then .next (s.setSl taken)
      else if !(x.slot (!s.cur.slotB)).live then
        .next (s.setMe (((x.setSlot s.cur.slotB (fall.stays f)).setSlot (!s.cur.slotB) (taken.moved t)).countUp n 1 false))
      else
        takeRecords (.brd k d) 1 s fun s =>
          if popNat 32 t.toNat ≤ popNat 32 f.toNat then divide n (fall.stays f) (taken.moved t).cont s
          else divide n (taken.stays t) (fall.moved f).cont s

/-! ### BRX and CALLX (R175 to R177) -/

/-- Reading words of a table in memory. -/
inductive TableRead where
  | words (ws : List Word) (s : State)
  | wait (s : State)
  | trap (r : Raised)
  deriving DecidableEq, Repr

/-- Read 4-byte words at virtual addresses for the issuing group, as its loads see them. -/
def State.readWords (s : State) (vas : List Nat) : TableRead :=
  let g := s.cur.g
  let x := s.me
  match s.translate (s.streamAsker g s.cur.slotB false) 0 .load (vas.map (fun a => (0, a))) with
  | .trap r => .trap r
  | .miss s => .wait s
  | .go accs =>
    let places := accs.filterMap (·.loc)
    if accs.any (fun a => a.loc.isNone) || s.loggedBytes g x.seq vas 4 then .wait s
    else if places.any (s.loadPoisoned g x.seq 0 false) then
      .trap { cause := causeUncorr, mask := 0, reason := 13, addr := vas.headD 0 }
    else
      .words (places.map (fun l =>
        BitVec.ofNat 32 (bytesNat ((List.range 4).map (fun i => s.loadByte g x.seq 0 false (l.plus i))))))
        (s.loadCaches g 0 0 4 false false places)

/-- The distinct targets with their lanes, in ascending order of lowest lane. -/
def targetGroups (ts : List (Nat × Int)) : List (Int × Word) :=
  (distinct (ts.map (·.2))).map (fun t => (t, maskOf ((ts.filter (fun e => decide (e.2 = t))).map (·.1))))

/-- A procedure header word is well-formed (R176). -/
def procOk (h : Word) : Bool :=
  decide (h.toNat / 2 ^ 16 = 0xF7C0) && decide (h.toNat / 64 % 1024 = 0) && decide (1 ≤ h.toNat % 64)
    && decide (h.toNat % 64 ≤ 32)

/-- What the headers of the targets raise, in group order (R177). -/
def procTrap (budget : Nat) : List (Word × Word) → Option (Nat × Word)
  | [] => none
  | (h, m) :: rest =>
    if !procOk h then some (causeIllegal, m)
    else if budget < h.toNat % 64 then some (causeBudget, m)
    else procTrap budget rest

/-- The slot of a target's lanes. -/
def Slot.at_ (y : Slot) (t : Int) : Slot := { y with pc := BitVec.ofNat 64 t.toNat, wait := .none }

/-- Send each group of lanes to its target (R175). -/
def scatter (i : Instr) (n : Nat) (call : Bool) (groups : List (Int × Word)) (s : State) : Res :=
  let b := s.cur.slotB
  let busy := (s.me.slot (!b)).live
  let c := groups.length
  takeRecords i (if busy then c - 1 else c - 2) s fun s =>
    let x := s.me
    let y := s.sl
    let moved := (groups.drop 1).map (fun e => (y.at_ e.1).moved e.2)
    let stay := match groups with
      | e :: _ => (y.at_ e.1).stays e.2
      | [] => y
    let x := (x.setSlot b stay).countUp n (c - 1) call
    let x := match busy, moved with
      | false, z :: _ => x.setSlot (!b) z
      | _, _ => x
    let conts := if busy then moved else moved.drop 1
    .next (s.setMe { x with conts := x.conts ++ conts.map Slot.cont })

/-- BRX and CALLX after the table has been read: `ws` are the words of the lanes in `lanes`. -/
def toTargets (i : Instr) (n : Nat) (call : Bool) (lanes : List Nat) (ws : List Word) (s : State) : Res :=
  let ts := lanes.zip (ws.map (fun w => (s.sl.pc.toNat : Int) + 4 * w.toInt))
  let bad := maskOf ((ts.filter (fun e => decide (e.2 < 0) || decide ((2 ^ 57 : Int) ≤ e.2))).map (·.1))
  let groups := targetGroups ts
  if bad ≠ 0 then trapAt i causeIllegal bad 0 s
  else if !call then scatter i n false groups s
  else
    match s.readWords (groups.map (fun e => (e.1.toNat + 2 ^ 64 - 4) % 2 ^ 64)) with
    | .wait s => .next s
    | .trap r => raiseAt i r s
    | .words hs s =>
      match procTrap s.me.csr.budget.toNat (hs.zip (groups.map (·.2))) with
      | some (cause, m) => trapAt i cause m 0 s
      | none => scatter i n true groups s

/-- BRX, and CALLX with `call` (R175, R177). -/
def branchTable (i : Instr) (call : Bool) (v : VReg) (p : SReg) (len : BitVec 12) (s : State) : Res :=
  guarded i s fun s =>
  notInHandler i s fun s =>
  if 8 * s.me.csr.budget.toNat ≤ v.toNat then illegal i s else
  partIdle s fun s =>
    let x := s.me
    let lanes := (List.range 32).filter (s.sl.xm.getLsbD ·)
    let out := maskOf (lanes.filter (fun l => decide (len.toNat ≤ (x.rv v.toNat l).toNat)))
    let table := (x.rs64 p.toNat).toNat
    if s.pendingV s.cur.g [(v.toNat, 1)] || x.pendingS s.cur.slotB [p.toNat, p.toNat + 1] then stall s
    else
      match s.sl.top with
      | none => illegal i s
      | some n =>
        if lanes.isEmpty then retire s
        else if out ≠ 0 then trapAt i causeTable out 0 s
        else if table % 4 ≠ 0 then trapAt i causeAlign s.sl.xm 0 s
        else
          match s.readWords (lanes.map (fun l => (table + 4 * (x.rv v.toNat l).toNat) % 2 ^ 64)) with
          | .wait s => .next s
          | .trap r => raiseAt i r s
          | .words ws s => toTargets i n call lanes ws s

def execBrx (v : VReg) (p : SReg) (n : BitVec 12) (s : State) : Res := branchTable (.brx v p n) false v p n s
def execCallx (v : VReg) (p : SReg) (n : BitVec 12) (s : State) : Res := branchTable (.callx v p n) true v p n s

/-! ### EXIT (R179, R180) -/

/-- A part whose lanes have all exited leaves the entries it belongs to, from entry `top` outwards; the arrived lanes of an
entry it completes continue in its slot, which is free. At most 16 entries nest. -/
def Group.leaveJoins (b : Bool) : Nat → Option Nat → Group → Group
  | 0, _, x => x
  | _, none, x => x
  | fuel + 1, some n, x =>
    match Sparse.find x.joins n with
    | none => x
    | some e =>
      let e := { e with count := e.count - 1 }
      if e.count ≠ 0 then { x with joins := Sparse.put x.joins n e }
      else
        let x := { x with joins := Sparse.erase x.joins n }
        if e.arrived ≠ 0 then x.setSlot b e.merged else x.leaveJoins b fuel e.parent

/-- No part remains (R180). -/
def Group.noParts (x : Group) : Bool := !x.slotA.live && !x.slotB.live && x.conts.isEmpty && x.joins.isEmpty

/-- The group after lanes `m` of the issuing part exit. -/
def Group.retireLanes (x : Group) (b : Bool) (m : Word) : Group :=
  let y := x.slot b
  let rest := y.lanes &&& ~~~m
  let x := { x with exited := x.exited ||| m }
  if rest ≠ 0 then x.setSlot b ({ y with lanes := rest, xm := y.xm &&& ~~~m }).advance
  else ((x.setSlot b Slot.free).leaveJoins b 17 y.top).refill

/-- EXIT (R179): the EXIT that ends the group closes its open matrix instructions into a batch (R305) and waits for the
lane queue and the five counters (R31). -/
def execExit (k : KReg) (s : State) : Res :=
  notInHandler (.exit k) s fun s =>
  partIdle s fun s =>
    let m := if k = 0 then s.sl.xm else s.sl.xm &&& s.me.rk k.toNat
    let after := s.me.retireLanes s.cur.slotB m
    if !after.noParts then .next (s.setMe after)
    else if s.closeWaits s.cur.g then stall s
    else
      let s := s.closeForRelease s.cur.g
      if !s.me.blocks.isEmpty || !s.countsZero s.cur.g then stall s
      else .next ((s.setMe (s.me.retireLanes s.cur.slotB m)).endGroup s.cur.g)

end Sys2Proof.Machine
end

