-- ==== Sys2Proof/Machine/Journal.lean ====
section
/-! DEFINITION. Invocation records (R399) and the command journal (R409). -/

namespace Sys2Proof.Machine

/-- The `n`-byte field at offset `o` of a record. -/
def fieldAt (bs : List Byte) (o n : Nat) : Nat := bytesNat ((bs.drop o).take n)

/-! ### Fields of an invocation record (R399) -/

def recHidx (r : List Byte) : Nat := fieldAt r 8 2
def recFl (r : List Byte) : Nat := fieldAt r 10 1
def recNarg (r : List Byte) : Nat := fieldAt r 11 1
def recPrio (r : List Byte) : Nat := recFl r % 4
def recReply (r : List Byte) : Bool := recFl r / 4 % 2 == 1
def recMust (r : List Byte) : Bool := recFl r / 8 % 2 == 1

/-- A field that must be zero is not, or NARG is above 12. -/
def recBad (r : List Byte) : Bool :=
  decide (4096 ≤ recHidx r) || decide (16 ≤ recFl r) || decide (12 < recNarg r) || decide (fieldAt r 12 4 ≠ 0)
    || decide (fieldAt r (16 + 4 * recNarg r) (48 - 4 * recNarg r) ≠ 0)

/-- The record with SRC and TICKET as the part writes them. -/
def recStamp (src : Word) (ticket : Nat) (r : List Byte) : List Byte := natBytes 4 src.toNat ++ natBytes 4 ticket ++ r.drop 8

/-- SRC of the host. -/
def hostSrc : Word := 0x80000000

/-! ### The journal (R409) -/

/-- Accepted invocations are journalled. -/
def Inv.journalOn (v : Inv) : Bool := v.jcfg.getLsbD 31

/-- Entries of the ring. -/
def Inv.ring (v : Inv) : Nat := 2 ^ (v.jcfg.toNat % 32)

/-- The physical address of an entry. -/
def Inv.entryAddr (v : Inv) (seq : Nat) : Nat := v.jbase + 64 * (seq % v.ring)

/-- Append the entry of an accepted record. -/
def State.journalAppend (s : State) (r : List Byte) : State :=
  let t := s.ptpNow
  let bs := natBytes 8 s.inv.jnext ++ natBytes 6 t.1 ++ natBytes 4 t.2 ++ natBytes 2 (recHidx r) ++ r.take 8
    ++ natBytes 2 1 ++ natBytes 2 (recFl r) ++ (sha512 (r.drop 16)).take 8 ++ natBytes 24 0
  let s := s.storeSystem (s.inv.entryAddr s.inv.jnext) bs 0
  { s with inv := { s.inv with jnext := s.inv.jnext + 1 } }

/-- Change STATE, DETAIL and LTICKET of an entry that the ring has not overwritten, at system scope. A state of done or
failed raises MSI-X vector 2 (R437). -/
def State.journalSet (s : State) (seq state detail ticket : Nat) : State :=
  let a := s.inv.entryAddr seq
  let s := if s.inv.jnext ≤ seq + s.inv.ring then
      (s.storeSystem (a + 28) (natBytes 1 state ++ natBytes 1 detail) 0).storeSystem (a + 40) (natBytes 4 ticket) 0
    else s
  if 3 ≤ state then s.send (.msix 2) else s

/-- The first cluster of a handler's launch is placed. -/
def State.journalStarted (s : State) (l : Launch) : State :=
  match l.launcher with
  | .handler seq _ _ _ _ => s.journalSet seq 2 0 l.ticket
  | _ => s

end Sys2Proof.Machine
end

