-- ==== Sys2Proof/Machine/Launch.lean ====
section
/-! DEFINITION. Launches (R28 to R30, R188 to R194), task queues and placement (R198 to R201, R211), the load quota (R204) and
pre-emption (R348 to R352). -/

namespace Sys2Proof.Machine

/-! ### Reading a record for the issuing group -/

/-- Reading a record in memory. -/
inductive RecordRead where
  | bytes (bs : List Byte) (s : State)
  | wait (s : State)
  | trap (r : Raised)
  deriving DecidableEq, Repr

/-- Read `n` bytes that lie in one page, as the issuing group's loads see them. -/
def State.readRecord (s : State) (va n : Nat) : RecordRead :=
  let g := s.cur.g
  let x := s.me
  match s.translate (s.streamAsker g s.cur.slotB false) 0 .load [(0, va)] with
  | .trap r => .trap r
  | .miss s => .wait s
  | .go accs =>
    match accs.head?.bind (·.loc) with
    | none => .wait s
    | some l =>
      let places := (List.range n).map l.plus
      if s.loggedBytes g x.seq [va] n then .wait s
      else if places.any (s.loadPoisoned g x.seq 0 false) then
        .trap { cause := causeUncorr, mask := 0, reason := 13, addr := va }
      else
        .bytes (places.map (s.loadByte g x.seq 0 false)) (s.loadCaches g 0 0 n false false [l])

/-! ### The launch record and the kernel header -/

/-- The fields of a launch record (R191). -/
def launchRecOf (bs : List Byte) : LaunchRec :=
  { hdr := fieldAt bs 0 8, gx := fieldAt bs 8 2, gy := fieldAt bs 10 2, gz := fieldAt bs 12 2, cw := fieldAt bs 14 1,
    ch := fieldAt bs 15 1, team := fieldAt bs 16 1, prio := fieldAt bs 17 1, flags := fieldAt bs 18 2,
    phlim := fieldAt bs 20 4, pbreg := fieldAt bs 24 1, pbscr := fieldAt bs 25 1, pbl1 := fieldAt bs 26 1,
    scope := fieldAt bs 27 1, node := fieldAt bs 28 4, graphT := fieldAt bs 32 8, sigA := fieldAt bs 40 8,
    sigV := fieldAt bs 48 8, statA := fieldAt bs 56 8, argB := fieldAt bs 64 8, argX := fieldAt bs 72 8,
    reservedZero := decide (fieldAt bs 80 48 = 0) }

/-- The record keeps R191. -/
def LaunchRec.ok (r : LaunchRec) : Bool :=
  decide (1 ≤ r.cw) && decide (r.cw ≤ 4) && decide (1 ≤ r.ch) && decide (r.ch ≤ 3) && decide (1 ≤ r.team)
    && decide (r.team ≤ 16) && decide (r.prio < 8) && decide (r.flags < 8) && decide (1 ≤ r.pbreg)
    && decide (r.pbreg < r.pbscr) && decide (r.pbscr + 2 ≤ r.pbl1) && decide (r.pbl1 ≤ 31) && decide (r.scope ≤ 6)
    && decide (r.sigA % 8 = 0) && decide (r.statA % 8 = 0) && decide (r.argX < 2 ^ 40) && r.reservedZero

/-- Clusters of the grid. -/
def LaunchRec.size (r : LaunchRec) : Nat := r.gx * r.gy * r.gz

/-- The fields of a kernel header (R28). -/
def headerOf (bs : List Byte) : Header :=
  { flags := fieldAt bs 6 2, entry := BitVec.ofNat 64 (fieldAt bs 8 8), lcb := BitVec.ofNat 64 (fieldAt bs 16 8),
    laneSize := fieldAt bs 24 4, budget := fieldAt bs 28 1, feed := fieldAt bs 29 1, math := fieldAt bs 30 1,
    drain := fieldAt bs 31 1, carryFirst := fieldAt bs 32 1, carryCount := fieldAt bs 33 1, reqScr := fieldAt bs 34 1,
    reqL1 := fieldAt bs 35 1, utvec := BitVec.ofNat 32 (fieldAt bs 36 4), handlers := fieldAt bs 40 8 }

/-- The header keeps every rule of R28 that the part checks (R29). -/
def headerOk (bs : List Byte) : Bool :=
  let h := headerOf bs
  decide (fieldAt bs 0 4 = 0x514B4E4C) && decide (fieldAt bs 4 2 = 1) && decide (h.flags < 8)
    && decide (h.entry.toNat % 4 = 0) && decide (h.entry.toNat < 2 ^ 57) && decide (h.lcb.toNat % 16 = 0)
    && decide (h.lcb.toNat < 2 ^ 57) && decide (h.laneSize % 12 = 0) && decide (h.laneSize ≤ 12 * 2 ^ 20)
    && decide (1 ≤ h.budget) && decide (h.budget ≤ 32) && decide (h.feed ≤ 16) && decide (h.math ≤ 16)
    && decide (h.drain ≤ 16) && decide (fieldAt bs 48 16 = 0)

/-- Groups that the role split names. -/
def Header.roles (h : Header) : Nat := h.feed + h.math + h.drain

/-- The launch runs with shade groups: the OR of both flags. -/
def Launch.shade (l : Launch) : Bool := decide (l.record.flags / 2 % 2 = 1 ∨ l.hdr.flags / 2 % 2 = 1)

/-- POOLCFG of the launch. -/
def Launch.poolcfg (l : Launch) : Word :=
  BitVec.ofNat 32 (l.record.pbl1 * 2 ^ 16 + l.record.pbscr * 2 ^ 8 + l.record.pbreg)

/-! ### Statuses and checks (R192, R193) -/

def statusBadhdr : Nat := 1
def statusBadshape : Nat := 2
def statusNofit : Nat := 3
def statusPriv : Nat := 4

/-- Change the launch of a ticket. -/
def State.onLaunch (s : State) (ticket : Nat) (f : Launch → Launch) : State :=
  { s with sched := { s.sched with launches := s.sched.launches.map (fun l => if l.ticket = ticket then f l else l) } }

/-- The launch ends with a status before any group starts. -/
def State.endLaunch (s : State) (ticket st : Nat) : State :=
  s.onLaunch ticket (fun l => { l with status := some st, checked := true })

/-- What is wrong with a launch whose header is known (steps 5 to 7 of R192). -/
def Launch.refusal (l : Launch) (h : Header) (ctxFlags : Nat) : Option Nat :=
  let r := l.record
  if h.roles ≠ 0 ∧ h.roles ≠ r.team then some statusBadshape
  else if r.pbscr - r.pbreg < h.reqScr ∨ r.pbl1 - r.pbscr < h.reqL1 then some statusBadshape
  else if h.flags / 4 % 2 = 1 ∧ (ctxFlags / 2 % 2 = 0 ∨ l.privileged = false) then some statusPriv
  else if r.pbreg * 65536 < Launch.regBytes { l with hdr := h } then some statusNofit
  else none

/-- Hand the next cluster of a launch to the hardware core cluster whose queue holds the fewest items at its priority
(R198); none while every queue is full. -/
def State.fewest (s : State) (prio : Nat) : Nat × Nat :=
  (List.range 48).foldl (fun (best : Nat × Nat) h =>
    let n := ((s.hcl h).tasks.filter (fun t => t.prio == prio)).length
    if n < best.2 then (h, n) else best) (0, 256)

def handClusters (ticket : Nat) : Nat → State → State
  | 0, s => s
  | fuel + 1, s =>
    match s.launch? ticket with
    | none => s
    | some l =>
      let f := s.fewest l.prio
      if !l.checked || l.status.isSome || decide (l.record.size ≤ l.nextCluster) || decide (256 ≤ f.2) then s
      else
        let t : TaskItem := { start := true, ticket := ticket, cluster := l.nextCluster, team := 0, prio := l.prio,
                              bypassed := 0, reserved := false, held := [] }
        handClusters ticket fuel
          ((s.queueItem f.1 t).onLaunch ticket (fun l => { l with nextCluster := l.nextCluster + 1 }))

/-- The distributor hands over what fits: the items that it holds, and then the clusters launch by launch, to 48 queues of
256 items at a priority. -/
def State.distribute (s : State) : State :=
  let s := s.admitWaiting
  (s.sched.launches.map (·.ticket)).foldl (fun s t => handClusters t 12288 s) s

/-- Where a launch's record and header are read from: the hardware core cluster and the group that asks. -/
def Launcher.place : Launcher → Nat × Option Nat
  | .group g => (hclOf g, some g)
  | .node die _ _ => (12 * die, none)
  | .handler _ _ _ _ _ => (0, none)

/-- The checks that R193 makes of a launch whose header may still have to be read: a page fault leaves it unchecked. -/
def State.checkLaunch (s : State) (ticket : Nat) : State :=
  match s.launch? ticket with
  | none => s
  | some l =>
    let q := s.engineAsker (.launch ticket) l.launcher.place.1 l.ctx l.launcher.place.2
    if l.checked then s
    else if (s.ctxEntry l.ctx).flags % 2 = 0 then s.endLaunch ticket statusPriv
    else if l.record.size = 0 then s.endLaunch ticket 0
    else if !l.record.ok then s.endLaunch ticket statusBadshape
    else if l.record.hdr % 64 ≠ 0 then s.endLaunch ticket statusBadhdr
    else
      match s.engineRange q l.record.hdr 64 .load with
      | (s, .wait) => s
      | (s, .fail) => s.endLaunch ticket statusBadhdr
      | (s, .at_ ps) =>
        let s := s.readPieces ps
        let bs := s.pieceBytes ps
        if s.piecePoisoned ps then s.engineUncorr q l.record.hdr
        else if !headerOk bs then s.endLaunch ticket statusBadhdr
        else
          match l.refusal (headerOf bs) (s.ctxEntry l.ctx).flags with
          | some st => s.endLaunch ticket st
          | none => (s.onLaunch ticket (fun l => { l with hdr := headerOf bs, checked := true })).distribute

/-- A header not read yet. -/
def Header.none : Header :=
  { flags := 0, entry := 0, lcb := 0, laneSize := 0, budget := 0, feed := 0, math := 0, drain := 0, carryFirst := 0,
    carryCount := 0, reqScr := 0, reqL1 := 0, utvec := 0, handlers := 0 }

/-- The ticket after this one: 32 bits, never 0. -/
def nextTicket (t : Nat) : Nat := if t = 0xFFFFFFFF then 1 else t + 1

/-- Submit a launch record: its ticket is the distributor's next. A context that was TERMINATED reads RUNNING again. -/
def State.submitLaunch (s : State) (ctx : Nat) (bs : List Byte) (launcher : Launcher) (privileged : Bool) : State :=
  let t := s.sched.nextTicket
  let l : Launch := { ticket := t, record := launchRecOf bs, hdr := Header.none, ctx := ctx, launcher := launcher,
                      privileged := privileged, checked := false, begun := false, nextCluster := 0, retired := 0, status := none,
                      gates := [], dirty := [], posted := [], step := 0 }
  let s := if s.preemptState ctx = 3 then s.setPreempt ctx 0 else s
  let s := { s with sched := { s.sched with nextTicket := nextTicket t, launches := s.sched.launches ++ [l] } }
  s.checkLaunch t

/-- LAUNCH (R193). -/
def execLaunch (d a : SReg) (s : State) : Res :=
  guarded (.launch d a) s fun s =>
    let va := (s.me.rs64 a.toNat).toNat
    if s.me.pendingS s.cur.slotB [d.toNat, a.toNat, a.toNat + 1] then stall s
    else if va % 128 ≠ 0 then trapAt (.launch d a) causeAlign 0 0 s
    else
      afterRelease s fun s =>
        match s.readRecord va 128 with
        | .wait s => .next s
        | .trap r => raiseAt (.launch d a) r s
        | .bytes bs s =>
          let t := s.sched.nextTicket
          let s := s.submitLaunch s.me.ident.ctx bs (.group s.cur.g) s.me.ident.privileged
          retire (s.setMe (s.me.ws d.toNat (BitVec.ofNat 32 t)))

/-! ### Placement (R199, R200, R211, R354) -/

/-- The core at a row and column of a hardware core cluster. -/
def coreAt (hcl row col : Nat) : Nat := hcl * 12 + 4 * row + col

/-- A placed cluster covers a core. -/
def Cluster.covers (c : Cluster) (core : Nat) : Bool :=
  let p := core % 12
  !c.unplaced && decide (hclOfCore core = c.hcl) && decide (c.row ≤ p / 4) && decide (p / 4 < c.row + c.h)
    && decide (c.col ≤ p % 4) && decide (p % 4 < c.col + c.w)

/-- The core may take new boundaries (R211). -/
def State.vacantCore (s : State) (c : Nat) : Bool :=
  !s.groups.any (fun e => coreOf e.1 == c && e.2.resident) && !s.sched.clusters.any (fun k => k.covers c)

/-- Free entries of scheduler `k` of a core. -/
def State.freeEntries (s : State) (c k : Nat) : List Nat :=
  ((List.range 8).map (fun e => c * 32 + 8 * k + e)).filter (fun g =>
    let x := s.group g
    !x.resident && !x.ident.isShade && x.stores.isEmpty)

/-- Bytes of the register region that running phases use on a core. -/
def State.usedRegs (s : State) (c : Nat) : Nat :=
  (s.sched.clusters.filter (fun k => k.covers c)).foldl (fun n k =>
    let mine := (k.teams.filter (fun t => t.core == c && t.stage == .running)).length
    match s.launch? k.ticket with
    | some l => n + mine * l.regBytes
    | none => n) 0

/-- Entries of scheduler `k` that a team with groups `idxs` needs. -/
def Launch.entriesNeeded (l : Launch) (idxs : List Nat) (k : Nat) : Nat :=
  (idxs.filter (fun i => i % 4 == k)).length
    + (if l.shade then (idxs.filter (fun i => (i + 2) % 4 == k)).length else 0)

/-- A core fits a team; `held` is what reservations hold of it. -/
def State.coreFits (s : State) (c : Nat) (l : Launch) (idxs : List Nat) (held : Nat → Nat) : Bool :=
  (decide ((s.core c).poolcfg = l.poolcfg) || s.vacantCore c)
    && (List.range 4).all (fun k => decide (l.entriesNeeded idxs k ≤ (s.freeEntries c k).length - held k))
    && decide (l.regBytes ≤ l.record.pbreg * 65536 - s.usedRegs c - held 4)

/-- What a reservation holds of a core. -/
def TaskItem.holds (w : TaskItem) (c res : Nat) : Nat :=
  (w.held.filter (fun e => e.1 == c && e.2.1 == res)).foldl (fun n e => n + e.2.2) 0

/-- What the reservations of an item's priority or higher, other than the item's own, hold of a core. What two of them hold
is the same: the older one holds all that the younger holds. -/
def State.heldAgainst (s : State) (h : Nat) (t : TaskItem) (c res : Nat) : Nat :=
  ((s.hcl h).tasks.filter (fun w => w.reserved && decide (t.prio ≤ w.prio) && decide (w ≠ t))).foldl (fun n w =>
    Nat.max n (w.holds c res)) 0

/-- ROLE (R189, R190). -/
def Header.role (h : Header) (i : Nat) : Nat :=
  let kind := if h.roles = 0 then 0 else if i < h.feed then 1 else if i < h.feed + h.math then 2 else 3
  let first := if kind < 2 then 0 else if kind = 2 then h.feed else h.feed + h.math
  i * 2 ^ 8 + (i - first) * 2 ^ 4 + kind

/-- The identity of group `i` of a team on a core (R189). -/
def Launch.identAt (l : Launch) (c : Cluster) (core team i : Nat) (stbcfg : Word) : Ident :=
  let p := core % 12
  { role := BitVec.ofNat 32 (l.hdr.role i), teamId := BitVec.ofNat 32 (p / 4 * 2 ^ 10 + p % 4 * 2 ^ 8 + team),
    clusterId := BitVec.ofNat 32 (c.col * 2 ^ 10 + c.row * 2 ^ 8 + c.hcl / 12 * 2 ^ 4 + c.hcl % 12),
    gridX := BitVec.ofNat 32 (c.index % l.record.gx), gridY := BitVec.ofNat 32 (c.index / l.record.gx % l.record.gy),
    gridZ := BitVec.ofNat 32 (c.index / (l.record.gx * l.record.gy)), stbcfg := stbcfg,
    team := { ticket := l.ticket, cluster := c.index, team := team }, ctx := l.ctx,
    privileged := decide (l.hdr.flags / 4 % 2 = 1),
    deterministic := decide (l.record.flags % 2 = 1 ∨ l.hdr.flags % 2 = 1), shade := Option.none, isShade := false,
    scalarEntry := l.hdr.entry, lcb := l.hdr.lcb, laneSize := l.hdr.laneSize, index := i,
    carryFirst := l.hdr.carryFirst, carryCount := l.hdr.carryCount }

/-- The argument record b0 (R30): ordinary class, readable only. -/
def argRecord (base extent : Nat) : BitVec 128 :=
  BitVec.ofNat 128 (extent % 2 ^ 40 * 2 ^ 64 + 2 ^ 61 + base % 2 ^ 57)

/-- A group at start (R30). -/
def Launch.groupAt (l : Launch) (ident : Ident) : Group :=
  { Group.vacant with
    resident := true, ident := ident, b := [(0, argRecord l.record.argB l.record.argX)],
    csr := { Csrs.start with utvec := l.hdr.utvec &&& 0xFFFFFFFC, budget := BitVec.ofNat 32 l.hdr.budget },
    slotA := { Slot.free with live := true, pc := l.hdr.entry, xm := fullMask, lanes := fullMask } }

/-- What an entry's last group left to write back goes to its launch before the entry is used again. -/
def State.collect (s : State) (g : Nat) : State :=
  let x := s.group g
  s.onLaunch x.ident.team.ticket (fun l =>
    { l with dirty := distinct (l.dirty ++ x.dirtySectors), posted := if x.posted then distinct (l.posted ++ [g]) else l.posted })

/-- Seat a group at the lowest free entry of its scheduler, and its shade at that of (i + 2) mod 4; the entry is answered. -/
def State.seat (s : State) (core : Nat) (shade : Bool) (x : Group) : State × Nat :=
  let i := x.ident.index
  let g := (s.freeEntries core (i % 4)).headD (core * 32)
  let s := s.collect g
  let old := s.group g
  let x := { x with age := s.ck, rateFrom := s.ck, secAt := s.ck / 2000, seq := old.seq, posted := old.posted || x.posted }
  let s := s.setGroup g x
  match shade, s.freeEntries core ((i + 2) % 4) with
  | true, h :: _ =>
    let s := s.collect h
    let ghost : Group := { Group.vacant with ident := { Ident.vacant with isShade := true, ctx := x.ident.ctx,
                                                                           team := x.ident.team } }
    ((s.setGroup g { x with ident := { x.ident with shade := some h } }).setGroup h ghost, g)
  | _, _ => (s, g)

def seatAll (core : Nat) (shade : Bool) : List Group → State → List (Nat × Nat) → State × List (Nat × Nat)
  | [], s, got => (s, got)
  | x :: rest, s, got =>
    let r := s.seat core shade x
    seatAll core shade rest r.1 (got ++ [(x.ident.index, r.2)])

/-- A team's phase starts on a core with these groups (R196, R225, R226). -/
def State.startTeam (s : State) (l : Launch) (k : TeamKey) (core : Nat) (xs : List Group) (stbcfg : Word) : State :=
  let r := seatAll core l.shade xs s []
  let s := r.1
  let at_ (i : Nat) : Nat := ((r.2.find? (fun e => e.1 == i)).map (·.2)).getD 0
  let s := s.onTeam k (fun t => ({ t with
    stage := .running, core := core, placedAt := s.ck, members := (List.range 16).map at_, records := [],
    starts := if l.shade then t.records else [],
    stbcfg := stbcfg, windowStart := s.ck, credit := 256 * (budgetOf stbcfg : Int) }))
  s.setCore core { s.core core with idle := false }

/-- A core takes the launch's boundaries (R211): every word is empty, and lanes that waited for that proceed (R215). -/
def State.repartition (s : State) (c : Nat) (poolcfg : Word) : State :=
  if (s.core c).poolcfg = poolcfg then s
  else
    let ws := distinct ((s.core c).waiters.map (·.word))
    ws.foldl (fun s w => feServe c w (s.core c).waiters.length s)
      (s.setCore c { s.core c with l1 := [], scratch := [], poolcfg := poolcfg })

/-- A team's next phase starts from its records (R197); a phase after a boundary starts with a full fence at cluster scope
(R260). -/
def State.startPhase (s : State) (l : Launch) (c : Cluster) (t : Team) (core : Nat) : State :=
  let stbcfg := (s.ctxEntry l.ctx).stbcfg
  let xs := t.records.map (fun r => { r.group with resident := true, ident := l.identAt c core t.key.team r.index stbcfg })
  (s.l1Invalidate core).startTeam l t.key core xs stbcfg

/-- A team of a cluster that has not started. -/
def Launch.newTeam (l : Launch) (index team core : Nat) : Team :=
  { key := { ticket := l.ticket, cluster := index, team := team }, stage := .queued, phase := 0, core := core, placedAt := 0,
    members := [], records := [], starts := [], live := List.range l.record.team, total := l.record.team * 8 * l.hdr.budget, pool := 0,
    claimants := [], stbcfg := 0, credit := 0, windowStart := 0 }

/-- The cores of a rectangle in team order. -/
def rectCores (hcl row col w h : Nat) : List Nat :=
  (List.range h).flatMap (fun dr => (List.range w).map (fun dc => coreAt hcl (row + dr) (col + dc)))

/-- Origins of a rectangle in ascending order of r × 4 + c. -/
def origins (w h : Nat) : List (Nat × Nat) :=
  (List.range 3).flatMap (fun r => (List.range 4).filterMap (fun c =>
    if r + h ≤ 3 ∧ c + w ≤ 4 then some (r, c) else none))

/-- The cluster that a start item places: the one that gave up its rectangle, or a new one. -/
def State.startCluster (s : State) (l : Launch) (h : Nat) (t : TaskItem) (row col : Nat) : Cluster :=
  let w := l.record.cw
  match s.sched.clusters.find? (fun c => c.ticket == t.ticket && c.index == t.cluster) with
  | some c =>
    let cores := rectCores h row col w l.record.ch
    { c with hcl := h, row := row, col := col, unplaced := false,
             teams := c.teams.map (fun m => { m with core := cores.getD m.key.team 0 }) }
  | none =>
    { ticket := t.ticket, index := t.cluster, hcl := h, row := row, col := col, w := w, h := l.record.ch, unplaced := false,
      teams := (List.range (w * l.record.ch)).map (fun k =>
        l.newTeam t.cluster k ((rectCores h row col w l.record.ch).getD k 0)) }

/-- Place a cluster start at an origin: every team of it that has a phase to run starts. -/
def State.placeStart (s : State) (l : Launch) (h : Nat) (t : TaskItem) (row col : Nat) : State :=
  let c := s.startCluster l h t row col
  let s := if l.begun then s else (s.journalStarted l).onLaunch l.ticket (fun l => { l with begun := true })
  let s := (rectCores h row col l.record.cw l.record.ch).foldl (fun s k => s.repartition k l.poolcfg) s
  let others := s.sched.clusters.filter (fun k => !(k.ticket == c.ticket && k.index == c.index))
  let s := { s with sched := { s.sched with clusters := others ++ [c] } }
  let stbcfg := (s.ctxEntry l.ctx).stbcfg
  (c.teams.filter (fun m => m.stage == .queued)).foldl (fun s m =>
    if m.phase = 0 then
      s.startTeam l m.key m.core (m.live.map (fun i => l.groupAt (l.identAt c m.core m.key.team i stbcfg))) stbcfg
    else s.startPhase l c m m.core) s

/-- Place an item of a hardware core cluster's task queue, if it fits now. -/
def State.tryItem (s : State) (h : Nat) (t : TaskItem) : Option State :=
  match s.launch? t.ticket with
  | none => none
  | some l =>
    if l.preemptible && (decide (s.preemptState l.ctx = 1) || decide (s.preemptState l.ctx = 2)) then none
    else if t.start then
      let cands := if t.reserved then [(0, 0)] else origins l.record.cw l.record.ch
      let fits (o : Nat × Nat) : Bool :=
        let c := s.startCluster l h t o.1 o.2
        c.teams.all (fun m => s.coreFits m.core l m.live (s.heldAgainst h t m.core))
      (cands.find? fits).map (fun o => s.placeStart l h t o.1 o.2)
    else
      match s.sched.clusters.find? (fun c => c.ticket == t.ticket && c.index == t.cluster) with
      | none => none
      | some c =>
        match c.teams.find? (fun m => m.key.team == t.team) with
        | none => none
        | some m =>
          let cands := m.core :: rectCores h c.row c.col c.w c.h
          (cands.find? (fun k => s.coreFits k l m.live (fun _ => 0))).map (fun k => s.startPhase l c m k)

/-- The items in the order of R201: descending priority, arrival order within one. -/
def serveOrder (ts : List TaskItem) : List TaskItem :=
  (List.range 8).reverse.flatMap (fun p => ts.filter (fun t => t.prio == p))

def firstPlaced (h : Nat) (s : State) : List TaskItem → Option (TaskItem × State)
  | [] => none
  | t :: rest =>
    match s.tryItem h t with
    | some s => some (t, s)
    | none => firstPlaced h s rest

/-- The first start of a priority that 4 later items have bypassed becomes the priority's reservation. -/
def reserveAt (s : State) (h p : Nat) (ts : List TaskItem) : List TaskItem :=
  if ts.any (fun t => t.reserved && t.prio == p) then ts
  else
    match ts.find? (fun t => t.start && t.prio == p && decide (4 ≤ t.bypassed)), s with
    | some w, s =>
      let cores := match s.launch? w.ticket with
        | some l => rectCores h 0 0 l.record.cw l.record.ch
        | none => []
      let held := cores.flatMap (fun c => (List.range 5).map (fun r => (c, r, 0)))
      ts.map (fun t => if t = w then { t with reserved := true, held := held } else t)
    | none, _ => ts

/-- A team that item `t` has placed on a core uses entries and registers there: where a reservation does not hold `t` back, it
gives up that much of what it holds. -/
def useHeld (t : TaskItem) (l : Launch) (m : Team) (w : TaskItem) : TaskItem :=
  if w.reserved && (!t.start || decide (w.prio < t.prio)) then
    (List.range 4).foldl (fun w k => w.unhold m.core k (l.entriesNeeded m.live k)) (w.unhold m.core 4 l.regBytes)
  else w

/-- The teams that item `t` has placed. -/
def State.placedBy (s : State) (t : TaskItem) : List Team :=
  match s.sched.clusters.find? (fun c => c.ticket == t.ticket && c.index == t.cluster) with
  | some c => if t.start then c.teams.filter Team.isRunning else c.teams.filter (fun m => m.key.team == t.team)
  | none => []

/-- The queue after item `t` was placed: earlier starts of its priority or higher count a bypass. -/
def State.afterPlaced (s : State) (h : Nat) (t : TaskItem) : State :=
  let ts := (s.hcl h).tasks
  let before := ts.takeWhile (fun w => decide (w ≠ t))
  let after := (ts.dropWhile (fun w => decide (w ≠ t))).drop 1
  let bumped := before.map (fun w => if w.start ∧ t.prio ≤ w.prio then { w with bypassed := w.bypassed + 1 } else w)
  let ts := bumped ++ after
  let ts := match s.launch? t.ticket with
    | some l => (s.placedBy t).foldl (fun ts m => ts.map (useHeld t l m)) ts
    | none => ts
  let ts := (List.range 8).foldl (fun ts p => reserveAt s h p ts) ts
  s.setHcl h { s.hcl h with tasks := ts }

/-- TASK_QUEUE_PLACE (R201): headers that wait for a page are tried again, the distributor hands over what fits, and the
next item that fits is placed. -/
def execTaskQueuePlace (hcl : Nat) (s : State) : Res :=
  let s := ((s.sched.launches.filter (fun l => !l.checked)).foldl (fun s l => s.checkLaunch l.ticket) s).distribute
  match firstPlaced hcl s (serveOrder (s.hcl hcl).tasks) with
  | none => .next s
  | some (t, s) => .next (s.afterPlaced hcl t).distribute

/-! ### The load quota (R204) -/

/-- LOAD_QUOTA_WINDOW: the core's window of 1,024 ck has ended. -/
def execLoadQuotaWindow (core : Nat) (s : State) : Res :=
  let c := s.core core
  let empty := !s.groups.any (fun e => coreOf e.1 == core && e.2.resident)
  let q := if c.idle && empty then 32
    else if c.thrcfg.toNat % 65536 < c.hits then Nat.max 2 (c.quota / 2)
    else Nat.min 32 (c.quota + 1)
  if c.window + s.arithTime 1024 ≤ s.ck then
    .next (s.setCore core { c with quota := q, lastHits := c.hits, hits := 0, idle := empty, window := c.window + s.arithTime 1024 })
  else stall s

/-! ### Pre-emption (R348 to R352) -/

/-- PHASE_LIMIT_EXPIRY: checked only while the context is PENDING. -/
def execPhaseLimitExpiry (ctx : Nat) (s : State) : Res :=
  match s.preemptState ctx, s.pastLimit ctx with
  | 1, some t => .next (s.phaseTimeout ctx t)
  | _, _ => stall s

/-- PRECMD as an accepted command leaves it: BUSY and GO clear (R348). -/
def precmdOf (ctx op : Nat) : Word := BitVec.ofNat 32 (ctx % 4096 * 2 ^ 16 + op)

/-- PRECMD.BUSY: a command was issued and is not accepted yet. -/
def State.commandBusy (s : State) : Bool := s.sched.precmd.getLsbD 31

/-- PRESTAT (R348): the state of the context that PRECMD.CTX names. -/
def State.prestat (s : State) : Word := BitVec.ofNat 32 (s.preemptState (s.sched.precmd.toNat / 2 ^ 16 % 4096) * 2 ^ 28)

/-- A write of PRECMD (R348): CTX and OP are kept, and GO issues the command; while one is busy, a write with GO is
ignored. -/
def State.writePrecmd (s : State) (v : Word) : State :=
  let go := v.getLsbD 30
  let busy := if go || s.commandBusy then 2 ^ 31 else 0
  if go && s.commandBusy then s
  else { s with sched := { s.sched with
    precmd := BitVec.ofNat 32 (busy + v.toNat / 2 ^ 16 % 4096 * 2 ^ 16 + v.toNat % 4) } }

/-- PREEMPT_COMMAND: the command is accepted (R349). -/
def execPreemptCommand (ctx : Nat) (s : State) : Res :=
  let s := { s with sched := { s.sched with precmd := precmdOf ctx 1 } }
  if s.preemptState ctx ≠ 0 then .next s
  else
    let s := s.setPreempt ctx 1
    match s.pastLimit ctx with
    | some t => .next (s.phaseTimeout ctx t)
    | none => .next (s.preemptSettle ctx)

/-- The start item of a cluster that gave up its rectangle (R352). -/
def requeueCluster (s : State) (c : Cluster) : State :=
  match s.launch? c.ticket with
  | none => s
  | some l =>
    s.queueItem c.hcl { start := true, ticket := c.ticket, cluster := c.index, team := 0, prio := l.prio, bypassed := 0,
                        reserved := false, held := [] }

/-- RESUME_COMMAND: the command is accepted (R349, R352). -/
def execResumeCommand (ctx : Nat) (s : State) : Res :=
  let s := { s with sched := { s.sched with precmd := precmdOf ctx 2 } }
  match s.preemptState ctx with
  | 1 => .next (s.setPreempt ctx 0)
  | 2 =>
    let held := s.sched.clusters.filter (fun c => c.unplaced && s.preemptibleOf ctx c.ticket)
    .next (held.foldl requeueCluster (s.setPreempt ctx 0))
  | _ => .next s

/-- A command issued through PRECMD is accepted (R348): operations 0 and 3 do nothing. -/
def execPrecmd (s : State) : Res :=
  let ctx := s.sched.precmd.toNat / 2 ^ 16 % 4096
  match s.sched.precmd.toNat % 4 with
  | 1 => execPreemptCommand ctx s
  | 2 => execResumeCommand ctx s
  | op => .next { s with sched := { s.sched with precmd := precmdOf ctx op } }

end Sys2Proof.Machine
end

