-- ==== Sys2Proof/Machine/Copy.lean ====
section
/-! DEFINITION. The copy engine of a hardware core cluster (R262, R263, R312 to R317, R321): CPY and its commands, and
CAOUT (R280, R281). -/

namespace Sys2Proof.Machine

/-! ### The range-lock table (R321) -/

/-- Two ranges of one space meet. -/
def RangeLock.overlaps (a b : RangeLock) : Bool :=
  decide (a.scr = b.scr) && (a.scr.isSome || decide (a.ctx = b.ctx)) && decide (a.lo < b.hi) && decide (b.lo < a.hi)

/-- Entry `a` conflicts with an entry registered before it. -/
def Hcl.conflicts (h : Hcl) (a : RangeLock) : Bool :=
  h.locks.any (fun b => decide (b.order < a.order) && decide (b.op ≠ a.op) && (a.write || b.write) && a.overlaps b)

/-- Some entry of an operation conflicts with an older one. -/
def Hcl.blocked (h : Hcl) (op : Nat) : Bool := (h.locks.filter (fun a => a.op == op)).any h.conflicts

/-- Register an entry over bytes `lo` to `hi` − 1 of a space, rounded outward to 64 bytes. `lo` and `hi` are virtual
addresses, or with `scratch` numbers of scratch places. -/
def Hcl.register (h : Hcl) (op ctx lo hi : Nat) (scratch write : Bool) : Hcl :=
  let core : Option Nat := if scratch then some ((lo - 2 ^ 60) / 2 ^ 21) else none
  let base := if scratch then 2 ^ 60 + (lo - 2 ^ 60) / 2 ^ 21 * 2 ^ 21 else 0
  let e : RangeLock := { op := op, write := write, ctx := ctx, scr := core, lo := (lo - base) / 64 * 64,
                         hi := (hi - base + 63) / 64 * 64, order := h.lockOrder }
  { h with locks := h.locks ++ [e], lockOrder := h.lockOrder + 1 }

/-- Release an operation's entries. -/
def Hcl.release (h : Hcl) (op : Nat) : Hcl := { h with locks := h.locks.filter (fun e => e.op != op) }

/-! ### The command (R313, R316) -/

/-- The fields of a CPY command. -/
structure Cpy where
  src : Nat
  dst : Nat
  nx : Nat
  ny : Nat
  nz : Nat
  spy : Nat
  spz : Nat
  dpy : Nat
  dpz : Nat
  op : Nat
  elem : Nat
  flags : Nat
  frec : Word
  statA : Nat
  /-- The bytes that must be zero are. -/
  zero : Bool
  deriving DecidableEq, Repr

def cpyOf (bs : List Byte) : Cpy :=
  { src := fieldAt bs 0 8, dst := fieldAt bs 8 8, nx := fieldAt bs 16 4, ny := fieldAt bs 20 2, nz := fieldAt bs 22 2,
    spy := fieldAt bs 24 4, spz := fieldAt bs 28 4, dpy := fieldAt bs 32 4, dpz := fieldAt bs 36 4, op := fieldAt bs 40 1,
    elem := fieldAt bs 41 1, flags := fieldAt bs 42 1, frec := BitVec.ofNat 32 (fieldAt bs 44 4), statA := fieldAt bs 48 8,
    zero := decide (fieldAt bs 43 1 = 0) && decide (fieldAt bs 56 8 = 0) }

def Cpy.flag (c : Cpy) (k : Nat) : Bool := c.flags / 2 ^ k % 2 == 1
def Cpy.stream (c : Cpy) : Nat := c.flags / 8 % 4
def Cpy.hint (c : Cpy) : Nat := if c.flag 2 then 3 else 0
/-- Element bytes. -/
def Cpy.width (c : Cpy) : Nat := if c.op = 0 then 1 else 2 ^ c.elem
/-- The block type of OP 2 and 3, its depth, and the bytes of a fragment image (R314). -/
def Cpy.type (c : Cpy) : Nat := widest c.frec
def Cpy.imageBytes (c : Cpy) : Nat := 2048 + 128 * (if c.type = 12 then 4 else 2)
def Cpy.empty (c : Cpy) : Bool := decide (c.nx = 0 ∨ c.ny = 0 ∨ c.nz = 0)

/-- Bytes of one plane from its first to its last byte. -/
def Cpy.srcPlane (c : Cpy) : Nat :=
  match c.op with
  | 3 => c.imageBytes
  | 2 => if c.flag 5 then (c.nx - 1) * c.spy + c.ny * c.width else (c.ny - 1) * c.spy + c.nx * c.width
  | _ => (c.ny - 1) * c.spy + c.nx * c.width
def Cpy.dstPlane (c : Cpy) : Nat :=
  match c.op with
  | 1 => (c.nx - 1) * c.dpy + c.ny * c.width
  | 2 => c.imageBytes
  | _ => (c.ny - 1) * c.dpy + c.nx * c.width

/-- Bytes from the lowest to the highest that the command can touch. -/
def Cpy.srcSpan (c : Cpy) : Nat := if c.empty then 0 else (c.nz - 1) * c.spz + c.srcPlane
def Cpy.dstSpan (c : Cpy) : Nat := if c.empty then 0 else (c.nz - 1) * c.dpz + c.dstPlane

/-- The number of a place that SRC or DST names: a scratch locator of the hardware core cluster, or a virtual address. -/
def placeNumber (hcl a : Nat) (scratch : Bool) : Nat :=
  if scratch then 2 ^ 60 + (hcl * 12 + 4 * (a / 2 ^ 23 % 4) + a / 2 ^ 21 % 4) * 2 ^ 21 + a % 2 ^ 21 else a

/-- A span that SRC or DST and its extent may not name (R316). -/
def State.badSpan (s : State) (hcl a n : Nat) (scratch : Bool) : Bool :=
  if scratch then
    decide (a / 2 ^ 25 ≠ 0) || decide (a / 2 ^ 23 % 4 = 3)
      || decide ((s.core (hcl * 12 + 4 * (a / 2 ^ 23 % 4) + a / 2 ^ 21 % 4)).scrSize < a % 2 ^ 21 + n)
  else decide (2 ^ 57 ≤ a) || decide (2 ^ 57 < a + n)

/-- OP, ELEM, FREC and the fields that belong to them are refused. -/
def Cpy.badForm (c : Cpy) : Bool :=
  let w := c.width
  let k := blockDepth c.type
  match c.op with
  | 0 => decide (c.elem ≠ 0) || decide (c.frec ≠ 0) || c.flag 5
  | 1 => decide (2 < c.elem) || decide (c.frec ≠ 0) || c.flag 5
      || [c.src, c.dst, c.spy, c.spz, c.dpy, c.dpz].any (fun a => decide (a % w ≠ 0))
  | 2 => decide (c.elem ≠ 1 ∧ c.elem ≠ 2) || !c.flag 1 || decide (c.ny ≠ 64) || decide (c.nx ≠ k)
      || (List.range c.nz).any (fun z => decide ((c.dst + z * c.dpz) % 4 ≠ 0))
      || frecBad c.frec 0 || decide (frecRound c.frec = 6) || frecDepthBad c.frec k
  | 3 => decide (c.elem ≠ 1 ∧ c.elem ≠ 2) || !c.flag 0 || c.flag 5 || decide (c.ny ≠ 64) || decide (c.nx ≠ k)
      || (List.range c.nz).any (fun z => decide ((c.src + z * c.spz) % 4 ≠ 0))
      || frecBad c.frec 0 || decide (frecRound c.frec = 6) || frecDepthBad c.frec k
  | _ => true

/-- The command fails R316. -/
def State.badCpy (s : State) (hcl : Nat) (c : Cpy) : Bool :=
  !c.zero || decide (64 ≤ c.flags) || c.badForm || decide (c.statA % 8 ≠ 0) || decide (2 ^ 57 ≤ c.statA)
    || s.badSpan hcl c.src c.srcSpan (c.flag 0) || s.badSpan hcl c.dst c.dstSpan (c.flag 1)

/-! ### What a command reads and writes (R314) -/

/-- Places read, in order: number and bytes. -/
def Cpy.reads (c : Cpy) (hcl : Nat) : List (Nat × Nat) :=
  let base := placeNumber hcl c.src (c.flag 0)
  (List.range c.nz).flatMap (fun z =>
    match c.op with
    | 3 => [(base + z * c.spz, c.imageBytes)]
    | 2 =>
      if c.flag 5 then (List.range c.nx).map (fun x => (base + z * c.spz + x * c.spy, c.ny * c.width))
      else (List.range c.ny).map (fun y => (base + z * c.spz + y * c.spy, c.nx * c.width))
    | _ => (List.range c.ny).map (fun y => (base + z * c.spz + y * c.spy, c.nx * c.width)))

/-- Places written, in order. -/
def Cpy.writes (c : Cpy) (hcl : Nat) : List (Nat × Nat) :=
  let base := placeNumber hcl c.dst (c.flag 1)
  (List.range c.nz).flatMap (fun z =>
    match c.op with
    | 1 => (List.range c.ny).flatMap (fun y => (List.range c.nx).map (fun x => (base + z * c.dpz + x * c.dpy + y * c.width, c.width)))
    | 2 => [(base + z * c.dpz, c.imageBytes)]
    | _ => (List.range c.ny).map (fun y => (base + z * c.dpz + y * c.dpy, c.nx * c.width)))

/-- The number at element `k` of `w` bytes. -/
def numAt (w k : Nat) (bs : List Byte) : Nat := bytesNat ((bs.drop (w * k)).take w)

/-- The values of the 64 lines of a source plane of OP 2: `rows` are the bytes of its reads. -/
def Cpy.lines (c : Cpy) (rows : List (List Byte)) : List (List FVal) :=
  let fmt := if c.elem = 1 then bf16 else f32
  (List.range 64).map (fun y => (List.range c.nx).map (fun x =>
    fmt.val (if c.flag 5 then numAt c.width y (rows.getD x []) else numAt c.width x (rows.getD y []))))

/-- A quantised sub-block of OP 2; a NaN sub-block's micro-shifts and elements are undefined bytes. -/
def Cpy.quantise (c : Cpy) (use i : Nat) (vs : List FVal) : SubBlock :=
  let b := (quantSb (blockP c.type) (frecRound c.frec) vs).1
  let free (j : Nat) : Nat := (Config.freeByte use (32 * i + j)).toNat
  if b.x = -128 then
    { b with mu := free 16, elems := (List.range 16).map (fun j => elemOfReg c.type (free j)) }
  else b

/-- The bytes of a fragment image from its lines' sub-blocks: line n's are subs[n]. -/
def fragImage (ty : Nat) (subs : List (List SubBlock)) : List Byte :=
  let per := blockDepth ty / 16
  let sub (r m : Nat) : SubBlock := (subs.getD (4 * r + m / per) []).getD (m % per) SubBlock.zero
  let elems := subs.flatMap (fun line => natBytes 32 (joinElems (regBits ty) (line.flatMap (fun b => b.elems.map (regElem ty)))))
  let inReg := if ty = 12 then 4 else 8
  let lanesPer := 32 / inReg
  let comp (c l : Nat) : List Byte :=
    let r := inReg * c + l / lanesPer
    let m := 2 * (l % lanesPer)
    natBytes 4 ((sub r m).word + 2 ^ 16 * (sub r (m + 1)).word)
  elems ++ (List.range (if ty = 12 then 4 else 2)).flatMap (fun c => (List.range 32).flatMap (comp c))

/-- The values of line `n` of a fragment image. -/
def imageLine (ty : Nat) (bs : List Byte) (n : Nat) : List FVal :=
  let k := blockDepth ty
  let per := k / 16
  let inReg := if ty = 12 then 4 else 8
  let line := bytesNat ((bs.drop (32 * n)).take 32)
  let word (q : Nat) : Nat :=
    let p := expPlace ty (n / 4) (per * (n % 4) + q)
    fieldAt bs (2048 + 128 * (n / 4 / inReg) + 4 * p.1 + 2 * p.2) 2
  (List.range k).map (fun x =>
    let w := word (x / 16)
    elemVal (blockP ty) (sByte (w % 256)) (muOf (w / 256) (x % 16)) (elemOfReg ty (elemAt (regBits ty) x line)))

/-- The encoding that OP 3 writes. -/
def Cpy.dequantise (c : Cpy) (v : FVal) : Nat :=
  if c.elem = 1 then (bf16.convert (frecRound c.frec) 0 v).bits else (f32.convert 0 0 v).bits

/-- The bytes of each place written, from those of each place read. -/
def Cpy.data (c : Cpy) (use : Nat) (rows : List (List Byte)) : List (List Byte) :=
  match c.op with
  | 0 => rows
  | 1 => rows.flatMap (fun row => (List.range c.nx).map (fun x => (row.drop (c.width * x)).take c.width))
  | 2 =>
    let per := if c.flag 5 then c.nx else c.ny
    (List.range c.nz).map (fun z =>
      let lines := c.lines ((rows.drop (per * z)).take per)
      fragImage c.type ((lines.zip (List.range 64)).map (fun l => (List.range (c.nx / 16)).map (fun q =>
        c.quantise use (256 * z + 4 * l.2 + q) ((l.1.drop (16 * q)).take 16)))))
  | _ =>
    rows.flatMap (fun image => (List.range 64).map (fun n =>
      (imageLine c.type image n).flatMap (fun v => natBytes c.width (c.dequantise v))))

/-! ### Engine access to numbered places -/

/-- Translate a list of numbered places for an engine, each into its pieces. -/
inductive EngineRanges where
  | at_ (ranges : List (List (Loc × Nat)))
  | wait
  | fail
  deriving DecidableEq, Repr

def State.engineRanges (q : Asker) (k : Access) : List (Nat × Nat) → State → State × EngineRanges
  | [], s => (s, .at_ [])
  | (a, n) :: rest, s =>
    match (if isScr a then (s, EngineRange.at_ [(scrPlace a, n)]) else s.engineRange q a n k) with
    | (s, .wait) => (s, .wait)
    | (s, .fail) => (s, .fail)
    | (s, .at_ ps) =>
      match State.engineRanges q k rest s with
      | (s, .at_ r) => (s, .at_ (ps :: r))
      | r => r

/-- The single bytes of pieces. -/
def pieceLocs (ps : List (Loc × Nat)) : List Loc := ps.flatMap (fun p => (List.range p.2).map p.1.plus)

/-- A place lies in one of the pieces. -/
def Loc.inPieces (l : Loc) (ps : List (Loc × Nat)) : Bool :=
  ps.any (fun p => match l, p.1 with
    | .dev a, .dev b => decide (b ≤ a) && decide (a < b + p.2)
    | .host a, .host b => decide (b ≤ a) && decide (a < b + p.2)
    | .scr c a, .scr d b => decide (c = d) && decide (b ≤ a) && decide (a < b + p.2)
    | _, _ => false)

/-- Store single bytes for an engine. -/
def State.storeBytes (s : State) (ws : List (Loc × Byte)) (ctx stream hint : Nat) : State :=
  let devs := ws.filterMap (fun w => match w.1 with
    | .dev a => some (a, w.2)
    | _ => none)
  let others := ws.filter (fun w => match w.1 with
    | .dev _ => false
    | _ => true)
  others.foldl (fun s w => s.storeLoc none w.1 [w.2] ctx stream hint) (s.storeDev devs ctx stream hint)

/-- An engine has stored all of these bytes, in two steps (R263): a sector that they cover is no longer poisoned (R366). -/
def State.unpoisonWhole (s : State) (ls : List Loc) : State :=
  let pas := distinct (ls.filterMap (fun l => match l with
    | .dev a => some a
    | _ => none))
  s.ras.poison.foldl (fun s n => if (pas.filter (fun a => a / 1024 == n)).length = 1024 then s.unpoison n else s) s

/-- Read pieces for an engine: an LLC access each, as rows. -/
def readAll (hint : Nat) : List (List (Loc × Nat)) → State → State × List (List Byte)
  | [], s => (s, [])
  | ps :: rest, s =>
    let s := s.loadTouch (pieceSpan ps) false hint
    let t := readAll hint rest s
    (t.1, s.pieceBytes ps :: t.2)

/-- A numbered place translated without waiting or asking. -/
def State.quietPlace (s : State) (q : Asker) (a : Nat) : State × Option Loc :=
  if isScr a then (s, some (scrPlace a))
  else
    match s.lookup q a .store with
    | .hit l => (s, some l)
    | .miss =>
      match s.walk q.ctx a .store with
      | (s, .leaf v size base e) =>
        if pteBit e 5 then (s, none)
        else
          match s.landing false (base + (a - v)) with
          | .hit l => (s.tlbFill (leafEntry q.hcl q.ctx v size base e), some l)
          | _ => (s, none)
      | (s, _) => (s, none)
    | _ => (s, none)

/-- Bytes of a destination that an operation leaves undefined: free values, at the places that translate. -/
def State.undefine (s : State) (q : Asker) (stream use : Nat) (ws : List (Nat × Nat)) : State :=
  let pieces := ws.flatMap (fun w => if isScr w.1 then [w] else pagePieces w.1 w.2)
  (pieces.zip (List.range pieces.length)).foldl (fun s w =>
    match s.quietPlace q w.1.1 with
    | (s, some l) =>
      s.storeBytes ((List.range w.1.2).map (fun i => (l.plus i, Config.freeByte use (2 ^ 32 * (w.2 + 1) + i)))) q.ctx stream 0
    | (s, none) => s) s

/-- What the data step of a command comes to. -/
inductive CopyStep where
  | wait (s : State)
  | fail (s : State)
  | done (s : State)
  deriving DecidableEq, Repr

/-- A data step of a CPY command. The first step, for which `early` names its use of free values, writes bytes that the free
choice names; the last one writes the others (R263). Where source and destination are the same place, the byte is written
last, and ends undefined (R317). -/
def State.moveCopy (s : State) (q : Asker) (c : Cpy) (use : Nat) (early : Option Nat) (last : Bool) : CopyStep :=
  match State.engineRanges q .load (c.reads q.hcl) s with
  | (s, .wait) => .wait s
  | (s, .fail) => .fail s
  | (s, .at_ src) =>
    match State.engineRanges q .store (c.writes q.hcl) s with
    | (s, .wait) => .wait s
    | (s, .fail) => .fail s
    | (s, .at_ dst) =>
      if src.any s.piecePoisoned then .fail (s.engineUncorr q c.src)
      else
        let r := readAll c.hint src s
        let from_ := src.flatten
        let chosen (i : Nat) : Bool := match early with
          | some n => Config.freeChoice n i
          | none => false
        let ws := ((dst.flatMap pieceLocs).zip (c.data use r.2).flatten).zip (List.range (dst.flatMap pieceLocs).length)
        let one (w : (Loc × Byte) × Nat) : Option (Loc × Byte) :=
          if w.1.1.inPieces from_ then (if last then some (w.1.1, Config.freeByte use w.2) else none)
          else if last == chosen w.2 then none else some w.1
        let s := r.1.storeBytes (ws.filterMap one) q.ctx c.stream c.hint
        .done (if last then s.unpoisonWhole (dst.flatMap pieceLocs) else s)

/-! ### The queue (R312, R315) -/

/-- The command of a ticket. -/
def Hcl.command (h : Hcl) (ticket : Nat) : Option CopyCmd := h.copyQueue.find? (fun c => c.ticket == ticket)

def Hcl.setCommand (h : Hcl) (c : CopyCmd) : Hcl :=
  { h with copyQueue := h.copyQueue.map (fun x => if x.ticket = c.ticket then c else x) }

/-- Room for one more command: a free queue entry and two free range-lock entries. -/
def Hcl.copyRoom (h : Hcl) : Bool := decide (h.copyQueue.length < 64) && decide (h.locks.length + 2 ≤ 256)

/-- The engine's next ticket. -/
def Hcl.nextCopy (h : Hcl) : Nat := nextTicket h.copyTicket

/-- Accept a CPY command: refused and empty ones are over at once, the others register their two entries. -/
def State.acceptCopy (s : State) (hcl : Nat) (bs : List Byte) (g core : Option Nat) (node : Option (Nat × Nat × Nat))
    (ctx launch : Nat) : State :=
  let h := s.hcl hcl
  let c := cpyOf bs
  let status : Option Nat := if s.badCpy hcl c then some 1 else if c.empty then some 0 else none
  let cmd : CopyCmd :=
    { ticket := h.nextCopy, op := h.lockOrder, kind := .cpy, bytes := bs, g := g, node := node, core := core, ctx := ctx,
      launch := launch, started := status.isSome, early := none, pinned := false, status := status }
  let h := { h with copyTicket := h.nextCopy, copyQueue := h.copyQueue ++ [cmd] }
  let a := placeNumber hcl c.src (c.flag 0)
  let b := placeNumber hcl c.dst (c.flag 1)
  s.setHcl hcl (if status.isSome then h
    else (h.register cmd.op ctx a (a + c.srcSpan) (c.flag 0) false).register cmd.op ctx b (b + c.dstSpan) (c.flag 1) true)

/-- A slot that has submitted a command goes on once it is registered or retired. -/
def commandWait (s : State) (ticket : Nat) : Res :=
  match (s.hcl (hclOf s.cur.g)).command ticket with
  | some c => if c.status.isSome then stall s else retire s
  | none => retire s

/-- Issue of a copy-engine command: the pair's address, the release, the 64 bytes, room, then `accept`. -/
def commandIssue (i : Instr) (d a : SReg) (s : State) (accept : List Byte → State → State) : Res :=
  guarded i s fun s =>
    match s.sl.wait with
    | .command t => commandWait s t
    | _ =>
      let va := (s.me.rs64 a.toNat).toNat
      if s.me.pendingS s.cur.slotB [d.toNat, a.toNat, a.toNat + 1] then stall s
      else if va % 64 ≠ 0 then trapAt i causeAlign 0 0 s
      else
        afterRelease s fun s =>
          match s.readRecord va 64 with
          | .wait s => .next s
          | .trap r => raiseAt i r s
          | .bytes bs s =>
            let h := s.hcl (hclOf s.cur.g)
            if !h.copyRoom || decide (63 ≤ s.me.copies) then stall s
            else
              let s := accept bs s
              let s := s.setMe { s.me.ws d.toNat (BitVec.ofNat 32 h.nextCopy) with copies := s.me.copies + 1 }
              commandWait (s.setSl { s.sl with wait := .command h.nextCopy }) h.nextCopy

/-- CPY (R315). -/
def execCpy (d a : SReg) (s : State) : Res :=
  commandIssue (.cpy d a) d a s fun bs s =>
    s.acceptCopy (hclOf s.cur.g) bs (some s.cur.g) (some (coreOf s.cur.g)) none s.me.ident.ctx s.me.ident.team.ticket

/-! ### CAOUT (R280, R281) -/

/-- The fields of a CAOUT command. -/
structure Caout where
  root : LineName
  rgn : Nat
  dst : Nat
  dstx : Nat
  depth : Nat
  statA : Nat
  zero : Bool
  deriving DecidableEq, Repr

def caoutOf (bs : List Byte) : Caout :=
  { root := BitVec.ofNat 128 (fieldAt bs 0 16), rgn := fieldAt bs 16 8, dst := fieldAt bs 24 8, dstx := fieldAt bs 32 8,
    depth := fieldAt bs 40 1, statA := fieldAt bs 48 8,
    zero := decide (fieldAt bs 41 7 = 0) && decide (fieldAt bs 56 8 = 0) && decide (fieldAt bs 40 1 ≤ 7) }

/-- Bytes of the content. -/
def Caout.bytes (c : Caout) : Nat := 16 ^ c.depth * 256

/-- The destination, where the space of virtual addresses holds it. -/
def Caout.writes (c : Caout) : List (Nat × Nat) := if 2 ^ 57 < c.dst + c.bytes then [] else [(c.dst, c.bytes)]

/-- The status that steps 1 and 2 of R281 give, if the command ends there: its check, or a root that no region of the context
knows. -/
def State.caoutCheck (s : State) (ctx : Nat) (c : Caout) : Option Nat :=
  let known (e : DirEntry) : Bool := s.dir.ownedBy ctx e
  if !c.zero || (s.regionOf ctx c.rgn 1).isNone || decide (c.dst % 256 ≠ 0) then some 1
  else if c.dstx < c.bytes then some 4
  else if c.root ≠ 0 ∧ ((s.dir.known c.root).filter known).isNone = true then some 2
  else none

/-- CAOUT is accepted: a command that ends with a status before its walk takes no lock; the others pin their root, as RCADJ
does, and lock their destination. -/
def State.acceptCaout (s : State) (hcl : Nat) (bs : List Byte) (g core ctx launch : Nat) : State :=
  let s := s.reclaimed
  let h := s.hcl hcl
  let c := caoutOf bs
  let status := s.caoutCheck ctx c
  let pin := status.isNone && c.root != 0
  let cmd : CopyCmd :=
    { ticket := h.nextCopy, op := h.lockOrder, kind := .caout, bytes := bs, g := some g, core := some core, node := none,
      ctx := ctx, launch := launch, started := status.isSome, early := none, pinned := pin, status := status }
  let h := { h with copyTicket := h.nextCopy, copyQueue := h.copyQueue ++ [cmd] }
  let s := if pin then { s with dir := s.dir.incr c.root } else s
  s.setHcl hcl (if status.isSome then h else h.register cmd.op ctx c.dst (c.dst + c.bytes) false true)

/-- CAOUT (R280). -/
def execCaout (d a : SReg) (s : State) : Res :=
  commandIssue (.caout d a) d a s fun bs s =>
    s.acceptCaout (hclOf s.cur.g) bs s.cur.g (coreOf s.cur.g) s.me.ident.ctx s.me.ident.team.ticket

/-- What a walk of a tree finds: the bytes of its leaves in order, a line of the wrong kind, or one that fails its re-hash
(the entry is named). -/
inductive TreeWalk where
  | bytes (bs : List Byte)
  | badTree
  | corrupt (e : DirEntry)
  deriving DecidableEq, Repr

def TreeWalk.andThen : TreeWalk → (Unit → TreeWalk) → TreeWalk
  | .bytes a, k => (match k () with
    | .bytes b => .bytes (a ++ b)
    | r => r)
  | r, _ => r

/-- Walk the children of a node in slot order. -/
def walkChildren (walk : LineName → TreeWalk) : List LineName → TreeWalk
  | [] => .bytes []
  | n :: rest => (walk n).andThen (fun _ => walkChildren walk rest)

/-- Walk a tree of region `k` from a name at a level, depth first; a null name stands for zeros. A child that the
directory does not know is a line of the wrong kind. -/
def State.walkTree (s : State) (k : Nat) : Nat → LineName → TreeWalk
  | level, n =>
    if n = 0 then .bytes (List.replicate (16 ^ level * 256) 0)
    else
      match s.dir.knownIn k n with
      | none => .badTree
      | some e =>
        if s.lineCorrupt e then .corrupt e
        else if e.node != decide (0 < level) then .badTree
        else
          match level with
          | 0 => .bytes (s.lineBytes e.slot)
          | l + 1 => walkChildren (s.walkTree k l) (childNames (s.lineBytes e.slot))

/-- The entries of a tree's lines, which a walk reads. -/
def State.treeLines (s : State) (k : Nat) : Nat → LineName → List DirEntry
  | level, n =>
    match s.dir.knownIn k n with
    | none => []
    | some e =>
      match level with
      | 0 => [e]
      | l + 1 => e :: (childNames (s.lineBytes e.slot)).flatMap (s.treeLines k l)

/-- One who asks for a command of the copy engine. -/
def CopyCmd.asker (c : CopyCmd) (hcl : Nat) (s : State) : Asker :=
  { s.engineAsker (.copy hcl c.ticket) hcl c.ctx c.g with ticket := c.launch }

/-- The walk of a command's tree, in the region of its root. -/
def State.caoutWalk (s : State) (c : CopyCmd) : TreeWalk :=
  let q := caoutOf c.bytes
  s.walkTree (((s.dir.known q.root).map (·.region)).getD 0) q.depth q.root

/-- The lines that it reads are accesses of their sectors; they wait for a region that changes its mapping (R231). -/
def State.caoutLines (s : State) (c : CopyCmd) : List DirEntry :=
  let q := caoutOf c.bytes
  s.treeLines (((s.dir.known q.root).map (·.region)).getD 0) q.depth q.root

/-- The result of a CAOUT's data step is remembered. -/
def State.caoutOver (s : State) (hcl : Nat) (c : CopyCmd) (status : Nat) : State :=
  s.setHcl hcl ((s.hcl hcl).setCommand { c with early := some status })

/-- CAOUT_WALK (R281): the walk of a started command, with its root pinned. -/
def execCaoutWalk (hcl ticket : Nat) (s : State) : Res :=
  match (s.hcl hcl).command ticket with
  | none => stall s
  | some c =>
    let q := caoutOf c.bytes
    let who := c.asker hcl s
    if c.kind ≠ .caout ∨ c.started = false ∨ c.status.isSome ∨ c.early.isSome then stall s
    else
      let bad (status : Nat) (s : State) : Res :=
        .next (((s.undefine who 0 s.free q.writes).useFree).caoutOver hcl c status)
      let lines := s.caoutLines c
      if lines.any (fun e => s.settling (s.dir.slotAddr e.slot)) then stall s
      else
        let t := lines.foldl (fun s e => s.readLine e.slot) s
        match s.caoutWalk c with
        | .badTree => bad 3 t
        | .corrupt e => bad 5 (t.lineError c.ctx e)
        | .bytes bs =>
          match t.engineRange who q.dst q.bytes .store with
          | (s, .wait) => .next s
          | (s, .fail) => bad 6 s
          | (s, .at_ ps) => .next ((s.storeBytes ((pieceLocs ps).zip bs) c.ctx 0 0).caoutOver hcl c 0)

/-! ### Start and retirement (R312, R317) -/

/-- A started command that still works. -/
def CopyCmd.working (c : CopyCmd) : Bool := c.started && c.status.isNone

/-- The L1 lines of a core that hold bytes of these pieces are invalidated (R262). -/
def State.dropLines (s : State) (core : Option Nat) (ps : List (Loc × Nat)) : State :=
  match core with
  | none => s
  | some k =>
    let c := s.core k
    let meets (x : L1Line) : Bool := ps.any (fun p => match p.1 with
      | .dev a => decide (a < 128 * x.line + 128) && decide (128 * x.line < a + p.2)
      | _ => false)
    s.setCore k { c with l1 := c.l1.filter (fun x => !meets x) }

/-- Steps 1 and 2 of R317 with a status: the issuing core loses its copies of the destination, the locks are released. -/
def State.copyOver (s : State) (hcl : Nat) (c : CopyCmd) (dst : List (Nat × Nat)) (status : Nat) : State :=
  let gone (s : State) (w : Nat × Nat) : State :=
    match s.quietPlace (c.asker hcl s) w.1 with
    | (s, some l) => s.dropLines c.core [(l, w.2)]
    | (s, none) => s
  let s := (dst.flatMap (fun w => if isScr w.1 then [] else pagePieces w.1 w.2)).foldl gone s
  s.setHcl hcl (((s.hcl hcl).release c.op).setCommand { c with status := some status })

/-- A CAOUT starts: some of the bytes that it is to write, which the free choice names, may be written at once (R263). -/
def State.startCaout (s : State) (hcl : Nat) (c : CopyCmd) : State :=
  let q := caoutOf c.bytes
  let use := s.free
  let s := s.useFree.setHcl hcl ((s.hcl hcl).setCommand { c with started := true })
  match (s.caoutLines c).any (fun e => s.settling (s.dir.slotAddr e.slot)), s.caoutWalk c with
  | false, .bytes bs =>
    match s.engineRange (c.asker hcl s) q.dst q.bytes .store with
    | (s, .at_ ps) =>
      let ws := (((pieceLocs ps).zip bs).zip (List.range bs.length)).filter (fun w => Config.freeChoice use w.2)
      s.storeBytes (ws.map (·.1)) c.ctx 0 0
    | (s, _) => s
  | _, _ => s

/-- A CPY starts: some of its bytes, which the free choice names, may be written at once (R263). -/
def State.startCpy (s : State) (hcl : Nat) (c : CopyCmd) : State :=
  let put (s : State) (c : CopyCmd) : State := s.setHcl hcl ((s.hcl hcl).setCommand c)
  let use := s.free
  let s := s.useFree
  let who := c.asker hcl s
  match s.moveCopy who (cpyOf c.bytes) use (some use) false with
  | .done s => put s { c with started := true, early := some use }
  | .wait s => put s { c with started := true }
  | .fail s =>
    let q := cpyOf c.bytes
    ((s.undefine who q.stream use (q.writes hcl)).copyOver hcl { c with started := true } (q.writes hcl) 6)

/-- CPY_START: the first command that has not started and that no older lock holds back starts, with fewer than 8
running. -/
def execCpyStart (hcl ticket : Nat) (s : State) : Res :=
  let h := s.hcl hcl
  match h.copyQueue.find? (fun c => !c.started && !h.blocked c.op) with
  | none => stall s
  | some c =>
    if c.ticket ≠ ticket ∨ 8 ≤ (h.copyQueue.filter CopyCmd.working).length then stall s
    else
      match c.kind with
      | .cpy => .next (s.startCpy hcl c)
      | .caout => .next (s.startCaout hcl c)

/-- The node of a graph that submitted a command, or another engine's work, has ended with a status (R318). -/
def State.nodeOver (s : State) (die ticket node status : Nat) : State :=
  let one (x : GraphNode) : GraphNode := { x with stage := .ended, status := status }
  let d := s.die die
  s.setDie die { d with graphs := d.graphs.map (fun x =>
    if x.ticket = ticket then { x with nodes := x.nodes.modify node one } else x) }

/-- The status address of a command. -/
def CopyCmd.statA (c : CopyCmd) : Nat := fieldAt c.bytes 48 8

/-- The copy count of a group falls. -/
def State.copyDone (s : State) (g : Option Nat) : State :=
  match g with
  | some g => s.setGroup g { s.group g with copies := (s.group g).copies - 1 }
  | none => s

/-- Steps 3 and 4 of R317: the status word, then the count of the group or the node of the graph. -/
def State.copyFinish (s : State) (hcl : Nat) (c : CopyCmd) (status : Nat) : State :=
  let leave (s : State) : State :=
    let h := s.hcl hcl
    let s := (s.setHcl hcl { h with copyQueue := h.copyQueue.filter (fun x => x.ticket != c.ticket) }).unwait
      (.copy hcl c.ticket)
    match c.node with
    | some n => s.nodeOver n.1 n.2.1 n.2.2 status
    | none => s.copyDone c.g
  if c.statA = 0 ∨ c.statA % 8 ≠ 0 then leave s
  else
    match s.engineWrite (c.asker hcl s) c.statA (natBytes 8 (status + c.ticket * 2 ^ 32)) with
    | (s, .wait) => s
    | (s, _) => leave s

/-- A CPY command's remaining bytes are written: its status; none while a page fault waits. -/
def State.runCpy (s : State) (hcl : Nat) (c : CopyCmd) : State × Option Nat :=
  let q := cpyOf c.bytes
  let who := c.asker hcl s
  match s.moveCopy who q (c.early.getD s.free) c.early true with
  | .wait s => (s, none)
  | .done s => (s.useFree, some 0)
  | .fail s => ((s.undefine who q.stream s.free (q.writes hcl)).useFree, some 6)

/-- CPY_RETIRE: a command retires in the order of R317. -/
def execCpyRetire (hcl ticket : Nat) (s : State) : Res :=
  match (s.hcl hcl).command ticket with
  | none => stall s
  | some c =>
    match c.status with
    | some st => .next (s.copyFinish hcl c st)
    | none =>
      if !c.started then stall s
      else
        match c.kind with
        | .cpy =>
          match s.runCpy hcl c with
          | (s, none) => .next s
          | (s, some st) =>
            .next (State.copyFinish (s.copyOver hcl c ((cpyOf c.bytes).writes hcl) st) hcl { c with status := some st } st)
        | .caout =>
          let q := caoutOf c.bytes
          match c.early with
          | none => stall s
          | some st =>
            let s := s.reclaimed
            let s := if c.pinned then { s with dir := s.dir.decr q.root } else s
            .next (State.copyFinish (s.copyOver hcl c q.writes st) hcl { c with status := some st } st)

end Sys2Proof.Machine
end

