-- ==== Sys2Proof/Machine/Invocation.lean ====
section
/-! DEFINITION. Remote invocation (R399 to R408, R410): the handler table, receiving and dispatching records, RINV and RINVW,
the host invocation port, and LAUNCHX. -/

namespace Sys2Proof.Machine

/-! ### Ticket slots (R404 to R406) -/

/-- Every ticket slot of the device: those of its groups, of groups between two phases, and of graph nodes. -/
def State.slots (s : State) : List TicketSlot :=
  s.groups.flatMap (fun e => e.2.tickets)
    ++ (s.sched.clusters.flatMap (fun c => c.teams)).flatMap (fun t => t.records.flatMap (fun r => r.group.tickets))
    ++ s.dies.flatMap (fun e => e.2.graphs.flatMap (fun x => x.nodes.filterMap (fun n => n.slot)))

def State.ticket? (s : State) (t : Word) : Option TicketSlot := s.slots.find? (fun x => x.ticket == t)

/-- Change the slot of a ticket. -/
def Group.onTicket (t : Word) (f : TicketSlot → TicketSlot) (x : Group) : Group :=
  { x with tickets := x.tickets.map (fun y => if y.ticket = t then f y else y) }

/-- Change every group, those between two phases included. -/
def State.mapGroups (s : State) (f : Group → Group) : State :=
  let onTeam (t : Team) : Team := { t with records := t.records.map (fun r => { r with group := f r.group }) }
  { s with
    groups := s.groups.map (fun e => (e.1, f e.2)),
    sched := { s.sched with clusters := s.sched.clusters.map (fun c => { c with teams := c.teams.map onTeam }) } }

/-- A graph node whose invocation has its final answer ends (R318): STATUS is 0 for an accept or a reply of DONE, otherwise
the status of R407. -/
def GraphNode.answered (x : GraphNode) : GraphNode :=
  match x.slot with
  | some y =>
    match y.final with
    | some w => if x.stage = .running then
        { x with stage := .ended, status := if w.toNat % 65536 ≤ 1 then 0 else w.toNat % 65536 } else x
    | none => x
  | none => x

def State.onTicket (s : State) (t : Word) (f : TicketSlot → TicketSlot) : State :=
  let one (y : TicketSlot) : TicketSlot := if y.ticket = t then f y else y
  let node (n : GraphNode) : GraphNode := GraphNode.answered { n with slot := n.slot.map one }
  let s := s.mapGroups (Group.onTicket t f)
  { s with dies := s.dies.map (fun e => (e.1, { e.2 with graphs := e.2.graphs.map (fun x =>
      { x with nodes := x.nodes.map node }) })) }

/-- A slot whose final answer is still to come. -/
def TicketSlot.awaits (x : TicketSlot) : Bool := x.final.isNone

/-- Place a slot; with 64 slots in use the oldest one whose final answer has arrived is reused. -/
def placeSlot (l : List TicketSlot) (x : TicketSlot) : List TicketSlot :=
  if l.length < 64 then l ++ [x]
  else
    match l.findIdx? (fun y => !y.awaits) with
    | some i => l.eraseIdx i ++ [x]
    | none => l ++ [x]

/-- A new slot. -/
def newSlot (ticket : Word) (reply must : Bool) (record : List Byte) (target : Word) (launchx : Nat) (members : List Word) :
    TicketSlot :=
  { ticket := ticket, reply := reply, must := must, record := record, target := target, retries := 0, retryAt := none,
    launchx := launchx, members := members, answers := [], final := none, failed := false }

/-! ### Status words (R407) -/

def invAccepted : Nat := 0x01
def invReserved : Nat := 0x02
def invAborted : Nat := 0x03
def invQfull : Nat := 0x10
def invNohandler : Nat := 0x11
def invBadrec : Nat := 0x12
def invUnreachable : Nat := 0x13
def invStale : Nat := 0x14
def invHandlerTrap : Nat := 0x20
def invHandlerRefused : Nat := 0x21
def invMemberfail : Nat := 0x22
def invNoticket : Nat := 0xFF

/-- Status and detail that a handler's launch status gives. -/
def replyStatus (launch : Nat) : Nat × Nat :=
  if launch = 0 then (0, 0) else if 256 ≤ launch then (invHandlerTrap, launch % 256) else (invHandlerRefused, launch % 256)

def statusWord (st : Nat × Nat) : Word := BitVec.ofNat 32 (st.1 % 65536 + st.2 % 256 * 65536)

/-- A NAK reaches a ticket (R405): a must-deliver record refused with QFULL or UNREACHABLE is sent up to 8 times more, each
after twice the time. -/
def TicketSlot.nak (now code : Nat) (x : TicketSlot) : TicketSlot :=
  if x.must ∧ (code = invQfull ∨ code = invUnreachable) ∧ x.retries < 8 then
    { x with retryAt := some (now + 2 ^ (x.retries + 2) * 2000) }
  else { x with final := some (statusWord (code, 0)), failed := x.must }

/-- An accept, a NAK or a reply reaches a ticket of RINV. -/
def TicketSlot.take (now : Nat) (a : InvAnswer) (x : TicketSlot) : TicketSlot :=
  if x.launchx ≠ 0 ∨ x.final.isSome ∨ x.retryAt.isSome then x
  else
    match a with
    | .accept => if x.reply then x else { x with final := some (statusWord (invAccepted, 0)) }
    | .nak code => x.nak now code
    | .reply st => if x.reply then { x with final := some (statusWord (replyStatus st)) } else x
    | .fromMember _ _ _ => x

/-! ### LAUNCHX: the members' answers (R410) -/

/-- The answer of the lowest rank that did not answer DONE. -/
def lowestTrouble (l : List (Nat × Nat × Nat)) : Option (Nat × Nat × Nat) :=
  (l.filter (fun a => a.2.1 != 0)).foldl (fun best a =>
    match best with
    | some b => if a.1 < b.1 then some a else some b
    | none => some a) none

/-- The final answer once the members have answered. A commit ends at once when a member is expelled. -/
def TicketSlot.verdict (x : TicketSlot) : Option (Nat × Nat) :=
  let all := decide (x.members.length ≤ x.answers.length)
  match x.launchx with
  | 1 => if all then some (((x.answers.find? (fun a => a.2.1 != invReserved)).map (fun a => (a.2.1, 0))).getD (invReserved, 0))
         else none
  | 2 => if x.answers.any (fun a => a.2.1 == invMemberfail) then some (invMemberfail, 0)
         else if all then some (((lowestTrouble x.answers).map (·.2)).getD (0, 0)) else none
  | 3 => if all then some (invAborted, 0) else none
  | _ => none

/-- The reservation of a ticket after its final answer: held, or gone. -/
def Group.reserveOver (t : Word) (ok : Bool) (x : Group) : Group :=
  { x with reservations := if ok then x.reservations.map (fun r => if r.ticket = t then { r with held := true } else r)
                           else x.reservations.filter (fun r => r.ticket != t) }

/-- A member's answer reaches a ticket of LAUNCHX. When a reserve fails, every hold is dropped. -/
def State.memberAnswer (s : State) (t : Word) (rank status detail : Nat) : State :=
  let add (x : TicketSlot) : TicketSlot :=
    if x.launchx = 0 ∨ x.final.isSome ∨ x.answers.any (fun a => a.1 == rank) then x
    else
      let x := { x with answers := x.answers ++ [(rank, status, detail)] }
      { x with final := x.verdict.map statusWord }
  match s.ticket? t with
  | none => s
  | some x =>
    let y := add x
    let s := s.onTicket t add
    match y.final with
    | some w =>
      if x.final.isSome ∨ x.launchx ≠ 1 then s
      else
        let ok := w == statusWord (invReserved, 0)
        let mine := (distinct (s.groups.flatMap (fun e => e.2.reservations)
          ++ (s.sched.clusters.flatMap (fun c => c.teams)).flatMap (fun m => m.records.flatMap (fun r => r.group.reservations)))).filter
            (fun r => r.ticket == t)
        (if ok then s else mine.foldl State.dropReservation s).mapGroups (Group.reserveOver t ok)
    | none => s

/-- An answer reaches a ticket of this device; one whose ticket is unknown is discarded. -/
def State.answerTicket (s : State) (t : Word) (a : InvAnswer) : State :=
  match a with
  | .fromMember rank status detail => s.memberAnswer t rank status detail
  | _ => s.onTicket t (TicketSlot.take s.ck a)

/-- Answer a sender: a group of this device at once, another device by a message. -/
def State.answerTo (s : State) (dst ticket : Word) (a : InvAnswer) : State :=
  if dst = s.member.devId then s.answerTicket ticket a else s.sendTo dst 0 (.answer dst ticket a)

/-- INVOCATION_ANSWER (R405, R410). -/
def execInvocationAnswer (ticket : Word) (answer : InvAnswer) (s : State) : Res := .next (s.answerTicket ticket answer)

/-! ### The handler table and the queues (R400, R402) -/

/-- The bytes of a handler's entry. -/
def State.handler (s : State) (h : Nat) : List Byte :=
  (List.range 32).map (fun o => Sparse.get 0 s.inv.handlers (32 * h + o))

def Inv.queue (v : Inv) : Nat → List InvItem
  | 0 => v.queue0
  | 1 => v.queue1
  | 2 => v.queue2
  | _ => v.queue3

/-- Why a record is refused: the first reason that applies. An expelled device refuses other devices' records (R419). -/
def State.nakFor (s : State) (src : Word) (r : List Byte) : Option Nat :=
  let flags := (fieldAt (s.handler (recHidx r)) 17 1)
  if src ≠ hostSrc ∧ s.member.state = 3 then some invStale
  else if recBad r then some invBadrec
  else if flags / 8 % 2 = 0 ∨ flags / (if src = hostSrc then 32 else 16) % 2 = 0 ∨ !s.inv.journalOn then some invNohandler
  else if 1024 ≤ (s.inv.queue (recPrio r)).length then some invQfull
  else none

/-- Enqueue a record at its priority. -/
def State.enqueueInv (s : State) (i : InvItem) : State :=
  { s with inv := s.inv.onQueue (recPrio i.record) (fun q => q ++ [i]) }

/-- Accept a record: it is enqueued, then journalled. -/
def State.acceptInv (s : State) (src : Word) (r : List Byte) (member : Option Nat) : State :=
  (s.enqueueInv { src := src, record := r, held := false, seq := s.inv.jnext, bypassed := 0, member := member }).journalAppend r

/-- Receive a record (R402): the answer. -/
def State.receiveInv (s : State) (src : Word) (record : List Byte) : State × InvAnswer :=
  let r := recStamp src (recTicket record) record
  match s.nakFor src r with
  | some code => (s, .nak code)
  | none => (s.acceptInv src r none, .accept)

/-! ### Sending (R404, R405) -/

/-- Send the record of a slot toward its target: directly on this device; the fabric engine itself answers for a target that
is no member. -/
def State.sendInvocation (s : State) (x : TicketSlot) : State :=
  if x.target = s.member.devId then
    let r := s.receiveInv s.member.devId x.record
    r.1.answerTicket x.ticket r.2
  else if !s.member.isMember x.target then s.answerTicket x.ticket (.nak invUnreachable)
  else s.sendTo x.target (recPrio x.record) (.invocation x.target x.record)

/-- The next ticket is taken. -/
def State.takeTicket (s : State) : State := { s with inv := { s.inv with nextTicket := nextTicket s.inv.nextTicket } }

/-- A record as RINV builds it. -/
def rinvRecord (x : Group) (src : Word) (ticket hidx f n p : Nat) (reply must : Bool) : List Byte :=
  natBytes 4 src.toNat ++ natBytes 4 ticket ++ natBytes 2 hidx
    ++ natBytes 1 (p + (if reply then 4 else 0) + (if must then 8 else 0)) ++ natBytes 1 n ++ natBytes 4 0
    ++ (List.range 12).flatMap (fun i => natBytes 4 (if i < n then (x.rs (f + i)).toNat else 0))

/-- RINV (R404): the ticket is written before the arguments are read. -/
def execRinv (d a f : SReg) (n : BitVec 4) (p : BitVec 2) (r m : Bool) (s : State) : Res :=
  let i : Instr := .rinv d a f n p r m
  guarded i s fun s =>
    let t := s.me.rs a.toNat
    let h := (s.me.rs (a.toNat + 1)).toNat
    if s.me.pendingS s.cur.slotB ([d.toNat, a.toNat, a.toNat + 1] ++ span f.toNat n.toNat) then stall s
    else if !deviceIdOk t || decide (4096 ≤ h) then illegal i s
    else
      afterRelease s fun s =>
        if 64 ≤ (s.me.tickets.filter TicketSlot.awaits).length then stall s
        else
          let k := s.inv.nextTicket
          let y := s.me.ws d.toNat (BitVec.ofNat 32 k)
          let rec_ := rinvRecord y s.member.devId k h f.toNat n.toNat p.toNat r m
          let x := newSlot (BitVec.ofNat 32 k) r m rec_ t 0 []
          retire ((s.takeTicket.setMe { y with tickets := placeSlot y.tickets x }).sendInvocation x)

/-- RINV_RETRY_TIMER (R405): a retry that has fallen due is sent; the ticket is one of group `g`, or of a group between two
phases or of a graph node. -/
def execRinvRetryTimer (g : Nat) (ticket : Word) (s : State) : Res :=
  match ((s.group g).tickets.find? (fun x => x.ticket == ticket)).or (s.ticket? ticket) with
  | none => stall s
  | some x =>
    match x.retryAt with
    | none => stall s
    | some t =>
      if s.ck < t then stall s
      else
        let again (x : TicketSlot) : TicketSlot := { x with retries := x.retries + 1, retryAt := none }
        .next ((s.onTicket ticket again).sendInvocation x)

/-- RINVW (R407). -/
def execRinvw (d a : SReg) (s : State) : Res :=
  let t := s.me.rs a.toNat
  let put (w : Word) (s : State) : State := s.setMe (s.me.ws d.toNat w)
  let free (s : State) : State := s.setMe { s.me with tickets := s.me.tickets.filter (fun x => x.ticket != t) }
  if s.me.pendingS s.cur.slotB [d.toNat, a.toNat] then stall s
  else
    match s.me.tickets.find? (fun x => x.ticket == t) with
    | none => retire (put (BitVec.ofNat 32 invNoticket) s)
    | some x =>
      match x.final with
      | none => stall s
      | some w =>
        if x.must && x.failed then trapAt (.rinvw d a) causeInvoke 0 (w.toNat % 65536) (free s)
        else retire ((put w (free s)).acquired s.cur.g 4)

/-! ### Receiving and dispatching (R402, R403, R408) -/

/-- The host's slot is answered: BUSY clears (R408, R437). -/
def State.answerSlot (s : State) (slot code : Nat) : State :=
  State.send { s with inv := { s.inv with
      submitted := s.inv.submitted.filter (fun e => e.1 != slot),
      slotStat := Sparse.put s.inv.slotStat slot (BitVec.ofNat 32 code) } } (.msix 6)

/-- INVOCATION_RECEIVE: a record of the host is one of those submitted by DOORBELL. -/
def execInvocationReceive (src : Word) (record : List Byte) (s : State) : Res :=
  if src = hostSrc then
    match s.inv.submitted.find? (fun e => e.2 == record) with
    | none => stall s
    | some e =>
      match s.receiveInv src record with
      | (s, .nak code) => .next (s.answerSlot e.1 code)
      | (s, _) => .next (s.answerSlot e.1 0)
  else
    let r := s.receiveInv src record
    .next (r.1.answerTo src (BitVec.ofNat 32 (recTicket record)) r.2)

/-- DOORBELL (R408): ignored while the slot is BUSY, and before READY (R441). -/
def execDoorbell (value : Word) (s : State) : Res :=
  let k := value.toNat % 256
  if s.boot.stage ≠ 6 ∨ (Sparse.get 0 s.inv.slotStat k).getLsbD 31 then stall s
  else
    let r := (List.range 64).map (fun o => Sparse.get 0 s.inv.slots (64 * k + o))
    .next { s with inv := { s.inv with
      doorbell := BitVec.ofNat 32 k, slotStat := Sparse.put s.inv.slotStat k 0x80000000,
      submitted := s.inv.submitted ++ [(k, r)] } }

/-- The record that a queue's head is: entries held by reservations are no records yet. -/
def Inv.head (v : Inv) (p : Nat) : Option InvItem := (v.queue p).find? (fun i => !i.held)

/-- The queue to serve: one whose head has been bypassed 16 times, else any; the higher priority first. -/
def Inv.serve (v : Inv) : Option Nat :=
  let starved (p : Nat) : Bool := match v.head p with
    | some i => decide (16 ≤ i.bypassed)
    | none => false
  ([3, 2, 1, 0].find? starved).or ([3, 2, 1, 0].find? (fun p => (v.head p).isSome))

/-- Count one bypass of a queue's head. -/
def bumpHead : List InvItem → List InvItem
  | [] => []
  | i :: rest => if i.held then i :: bumpHead rest else { i with bypassed := i.bypassed + 1 } :: rest

/-- Remove a queue's head. -/
def dropHead : List InvItem → List InvItem
  | [] => []
  | i :: rest => if i.held then i :: dropHead rest else rest

/-- The launch record of R401, formed from a handler's entry. -/
def handlerLaunch (e : List Byte) (prio argb : Nat) : List Byte :=
  e.take 17 ++ natBytes 1 (4 + prio) ++ natBytes 2 (fieldAt e 17 1 % 8) ++ (e.drop 20).take 7 ++ natBytes 1 6
    ++ natBytes 4 0xFFFFFFFF ++ natBytes 32 0 ++ natBytes 8 argb ++ natBytes 8 64 ++ natBytes 48 0

/-- Launch the handler of a queued record (R401); the copy of the record lives until the launch completes. -/
def State.launchHandler (s : State) (i : InvItem) : State :=
  let e := s.handler (recHidx i.record)
  let ctx := fieldAt e 18 2 % 4096
  let t := s.sched.nextTicket
  let s := { s with inv := { s.inv with copies := s.inv.copies ++ [(t, ctx, i.record)] } }
  s.submitLaunch ctx (handlerLaunch e (recPrio i.record) (copyAddress t))
    (.handler i.seq i.src (BitVec.ofNat 32 (recTicket i.record)) (recReply i.record) i.member) true

/-- INVOCATION_DISPATCH (R403). -/
def execInvocationDispatch (s : State) : Res :=
  match s.inv.serve with
  | none => stall s
  | some p =>
    match s.inv.head p with
    | none => stall s
    | some i =>
      let v := ([0, 1, 2, 3].filter (· != p)).foldl (fun v q => v.onQueue q bumpHead) s.inv
      .next (State.launchHandler { s with inv := v.onQueue p dropHead } i)

/-- The launch of a handler has completed (R402, R409): the journal entry, the reply, and the end of the record's copy. -/
def State.handlerOver (s : State) (l : Launch) (status : Nat) : State :=
  match l.launcher with
  | .handler seq src ticket reply member =>
    let detail := if status = 0 then 0 else if 256 ≤ status then status % 256 else 0xFF
    let s := s.journalSet seq (if status = 0 then 3 else 4) detail (if l.begun then l.ticket else 0)
    let s := { s with inv := { s.inv with copies := s.inv.copies.filter (fun c => c.1 != l.ticket) } }
    match member with
    | some rank => let st := replyStatus status
                   s.answerTo src ticket (.fromMember rank st.1 st.2)
    | none => if reply && decide (src ≠ hostSrc) then s.answerTo src ticket (.reply status) else s
  | _ => s

/-! ### LAUNCHX (R410) -/

/-- The array of a rank table lies in a poisoned sector (R366). -/
def State.tablePoisoned (s : State) (t : RankTable) : Bool :=
  (List.range ((t.base % 1024 + 4 * (t.p + t.nlist) + 1023) / 1024)).any (fun i => s.poisoned (t.base + 1024 * i))

/-- The active rank table of a communicator, which the part reads for a command of the group, does. -/
def State.tableLost (s : State) (c : Nat) : Bool := (((s.comm c).active).map s.tablePoisoned).getD false

/-- Its reader ends with UNCORR, unit 13. -/
def tableUncorr : Raised := { cause := causeUncorr, mask := 0, reason := 13, addr := 0 }

/-- The communicator that a LAUNCHX record names. -/
def recComm (r : List Byte) : Nat := fieldAt r 0 4

/-- A member receives a request: its rank, and its answer where it has one now. -/
def State.launchxReceive (s : State) (q : LaunchxReq) : State × Nat × Option Nat :=
  let rank := ((s.comm (recComm q.record % 256)).active.map (·.rank)).getD 0
  let t := recTicket q.record
  match q.op with
  | 0 =>
    let r := recStamp q.src t q.record
    if q.gen ≠ s.member.gen then (s, rank, some invStale)
    else
      match s.nakFor q.src r with
      | some code => (s, rank, some code)
      | none =>
        (s.enqueueInv { src := q.src, record := r, held := true, seq := 0, bypassed := 0, member := some rank }, rank,
          some invReserved)
  | 1 =>
    match [0, 1, 2, 3].findSome? (fun p => (s.inv.queue p).find? (InvItem.heldBy q.src t)) with
    | none => (s, rank, none)
    | some i => ((s.dropHold q.src t).acceptInv q.src (recStamp q.src q.ticket.toNat i.record) (some rank), rank, none)
  | _ => (s.dropHold q.src t, rank, some invAborted)

/-- LAUNCHX_MEMBER_REQUEST: the answer goes to the requesting device. -/
def execLaunchxMemberRequest (req : LaunchxReq) (s : State) : Res :=
  match s.launchxReceive req with
  | (s, rank, some status) => .next (s.answerTo req.src req.ticket (.fromMember rank status 0))
  | (s, _, none) => .next s

/-- What the fabric engine answers for a member that is no member of the current generation: a reserve is refused with
UNREACHABLE (R405), a commit fails (R410). -/
def goneStatus (kind : Nat) : Nat := if kind = 1 then invUnreachable else if kind = 2 then invMemberfail else invAborted

/-- Send a request to every member; this device's share is done at once. -/
def State.launchxSend (s : State) (op : Nat) (ticket : Word) (record : List Byte) (members : List Word) : State :=
  (members.zip (List.range members.length)).foldl (fun s m =>
    if m.1 = s.member.devId then
      match s.launchxReceive (s.launchxReq op ticket record) with
      | (s, _, some status) => s.memberAnswer ticket m.2 status 0
      | (s, _, none) => s
    else if !s.member.isMember m.1 then s.memberAnswer ticket m.2 (goneStatus (op + 1)) 0
    else s.sendTo m.1 0 (.launchx m.1 (s.launchxReq op ticket record))) s

/-- What every LAUNCHX does first: the address, its record, and a ticket slot. -/
def launchxIssue (i : Instr) (d a : SReg) (s : State) (k : Nat → List Byte → State → Res) : Res :=
  guarded i s fun s =>
    let va := (s.me.rs64 a.toNat).toNat
    if s.me.pendingS s.cur.slotB [d.toNat, a.toNat, a.toNat + 1] then stall s
    else if va % 64 ≠ 0 then trapAt i causeAlign 0 0 s
    else
      match s.readRecord va 64 with
      | .wait s => .next s
      | .trap r => raiseAt i r s
      | .bytes bs s => k va bs s

/-- The ticket of a LAUNCHX is given and its requests are sent. -/
def launchxGo (d : SReg) (op kind : Nat) (record : List Byte) (members : List Word) (f : Group → Group) (s : State) : Res :=
  if 64 ≤ (s.me.tickets.filter TicketSlot.awaits).length then stall s
  else
    let t := BitVec.ofNat 32 s.inv.nextTicket
    let x := newSlot t true false record 0 kind members
    let y := f (s.me.ws d.toNat t)
    retire ((s.takeTicket.setMe { y with tickets := placeSlot y.tickets x }).launchxSend op t record members)

/-- LAUNCHX.rsv. -/
def execLaunchxRsv (d a : SReg) (s : State) : Res :=
  let i : Instr := .launchxRsv d a
  launchxIssue i d a s fun va bs s =>
    let c := recComm bs
    let x := s.comm c
    if 256 ≤ c ∨ !x.on ∨ x.ctx ≠ s.me.ident.ctx then illegal i s
    else if x.stale then trapAt i causeMember 0 0 s
    else
      afterRelease s fun s =>
        if s.tableLost c then raiseAt i tableUncorr s else
        let t := s.inv.nextTicket
        let r := natBytes 4 c ++ natBytes 4 t ++ bs.drop 8
        let members := s.rankIds c
        let keep : Reservation := { addr := va, ticket := BitVec.ofNat 32 t, record := r, members := members, held := false }
        launchxGo d 0 1 r members (fun x => { x with reservations := x.reservations ++ [keep] }) s

/-- LAUNCHX.cmt and .abt: the reservation made from this address is used up. -/
def launchxUse (i : Instr) (d a : SReg) (op kind : Nat) (s : State) : Res :=
  launchxIssue i d a s fun va _ s =>
    match s.me.reservations.find? (fun r => r.addr == va && r.held) with
    | none => illegal i s
    | some r =>
      launchxGo d op kind r.record r.members
        (fun x => { x with reservations := x.reservations.filter (fun y => y.ticket != r.ticket) }) s

def execLaunchxCmt (d a : SReg) (s : State) : Res := launchxUse (.launchxCmt d a) d a 1 2 s
def execLaunchxAbt (d a : SReg) (s : State) : Res := launchxUse (.launchxAbt d a) d a 2 3 s

end Sys2Proof.Machine
end

