-- ==== Sys2Proof/Machine/Graph.lean ====
section
/-! DEFINITION. Dependence graphs (R318 to R320), and what the completion of a launch does (R194). -/

namespace Sys2Proof.Machine

/-! ### Performing an engine's effects at a scope (R249, R255) -/

/-- Every dirty sector of a context is written back: what a release at system scope of its grids needs. -/
def State.cleanContext (s : State) (ctx : Nat) : State :=
  (s.llc.sectors.filter (fun e => decide (e.2.dirty ≠ 0) && e.2.owner == ctx)).foldl (fun s e => s.cleanSector e.1) s

/-- The sectors that pieces touch. -/
def pieceSectors (ps : List (Loc × Nat)) : List Nat :=
  distinct (ps.flatMap (fun p => match p.1 with
    | .dev a => (span a p.2).map (· / 1024)
    | _ => []))

/-- A write of an engine, performed at a scope. -/
def State.engineWriteAt (s : State) (q : Asker) (scope va : Nat) (bs : List Byte) : State × EngineWrite :=
  match s.engineRange q va bs.length .store with
  | (s, .wait) => (s, .wait)
  | (s, .fail) => (s, .dropped)
  | (s, .at_ ps) =>
    let s := storePieces q.ctx 0 ps bs s
    (if 5 ≤ scope then (pieceSectors ps).foldl State.cleanSector s else s, .done)

/-- Read bytes for an engine; none for a fault that no answer clears, or poison. -/
def State.engineRead (s : State) (q : Asker) (va n : Nat) : State × Option (Option (List Byte)) :=
  match s.engineRange q va n .load with
  | (s, .wait) => (s, none)
  | (s, .fail) => (s, some none)
  | (s, .at_ ps) =>
    if s.piecePoisoned ps then (s.engineUncorr q va, some none)
    else
      let t := s.readPieces ps
      (t, some (some (t.pieceBytes ps)))

/-! ### The walker's graphs -/

def State.graph? (s : State) (die ticket : Nat) : Option Graph := (s.die die).graphs.find? (fun x => x.ticket == ticket)

def State.onGraph (s : State) (die ticket : Nat) (f : Graph → Graph) : State :=
  let d := s.die die
  s.setDie die { d with graphs := d.graphs.map (fun x => if x.ticket = ticket then f x else x) }

def State.onNode (s : State) (die ticket i : Nat) (f : GraphNode → GraphNode) : State :=
  s.onGraph die ticket (fun x => { x with nodes := x.nodes.modify i f })

/-- The node's work is over. -/
def GraphNode.endWith (status : Nat) (x : GraphNode) : GraphNode := { x with stage := .ended, status := status }

/-- The node is counted as running. -/
def GraphNode.busy (x : GraphNode) : Bool :=
  match x.stage with
  | .starting | .running | .ended => true
  | .waiting | .done => false

def GraphNode.isFailed (x : GraphNode) : Bool :=
  match x.stage with
  | .ended | .done => decide (x.status ≠ 0)
  | _ => false

/-- The lowest index of a failed node. -/
def Graph.firstFailed (x : Graph) : Option Nat := x.nodes.findIdx? GraphNode.isFailed

/-- Nothing more of the graph starts. -/
def Graph.stopped (x : Graph) : Bool := x.bad || x.firstFailed.isSome

/-- No node runs and none can start. -/
def Graph.isOver (x : Graph) : Bool :=
  x.loaded && !x.nodes.any GraphNode.busy && (x.stopped || x.nodes.all (fun n => n.stage == .done))

/-- The walker of a die, reading and writing a graph's table. -/
def Graph.asker (x : Graph) (die : Nat) (s : State) : Asker := s.engineAsker (.graph die x.ticket) x.hcl x.ctx x.g

/-- The walker, reading what node `i` names. -/
def Graph.nodeAsker (x : Graph) (die i : Nat) (s : State) : Asker := s.engineAsker (.node die x.ticket i) x.hcl x.ctx x.g

/-- A node as its 64 bytes hold it. -/
def nodeOf (bs : List Byte) : GraphNode :=
  { kind := fieldAt bs 0 1, scope := fieldAt bs 1 1, pred := fieldAt bs 4 4,
    succ := (List.range 6).map (fun k => fieldAt bs (8 + 2 * k) 2), arg0 := fieldAt bs 24 8, arg1 := fieldAt bs 32 8,
    arg2 := fieldAt bs 40 8, stage := .waiting, status := 0, writes := 0, slot := none }

/-- A node that R319 accepts in a table of `n` nodes: a copy node names an engine that the part has. -/
def nodeOk (n : Nat) (bs : List Byte) : Bool :=
  let x := nodeOf bs
  decide (1 ≤ x.kind) && decide (x.kind ≤ 5) && decide (if x.kind = 4 then x.scope ≤ 6 else x.scope = 0)
    && decide (fieldAt bs 2 2 = 0) && decide (fieldAt bs 48 16 = 0)
    && x.succ.all (fun k => decide (k = 0xFFFF ∨ k < n))
    && decide (x.kind ≠ 1 ∨ x.arg1 % 16 < 12)

/-! ### Team phase nodes: gates (R318) -/

/-- Phase `p` of a team can no longer be held: it has been queued, or the launch or its cluster is over. -/
def State.phaseLate (s : State) (x : GraphNode) : Bool :=
  let k : TeamKey := { ticket := x.arg0 % 2 ^ 32, cluster := x.arg1 % 2 ^ 32, team := x.arg1 / 2 ^ 32 % 16 }
  let p := x.arg2 % 2 ^ 32
  match s.launch? k.ticket with
  | none => true
  | some l =>
    decide (p = 0) || l.status.isSome
      || (match s.team? k with
          | some t => decide (p < t.phase) || (decide (p = t.phase) && t.stage != .held) || t.stage == .ended
          | none => decide (k.cluster < l.nextCluster) && !s.hcls.any (fun e => e.2.tasks.any (fun w =>
              w.start && w.ticket == k.ticket && w.cluster == k.cluster)))

/-- The gate that a node closes. -/
def GraphNode.gate (x : GraphNode) : Nat × Nat × Nat := (x.arg1 % 2 ^ 32, x.arg1 / 2 ^ 32 % 16, x.arg2 % 2 ^ 32)

/-- Close the gates of a graph's team phase nodes; one that comes too late fails at once with LATE. -/
def closeGates (die ticket : Nat) : List (GraphNode × Nat) → State → State
  | [], s => s
  | (x, i) :: rest, s =>
    closeGates die ticket rest
      (if x.kind ≠ 3 then s
       else if s.phaseLate x then s.onNode die ticket i (GraphNode.endWith 0x0100)
       else s.onLaunch (x.arg0 % 2 ^ 32) (fun l => { l with gates := l.gates ++ [x.gate] }))

/-- Open a gate: once no gate of the phase is closed, a held phase is queued. -/
def State.openGate (s : State) (x : GraphNode) : State :=
  let t := x.arg0 % 2 ^ 32
  let k : TeamKey := { ticket := t, cluster := x.arg1 % 2 ^ 32, team := x.arg1 / 2 ^ 32 % 16 }
  let s := s.onLaunch t (fun l => { l with gates := l.gates.erase x.gate })
  match s.launch? t, s.team? k with
  | some l, some m =>
    if m.stage = .held ∧ m.phase = x.arg2 % 2 ^ 32 ∧ !l.gated k m.phase then
      let s := s.onTeam k (fun m => { m with stage := .queued })
      match s.sched.clusters.find? (fun c => c.ticket == t && c.index == k.cluster) with
      | some c => if c.unplaced then s else s.queueItem c.hcl (phaseItem k l.prio)
      | none => s
    else s
  | _, _ => s

/-! ### Starting a node (R318) -/

/-- Read the record that a node names: it must be aligned. What the node ends with when that fails is its own status. -/
def State.nodeRead (s : State) (die : Nat) (x : Graph) (i va n align bad : Nat) (k : List Byte → State → State) : State :=
  if va % align ≠ 0 then s.onNode die x.ticket i (GraphNode.endWith bad)
  else
    match s.engineRead (x.nodeAsker die i s) va n with
    | (s, none) => s
    | (s, some none) => s.onNode die x.ticket i (GraphNode.endWith bad)
    | (s, some (some bs)) => k bs s

/-- Start the work of a node that is counted as running; it stays so while it waits for a page or for room. -/
def State.tryNode (s : State) (die : Nat) (x : Graph) (i : Nat) (n : GraphNode) : State :=
  let run (s : State) : State := s.onNode die x.ticket i (fun n => { n with stage := .running })
  match n.kind with
  | 1 =>
    let h := n.arg1 / 16 % 4 * 12 + n.arg1 % 16
    if !(s.hcl h).copyRoom then s
    else s.nodeRead die x i n.arg0 64 64 (if n.arg0 % 64 = 0 then 6 else 1) fun bs s =>
      run (s.acceptCopy h bs x.g none (some (die, x.ticket, i)) x.ctx 0)
  | 2 =>
    s.nodeRead die x i n.arg0 128 128 statusBadshape fun bs s =>
      (run s).submitLaunch x.ctx bs (.node die x.ticket i) x.privileged
  | 3 => (run s).openGate n
  | 4 =>
    let s := if 5 ≤ n.scope then s.cleanContext x.ctx else s
    match s.engineWriteAt (x.nodeAsker die i s) n.scope n.arg0 (natBytes 8 n.arg1) with
    | (s, .wait) => s
    | (s, _) => s.onNode die x.ticket i (GraphNode.endWith 0)
  | _ =>
    s.nodeRead die x i n.arg0 64 1 invBadrec fun bs s =>
      let t := s.inv.nextTicket
      let r := recStamp s.member.devId t bs
      let y := newSlot (BitVec.ofNat 32 t) (recReply r) (recMust r) r (BitVec.ofNat 32 n.arg1) 0 []
      (s.takeTicket.onNode die x.ticket i (fun n => { n with stage := .running, slot := some y })).sendInvocation y

/-- Nodes that the walker of a die runs (R319). -/
def State.nodesBusy (s : State) (die : Nat) : Nat :=
  (s.die die).graphs.foldl (fun n x => n + (x.nodes.filter GraphNode.busy).length) 0

/-- Start the ready nodes among these, in order, while fewer than 256 run at the walker. -/
def startReady (die ticket : Nat) : List Nat → State → State
  | [], s => s
  | i :: rest, s =>
    startReady die ticket rest
      (match s.graph? die ticket with
       | none => s
       | some x =>
         match x.nodes[i]? with
         | none => s
         | some n =>
           if n.stage = .waiting ∧ n.pred = 0 ∧ !x.stopped ∧ s.nodesBusy die < 256 then
             let n := { n with stage := .starting }
             (s.onNode die ticket i (fun _ => n)).tryNode die x i n
           else s)

def State.startNodes (s : State) (die ticket : Nat) : State :=
  match s.graph? die ticket with
  | some x => startReady die ticket (List.range x.nodes.length) s
  | none => s

/-- Room has freed at a walker: nodes of its other graphs that are ready start too, graph by graph in the order of their
acceptance. -/
def State.startAll (s : State) (die : Nat) : State :=
  ((s.die die).graphs.map (·.ticket)).foldl (fun s t => s.startNodes die t) s

/-! ### Loading a table (R318, R319) -/

/-- The table is refused, or names no node. -/
def State.refuseGraph (s : State) (die ticket : Nat) (bad : Bool) : State :=
  s.onGraph die ticket (fun x => { x with loaded := true, bad := bad })

/-- Read the header and the nodes, close the gates, and start what is ready. A table that cannot be read is refused. -/
def State.loadGraph (s : State) (die : Nat) (x : Graph) : State :=
  match s.engineRead (x.asker die s) x.table 64 with
  | (s, none) => s
  | (s, some none) => s.refuseGraph die x.ticket true
  | (s, some (some h)) =>
    let statA := fieldAt h 0 8
    let sigA := fieldAt h 8 8
    let scope := fieldAt h 24 1
    let s := s.onGraph die x.ticket (fun x =>
      { x with statA := statA, sigA := sigA, sigV := fieldAt h 16 8, scope := Nat.min 6 scope })
    if x.n = 0 then s.refuseGraph die x.ticket false
    else if 65535 < x.n ∨ statA % 8 ≠ 0 ∨ sigA % 8 ≠ 0 ∨ 6 < scope ∨ fieldAt h 25 39 ≠ 0 then s.refuseGraph die x.ticket true
    else
      match s.engineRead (x.asker die s) (x.table + 64) (64 * x.n) with
      | (s, none) => s
      | (s, some none) => s.refuseGraph die x.ticket true
      | (s, some (some bs)) =>
        let images := (List.range x.n).map (fun i => (bs.drop (64 * i)).take 64)
        if images.all (nodeOk x.n) then
          let nodes := images.map nodeOf
          let s := s.onGraph die x.ticket (fun x => { x with loaded := true, nodes := nodes })
          State.startNodes (closeGates die x.ticket (nodes.zip (List.range x.n)) s) die x.ticket
        else s.refuseGraph die x.ticket true

/-- GRAPH (R319). -/
def execGraph (d a b : SReg) (s : State) : Res :=
  let i : Instr := .graph d a b
  guarded i s fun s =>
    let table := (s.me.rs64 a.toNat).toNat
    let die := dieOfHcl (hclOf s.cur.g)
    if s.me.pendingS s.cur.slotB [d.toNat, a.toNat, a.toNat + 1, b.toNat] then stall s
    else if table % 64 ≠ 0 then trapAt i causeAlign 0 0 s
    else
      afterRelease s fun s =>
        let w := s.die die
        if 16 ≤ w.graphs.length ∨ 63 ≤ s.me.copies then stall s
        else
          let t := nextTicket w.graphTicket
          let x : Graph :=
            { ticket := t, table := table, ctx := s.me.ident.ctx, g := some s.cur.g, hcl := hclOf s.cur.g,
              privileged := s.me.ident.privileged, n := (s.me.rs b.toNat).toNat, loaded := false, statA := 0, sigA := 0,
              sigV := 0, scope := 0, nodes := [], bad := false, step := 0 }
          let s := s.setDie die { graphs := w.graphs ++ [x], graphTicket := t }
          let s := s.setMe { s.me.ws d.toNat (BitVec.ofNat 32 t) with copies := s.me.copies + 1 }
          retire (s.loadGraph die x)

/-! ### The end of a node and of a graph (R320) -/

/-- Decrement a node's count in the walker, writing the new count to memory; false while a page fault waits. -/
def State.decrement (s : State) (die : Nat) (x : Graph) (i : Nat) : State × Bool :=
  match x.nodes[i]? with
  | none => (s, true)
  | some n =>
    match s.engineWrite (x.asker die s) (x.table + 64 + 64 * i + 4) (natBytes 4 (n.pred - 1)) with
    | (s, .wait) => (s, false)
    | (s, _) => (s.onNode die x.ticket i (fun n => { n with pred := n.pred - 1 }), true)

/-- The writes of an ended node, from the one at `k`: STATUS, then the counts of its successors. It is done after the last
one, and what is ready starts. -/
def finishNode (die ticket i : Nat) : Nat → State → State
  | 0, s => s
  | fuel + 1, s =>
    match s.graph? die ticket with
    | none => s
    | some x =>
      match x.nodes[i]? with
      | none => s
      | some n =>
        let next (s : State) : State := finishNode die ticket i fuel (s.onNode die ticket i (fun n => { n with writes := n.writes + 1 }))
        if n.writes = 0 then
          match s.engineWrite (x.nodeAsker die i s) (x.table + 64 + 64 * i + 20) (natBytes 4 n.status) with
          | (s, .wait) => s
          | (s, _) => next s
        else if n.status ≠ 0 ∨ 6 < n.writes then
          ((s.onNode die ticket i (fun n => { n with stage := .done })).startNodes die ticket).startAll die
        else
          let k := n.succ.getD (n.writes - 1) 0xFFFF
          if k = 0xFFFF then next s
          else
            match s.decrement die x k with
            | (s, false) => s
            | (s, true) => next s

/-- The completion of a graph, in the order of R320. -/
def State.finishGraph (s : State) (die : Nat) (x : Graph) : State :=
  let who := x.asker die s
  let word := (if x.bad then 1 else match x.firstFailed with
    | some i => 2 + i * 2 ^ 16
    | none => 0) + x.ticket * 2 ^ 32
  let leave (s : State) : State :=
    let d := s.die die
    ((s.setDie die { d with graphs := d.graphs.filter (fun y => y.ticket != x.ticket) }).copyDone x.g).unwait who.who
  let signal (s : State) : State :=
    if x.sigA = 0 ∨ x.sigA % 8 ≠ 0 then leave s
    else
      match s.engineWriteAt who x.scope x.sigA (natBytes 8 x.sigV) with
      | (s, .wait) => s.onGraph die x.ticket (fun x => { x with step := 1 })
      | (s, _) => leave s
  if x.step = 1 then signal s
  else
    let s := if 5 ≤ x.scope then s.cleanContext x.ctx else s
    if x.statA = 0 ∨ x.statA % 8 ≠ 0 then signal s
    else
      match s.engineWriteAt who x.scope x.statA (natBytes 8 word) with
      | (s, .wait) => s
      | (s, _) => signal s

/-- A complete graph finishes. -/
def State.graphSettle (s : State) (die ticket : Nat) : State :=
  match s.graph? die ticket with
  | some x => if x.isOver then s.finishGraph die x else s
  | none => s

/-- GRAPH_NODE_FINISH: the walker goes on with a node: it loads the table, starts the node's work, or finishes it; and it
completes the graph. -/
def execGraphNodeFinish (die ticket node : Nat) (s : State) : Res :=
  match s.graph? die ticket with
  | none => stall s
  | some x =>
    if !x.loaded then .next (s.loadGraph die x)
    else
      match x.nodes[node]? with
      | none => .next (s.graphSettle die ticket)
      | some n =>
        match n.stage with
        | .starting => .next (s.tryNode die x node n)
        | .ended => .next ((finishNode die ticket node 9 s).graphSettle die ticket)
        | _ => .next (s.graphSettle die ticket)

/-! ### The completion of a launch (R194) -/

/-- The graph in flight that a launch names, by its table's address in the launch's context. -/
def State.graphOf (s : State) (l : Launch) : Option (Nat × Graph) :=
  s.dies.findSome? (fun e => (e.2.graphs.find? (fun x =>
    x.loaded && x.table == l.record.graphT && x.ctx == l.ctx && decide (l.record.node < x.nodes.length))).map (fun x => (e.1, x)))

/-- The distributor, acting for a launch. -/
def Launch.asker (l : Launch) (s : State) : Asker :=
  { s.engineAsker (.launch l.ticket) l.launcher.place.1 l.ctx none with ticket := l.ticket }

/-- Step 4: decrement node NODE of the table at GRAPHT; false while a page fault waits. A count in a poisoned sector is not
written: its context ends (R366). -/
def State.launchNode (s : State) (l : Launch) : State × Bool :=
  if l.record.node = 0xFFFFFFFF then (s, true)
  else
    match s.graphOf l with
    | some (die, x) =>
      match s.decrement die x l.record.node with
      | (s, true) => ((s.startNodes die x.ticket).graphSettle die x.ticket, true)
      | r => r
    | none =>
      let va := l.record.graphT + 64 + 64 * l.record.node + 4
      match s.engineRange (l.asker s) va 4 .store with
      | (s, .wait) => (s, false)
      | (s, .fail) => (s, true)
      | (s, .at_ ps) =>
        if s.piecePoisoned ps then (s.engineUncorr (l.asker s) va, true)
        else
          let s := s.readPieces ps
          (storePieces l.ctx 0 ps (natBytes 4 (bytesNat (s.pieceBytes ps) + 2 ^ 32 - 1)) s, true)

/-- Every store, atomic and copy of the grid's groups is complete at the completion scope (step 1). -/
def State.gridDone (s : State) (l : Launch) : Bool :=
  let mine (x : Group) : Bool := x.ident.team.ticket == l.ticket
  !s.hcls.any (fun e => e.2.copyQueue.any (fun c => c.launch == l.ticket))
    && (decide (l.record.scope = 0)
      || (!s.groups.any (fun e => mine e.2 && !e.2.stores.isEmpty)
          && !s.cores.any (fun e => e.2.sideLog.any (fun w => w.ticket == l.ticket))
          && !s.hcls.any (fun e => e.2.packets.any (fun p => p.ticket == l.ticket))))
    && (decide (l.record.scope < 5)
      || !s.groups.any (fun e => e.2.posted && (mine e.2 || l.posted.contains e.1)))

/-- A launch is gone from the distributor: its launcher's node, or the invocation it answers, is told. -/
def State.launchOver (s : State) (l : Launch) (status : Nat) : State :=
  let s := { s with sched := { s.sched with launches := s.sched.launches.filter (fun x => x.ticket != l.ticket) } }
  let s := s.unwait (.launch l.ticket)
  match l.launcher with
  | .node die ticket node => s.nodeOver die ticket node status
  | .handler _ _ _ _ _ => s.handlerOver l status
  | .group _ => s

/-- Steps 2 to 4, from the one at `l.step`. -/
def launchSteps (ticket : Nat) (status : Nat) : Nat → State → State
  | 0, s => s
  | fuel + 1, s =>
    match s.launch? ticket with
    | none => s
    | some l =>
      let r := l.record
      let next (s : State) : State := launchSteps ticket status fuel (s.onLaunch ticket (fun l => { l with step := l.step + 1 }))
      let write (va v : Nat) (s : State) : State :=
        if va = 0 then next s
        else
          match s.engineWriteAt (l.asker s) r.scope va (natBytes 8 v) with
          | (s, .wait) => s
          | (s, _) => next s
      match l.step with
      | 0 => next (if 5 ≤ r.scope then l.dirty.foldl State.cleanSector (s.cleanContext l.ctx) else s)
      | 1 => write r.statA (status + ticket * 2 ^ 32) s
      | 2 => write r.sigA r.sigV s
      | 3 =>
        match s.launchNode l with
        | (s, false) => s
        | (s, true) => next s
      | _ => s.launchOver l status

/-- LAUNCH_COMPLETE: a header that waits for a page is tried again; a launch whose clusters have retired, or that ended
otherwise, completes in the order of R194. -/
def execLaunchComplete (ticket : Nat) (s : State) : Res :=
  match s.launch? ticket with
  | none => stall s
  | some l =>
    if !l.checked then .next (s.checkLaunch ticket)
    else
      let status := if l.status.isNone ∧ l.retired = l.record.size then some 0 else l.status
      match status with
      | none => stall s
      | some st =>
        if l.step = 0 ∧ !s.gridDone l then stall s
        else .next (launchSteps ticket st 5 (s.onLaunch ticket (fun l => { l with status := some st })))

end Sys2Proof.Machine
end

