-- ==== Sys2Proof/Machine/Collective.lean ====
section
/-! DEFINITION. Collectives (R387 to R395, R422), RTSWAP and GENR (R414, R421), and VRLD (R396, R397). -/

namespace Sys2Proof.Machine

/-! ### Collectives in flight -/

/-- Element bytes (R387). -/
def collWidth (elem : Nat) : Nat :=
  match elem with
  | 1 => 2
  | 3 => 8
  | _ => 4

/-- AI mode over f32: two passes, exponents and terms (R390). -/
def Coll.ai (c : Coll) : Bool := decide (c.mode = 0) && decide (c.elem = 0) && decide (c.op = 0 ∨ c.op = 4)

/-- Blocks of the send buffer, one for each rank in reduce-scatter and all-to-all, and their bytes. -/
def Coll.blocks (c : Coll) : Nat := if c.op = 4 ∨ c.op = 6 then c.p else 1
def Coll.blockBytes (c : Coll) : Nat := c.sendSize / c.blocks

/-- Chunks of 64 KiB that a length is cut into (R389); an empty contribution is one empty chunk. -/
def chunkCount (n : Nat) : Nat := Nat.max 1 ((n + 65535) / 65536)

/-- Chunks of exponents that precede the terms. -/
def Coll.expUnits (c : Coll) : Nat := if c.ai then c.blocks * chunkCount c.blockBytes else 0

/-- Bytes that rank `r` contributes to each receiver. -/
def Coll.shareOf (c : Coll) (r : Nat) : Nat := if c.op = 5 ∧ r ≠ 0 then 0 else c.blockBytes

/-- Units that this rank sends to each receiver: its sizes, chunks of exponents, then of terms or data. -/
def Coll.units (c : Coll) : Nat := 1 + c.expUnits + chunkCount (c.shareOf (c.rank.getD 0))

/-- The block of the send buffer that concerns a receiver: its own; a listener's is the whole buffer. -/
def Coll.blockOf (c : Coll) (r : Option Nat) : Nat := if c.blocks = 1 then 0 else r.getD 0

/-- Offset and bytes of chunk `i` of block `b` of the send buffer. -/
def Coll.piece (c : Coll) (share b i : Nat) : Nat × Nat := (b * c.blockBytes + i * 65536, Nat.min 65536 (share - i * 65536))

/-- Bytes that the collective writes (R393). -/
def Coll.resultBytes (c : Coll) : Nat :=
  match c.op with
  | 3 => c.p * c.sendSize
  | 4 => c.blockBytes
  | _ => c.sendSize

/-- What arrived belongs to this collective. -/
def Coll.mine (c : Coll) (k : CollChunk) : Bool :=
  decide (k.comm = c.comm) && decide (k.tableId = c.tableId) && decide (k.seq = c.seq)

/-- The contributions received for a collective. -/
def State.collIn (s : State) (c : Coll) : List CollChunk := s.coll.inbox.filter (fun k => c.mine k && decide (k.kind ≤ 2 ∨ k.kind = 5))

/-- The sizes of every other rank are here. -/
def State.collSized (s : State) (c : Coll) : Bool :=
  (List.range c.p).all (fun r => decide (c.rank = some r) || (s.collIn c).any (fun k => k.rank == r && k.kind == 5))

/-- Some rank's operation, mode or size differs (R393, R394). -/
def State.collBad (s : State) (c : Coll) : Bool :=
  (s.collIn c).any (fun k => decide (k.op ≠ c.op) || decide (k.mode ≠ c.mode) || decide (k.sendSize ≠ c.sendSize))

/-- Rank `r`'s contribution of a kind and number. -/
def State.collFrom (s : State) (c : Coll) (r kind index : Nat) : Option CollChunk :=
  (s.collIn c).find? (fun k => k.rank == r && k.kind == kind && k.index == index)

def Coll.same (a b : Coll) : Bool := decide (a.comm = b.comm) && decide (a.ticket = b.ticket)

/-- Replace a collective. -/
def State.setColl (s : State) (c : Coll) : State :=
  let f (x : Coll) : Coll := if x.same c then c else x
  { s with coll := { s.coll with flying := s.coll.flying.map f, past := s.coll.past.map f } }

/-- An older range lock holds the collective back. -/
def State.collBlocked (s : State) (c : Coll) : Bool := (s.hcl c.hcl).blocked c.lockOp

/-! ### Reading the send buffer -/

/-- What reading, or making a unit, comes to. -/
inductive CollStep (α : Type) where
  | got (x : α)
  | wait
  | fail
  deriving DecidableEq, Repr

/-- A collective as it stands now. -/
def State.collNow (s : State) (c : Coll) : Coll := ((s.coll.flying ++ s.coll.past).find? (fun x => x.same c)).getD c

/-- The engine as it asks for a translation. -/
def State.collAsker (s : State) (c : Coll) : Asker := s.engineAsker (.coll c.comm c.ticket) c.hcl c.ctx c.g

/-- A piece of the send buffer: it is read once, and remembered (R263). -/
def State.collRead (s : State) (c : Coll) (p : Nat × Nat) : State × Coll × CollStep (List Byte) :=
  let c := s.collNow c
  match Sparse.find c.own p.1 with
  | some bs => (s, c, .got bs)
  | none =>
    if p.2 = 0 then (s, c, .got [])
    else
      match s.engineRange (s.collAsker c) (c.sendVa + p.1) p.2 .load with
      | (s, .wait) => (s, c, .wait)
      | (s, .fail) => (s, c, .fail)
      | (s, .at_ ps) =>
        if s.piecePoisoned ps then (s.engineUncorr (s.collAsker c) (c.sendVa + p.1), c, .fail)
        else
          let bs := s.pieceBytes ps
          let c := { c with own := Sparse.put c.own p.1 bs }
          ((s.readPieces ps).setColl c, c, .got bs)

/-! ### AI mode (R390, R391) -/

/-- Groups of 64 elements, the last one padded with +0. -/
def groups64 (bs : List Byte) : List (List FVal) :=
  let n := bs.length / 4
  let zero : FVal := .fin false 0 f32.kmin
  (List.range ((n + 63) / 64)).map (fun g =>
    (List.range 64).map (fun i => if 64 * g + i < n then f32.val (fieldAt bs (4 * (64 * g + i)) 4) else zero))

/-- A rank's exponents of a piece. -/
def pieceExps (f : Nat) (bs : List Byte) : List Int := (groups64 bs).map (fun vs => (chunkOf f none vs).1.ec)

/-- The common exponent of several (R390): NaN if one is, zero if all are, else the largest of the others. -/
def commonExp (es : List Int) : Int :=
  if es.contains aiNan then aiNan
  else
    match es.filter (· != aiZero) with
    | [] => aiZero
    | e :: rest => rest.foldl max e

/-- A rank's terms of a piece under the common exponents. -/
def pieceTerms (f : Nat) (ecs : List Int) (bs : List Byte) : List (List Int) :=
  ((groups64 bs).zip ecs).map (fun e =>
    if e.2 = aiNan ∨ e.2 = aiZero then List.replicate 64 0 else e.1.map (fun v => (aiEncode f e.2 v).1))

/-- The linear checksum of 64 terms (R391). -/
def termCheck (q : List Int) : Nat :=
  (((q.zip (List.range q.length)).foldl (fun (a : Int) (e : Int × Nat) => a + e.1 * (2 * e.2 + 1)) 0) % 2 ^ 64).toNat

/-- The common exponents of chunk `i` of block `b`, once every rank's are known. -/
def State.collExps (s : State) (c : Coll) (b i : Nat) (own : List Byte) : Option (List Int) :=
  let mine := pieceExps c.f own
  let per (r : Nat) : Option (List Int) :=
    if c.rank = some r then some mine
    else (s.collFrom c r 0 (b * chunkCount c.blockBytes + i)).map (·.exps)
  let all := (List.range c.p).map per
  if all.any (·.isNone) then none
  else
    let ls := all.filterMap id
    let n := ls.foldl (fun m l => Nat.max m l.length) 0
    some ((List.range n).map (fun j => commonExp (ls.map (fun l => l.getD j aiZero))))

/-! ### Sending (R389) -/

/-- A chunk of a collective that carries nothing yet. -/
def State.collBlank (s : State) (c : Coll) (rank kind index : Nat) : CollChunk :=
  { comm := c.comm, seq := c.seq, tableId := c.tableId, gen := s.member.gen.setWidth 16, src := s.member.devId, rank := rank,
    kind := kind, index := index, op := c.op, mode := c.mode, sendSize := c.sendSize, exps := [], q := [], checks := [], data := [] }

/-- The chunk of unit `u` for a receiver; unit 0 is the sizes. -/
def State.collUnit (s : State) (c : Coll) (d : CollDest) (u : Nat) : State × CollStep CollChunk :=
  let n := chunkCount c.blockBytes
  let blank (kind index : Nat) : CollChunk := s.collBlank c (c.rank.getD 0) kind index
  if u = 0 then (s, .got (blank 5 0))
  else if u ≤ c.expUnits then
    let u := u - 1
    match s.collRead c (c.piece c.blockBytes (u / n) (u % n)) with
    | (s, _, .got bs) => (s, .got { blank 0 u with exps := pieceExps c.f bs })
    | (s, _, .wait) => (s, .wait)
    | (s, _, .fail) => (s, .fail)
  else
    let i := u - 1 - c.expUnits
    let b := c.blockOf d.rank
    match s.collRead c (c.piece (c.shareOf (c.rank.getD 0)) b i) with
    | (s, c, .got bs) =>
      if c.ai then
        match s.collExps c b i bs with
        | some ecs =>
          let ts := pieceTerms c.f ecs bs
          (s, .got { blank 1 i with q := ts.flatten, checks := ts.map termCheck })
        | none => (s, .wait)
      else (s, .got { blank 2 i with data := bs })
    | (s, _, .wait) => (s, .wait)
    | (s, _, .fail) => (s, .fail)

/-- The next unit for a receiver; a collective whose ranks disagree sends its sizes only. -/
def State.destUnit (s : State) (c : Coll) (d : CollDest) : Option Nat :=
  match d.again with
  | u :: _ => some u
  | [] => if d.next < (if s.collBad c then 1 else c.units) then some d.next else none

/-- A unit may be sent: data moves once the sizes of every rank are here (R393), terms once the exponents they need are. -/
def State.unitReady (s : State) (c : Coll) (d : CollDest) (u : Nat) : Bool :=
  u == 0 || (s.collSized c
    && (!(c.ai && decide (c.expUnits < u)) || (List.range c.p).all (fun r => decide (c.rank = some r)
      || (s.collFrom c r 0 (c.blockOf d.rank * chunkCount c.blockBytes + (u - 1 - c.expUnits))).isSome)))

/-- A chunk that is ready to be sent on a port. -/
structure CollReady where
  coll : Coll
  dest : CollDest
  unit : Nat
  deriving DecidableEq, Repr

/-- Order of service: chunks passed over 16 times first, then the lowest PRI, the lowest ticket, the lowest communicator. -/
def CollReady.key (x : CollReady) : List Nat :=
  [if 16 ≤ x.dest.passed then 0 else 1, x.coll.pri, x.coll.ticket, x.coll.comm]

def keyLe : List Nat → List Nat → Bool
  | a :: l, b :: m => decide (a < b) || (decide (a = b) && keyLe l m)
  | _, _ => true

def insertReady (x : CollReady) : List CollReady → List CollReady
  | [] => [x]
  | y :: rest => if keyLe y.key x.key then y :: insertReady x rest else x :: y :: rest

/-- The ready chunks whose next hop is a port, in the order of service. -/
def State.collReady (s : State) (port : Nat) : List CollReady :=
  let from_ (c : Coll) : List CollReady := c.dests.filterMap (fun d =>
    match s.destUnit c d with
    | some u => if s.unitReady c d u && s.route d.dst 0 == some port then some { coll := c, dest := d, unit := u } else none
    | none => none)
  let live := s.coll.flying.filter (fun c => c.status.isNone && !s.collBlocked c)
  ((live ++ s.coll.past).flatMap from_).foldl (fun l x => insertReady x l) []

/-- A receiver's unit has been sent. -/
def CollDest.sent (d : CollDest) : CollDest :=
  match d.again with
  | _ :: rest => { d with again := rest, passed := 0 }
  | [] => { d with next := d.next + 1, passed := 0 }

/-- Change one receiver of a collective. -/
def State.onDest (s : State) (c : Coll) (dst : Word) (f : CollDest → CollDest) : State :=
  let g (x : Coll) : Coll :=
    if x.same c then { x with dests := x.dests.map (fun d => if d.dst = dst then f d else d) } else x
  { s with coll := { s.coll with flying := s.coll.flying.map g, past := s.coll.past.map g } }

/-! ### Retirement (R394) -/

/-- Steps 1 and 2 of R394 with a status: the issuing core loses its lines of bR, and the locks are released. A listener that
is not cut off by STALEGEN acknowledges (R422). -/
def State.collOver (s : State) (c : Coll) (status : Nat) : State :=
  let gone (s : State) (w : Nat × Nat) : State :=
    match s.quietPlace (s.collAsker c) w.1 with
    | (s, some l) => s.dropLines (some c.core) [(l, w.2)]
    | (s, none) => s
  let s := (pagePieces c.recvVa c.recvSize).foldl gone s
  let s := (s.setHcl c.hcl ((s.hcl c.hcl).release c.lockOp)).setColl { c with status := some status }
  let ack := s.collBlank c 0 4 0
  if c.rank.isNone ∧ status ≠ 2 then c.ranks.foldl (fun s d => s.sendTo d 0 (.chunk d ack)) s else s

/-- A collective ends with a status that leaves its receive buffer undefined (R394). -/
def State.collLost (s : State) (c : Coll) (status : Nat) : State :=
  ((s.undefine (s.collAsker c) c.stream s.free [(c.recvVa, c.recvSize)]).useFree).collOver c status

/-- The collectives of a communicator in flight end with STALEGEN, and STALE is set (R395, R418). What has arrived for its
active table is dropped. -/
def State.staleComm (s : State) (c : Nat) : State :=
  let flying := s.coll.flying.filter (fun x => x.comm == c && x.status.isNone)
  let s := flying.foldl (fun s x => s.collLost x 2) s
  let x := s.comm c
  let old (k : CollChunk) : Bool := k.comm == c && (match x.active with
    | some t => k.tableId == t.tableId
    | none => false)
  let s := s.setComm c (x.setStale true)
  { s with coll := { s.coll with inbox := s.coll.inbox.filter (fun k => !old k),
                                 past := s.coll.past.filter (fun y => y.comm != c) } }

/-- Steps 3 and 4 of R394: the status word, then the copy count; the collective is gone. -/
def State.collFinish (s : State) (c : Coll) (status : Nat) : State :=
  let leave (s : State) : State :=
    let e := s.coll
    let keeps := c.ai && decide (status = 0) && c.rank.isSome
    let past := if keeps then { c with g := none } :: e.past.take 63 else e.past
    let gone := if keeps then e.past.drop 63 else []
    let s := { s with coll := { e with flying := e.flying.filter (fun x => !x.same c), past := past,
                                       inbox := e.inbox.filter (fun k =>
                                         !gone.any (·.mine k) && (!c.mine k || (keeps && (k.kind == 0 || k.kind == 5)))) } }
    (s.unwait (.coll c.comm c.ticket)).copyDone c.g
  match s.engineWrite (s.collAsker c) ((s.comm c.comm).statBase + 8 * (c.ticket % 64)) (natBytes 8 (status + c.ticket * 2 ^ 32)) with
  | (s, .wait) => s
  | (s, _) => leave s

/-! ### Results (R390 to R393) -/

/-- Combine two elements: 0 sum, 1 max, 2 min. -/
def collCombine (op elem a b : Nat) : Nat :=
  let w := 8 * collWidth elem
  let fmt := if elem = 1 then bf16 else f32
  if elem ≤ 1 then
    if op = 0 then (fmt.add 0 0 (fmt.val a) (fmt.val b)).bits else (fmt.minMax (decide (op = 1)) true a b).bits
  else if op = 0 then (a + b) % 2 ^ w
  else
    let v (x : Nat) : Int := if 2 ^ (w - 1) ≤ x then (x : Int) - 2 ^ w else x
    if (v a < v b) = (op = 1) then b else a

/-- Reduce the ranks' bytes in ascending rank order (R98, R392). -/
def collReduce (op elem : Nat) : List (List Byte) → List Byte
  | [] => []
  | d :: rest =>
    let w := collWidth elem
    let n := d.length / w
    let at_ (x : List Byte) (i : Nat) : Nat := fieldAt x (w * i) w
    (List.range n).flatMap (fun i => natBytes w (rest.foldl (fun a x => collCombine op elem a (at_ x i)) (at_ d i)))

/-- What the result of a collective comes to. -/
inductive CollResult where
  | bytes (bs : List Byte)
  | wait
  | fail
  /-- The checksums of this chunk of terms differ (R391). -/
  | differ (index : Nat)
  deriving DecidableEq, Repr

/-- Chunk `i` of this receiver's result in AI mode. -/
def State.aiPiece (s : State) (c : Coll) (i : Nat) : State × CollResult :=
  let b := c.blockOf c.rank
  let piece := c.piece c.blockBytes b i
  match (if c.rank.isSome then s.collRead c piece else (s, c, .got [])) with
  | (s, _, .wait) => (s, .wait)
  | (s, _, .fail) => (s, .fail)
  | (s, c, .got bs) =>
    match s.collExps c b i bs with
    | none => (s, .wait)
    | some ecs =>
      let own := pieceTerms c.f ecs bs
      let per (r : Nat) : Option (List (List Int) × List Nat) :=
        if c.rank = some r then some (own, own.map termCheck)
        else (s.collFrom c r 1 i).map (fun k =>
          ((List.range ecs.length).map (fun g => (k.q.drop (64 * g)).take 64), k.checks))
      let all := (List.range c.p).map per
      if all.any (·.isNone) then (s, .wait)
      else
        let ts := all.filterMap id
        let sum (g : Nat) : List Int := (List.range 64).map (fun j => ts.foldl (fun a t => a + (t.1.getD g []).getD j 0) 0)
        let ok (g : Nat) : Bool := decide (termCheck (sum g) = (ts.foldl (fun a t => a + t.2.getD g 0) 0) % 2 ^ 64)
        if (List.range ecs.length).all ok then
          let out := (List.range ecs.length).flatMap (fun g =>
            (sum g).flatMap (fun q => natBytes 4 (aiDecode c.f (ecs.getD g aiZero) q).bits))
          (s, .bytes (out.take piece.2))
        else (s, .differ i)

/-- Rank `r`'s whole contribution to this receiver, of data chunks. -/
def State.shareFrom (s : State) (c : Coll) (r : Nat) : Option (List Byte) :=
  let parts := (List.range (chunkCount (c.shareOf r))).map (fun i => (s.collFrom c r 2 i).map (·.data))
  if parts.any (·.isNone) then none else some (parts.filterMap id).flatten

/-- Put pieces together in order. -/
def joinPieces (f : State → Nat → State × CollResult) : Nat → State → State × CollResult
  | 0, s => (s, .bytes [])
  | n + 1, s =>
    match joinPieces f n s with
    | (s, .bytes a) =>
      match f s n with
      | (s, .bytes b) => (s, .bytes (a ++ b))
      | r => r
    | r => r

/-- The bytes that this device contributes to itself, chunk `i`. -/
def State.ownPiece (s : State) (c : Coll) (i : Nat) : State × CollResult :=
  match s.collRead c (c.piece (c.shareOf (c.rank.getD 0)) (c.blockOf c.rank) i) with
  | (s, _, .got bs) => (s, .bytes bs)
  | (s, _, .wait) => (s, .wait)
  | (s, _, .fail) => (s, .fail)

/-- The result of a collective, once every contribution is here. -/
def State.collResult (s : State) (c : Coll) : State × CollResult :=
  if c.ai then
    joinPieces (fun s i => s.aiPiece c i) (chunkCount c.blockBytes) s
  else
    let own := match c.rank with
      | some r => joinPieces (fun s i => s.ownPiece c i) (chunkCount (c.shareOf r)) s
      | none => (s, .bytes [])
    match own with
    | (s, .bytes mine) =>
      let all := (List.range c.p).map (fun r => if c.rank = some r then some mine else s.shareFrom c r)
      if all.any (·.isNone) then (s, .wait)
      else
        let ds := all.filterMap id
        match c.op with
        | 0 => (s, .bytes (collReduce 0 c.elem ds))
        | 1 => (s, .bytes (collReduce 1 c.elem ds))
        | 2 => (s, .bytes (collReduce 2 c.elem ds))
        | 4 => (s, .bytes (collReduce 0 c.elem ds))
        | _ => (s, .bytes ds.flatten)
    | r => r

/-- Every unit has been sent to every receiver. -/
def State.collSent (s : State) (c : Coll) : Bool := c.dests.all (fun d => (s.destUnit c d).isNone)

/-- Every listener has acknowledged (R422). -/
def State.collAcked (s : State) (c : Coll) : Bool :=
  c.dests.all (fun d => d.rank.isSome || s.coll.inbox.any (fun k => c.mine k && k.kind == 4 && k.src == d.dst))

/-- A chunk of terms is asked for once more from every contributor (R391). -/
def State.askAgain (s : State) (c : Coll) (i : Nat) : State :=
  let ask := s.collBlank c (c.rank.getD c.p) 3 i
  let s := s.setColl { c with retried := i :: c.retried }
  let s := { s with coll := { s.coll with inbox := s.coll.inbox.filter (fun k => !(c.mine k && k.kind == 1 && k.index == i)) } }
  (c.ranks.filter (fun d => d != s.member.devId)).foldl (fun s d => s.sendTo d 0 (.chunk d ask)) s

/-- The result is written: at first the bytes that a free choice names, then the others (R263). -/
def State.collWrite (s : State) (c : Coll) (bs : List Byte) : State :=
  match s.engineRange (s.collAsker c) c.recvVa bs.length .store with
  | (s, .wait) => s
  | (s, .fail) => s.collLost c 6
  | (s, .at_ ps) =>
    let ws := (pieceLocs ps).zip bs
    let some_ (keep : Nat → Bool) : List (Loc × Byte) := ((ws.zip (List.range ws.length)).filter (fun w => keep w.2)).map (·.1)
    match c.early with
    | none =>
      ((s.storeBytes (some_ (Config.freeChoice s.free)) c.ctx c.stream 0).setColl { c with early := some s.free }).useFree
    | some use =>
      ((s.storeBytes (some_ (fun i => !Config.freeChoice use i)) c.ctx c.stream 0).unpoisonWhole (pieceLocs ps)).collOver c 0

/-- COLL_RETIRE: the collective of a communicator and ticket goes on as far as what has arrived lets it. -/
def execCollRetire (c ticket : Nat) (s : State) : Res :=
  match s.coll.flying.find? (fun x => x.comm == c && x.ticket == ticket) with
  | none => stall s
  | some x =>
    match x.status with
    | some st => .next (s.collFinish x st)
    | none =>
      if s.collBlocked x || !s.collSized x || !s.collSent x then stall s
      else if s.collBad x then .next (s.collOver x 1)
      else
        match s.collResult x with
        | (s, .wait) => .next s
        | (s, .fail) => .next (s.collLost (s.collNow x) 6)
        | (s, .differ i) =>
          if x.retried.contains i then .next ((s.logError 14 2 0 x.ctx 0 0 0).collLost (s.collNow x) 3)
          else .next (s.askAgain (s.collNow x) i)
        | (s, .bytes bs) => if s.collAcked x then .next (s.collWrite (s.collNow x) bs) else .next s

/-! ### The engine's messages -/

/-- COLL_CHUNK_RECEIVE: a chunk of another generation is discarded and answered, and the communicator goes stale (R395). -/
def execCollChunkReceive (chunk : CollChunk) (s : State) : Res :=
  if chunk.gen ≠ s.member.gen.setWidth 16 then .next ((s.sendTo chunk.src 0 (.staleGen chunk.src chunk.comm)).staleComm chunk.comm)
  else if chunk.kind = 3 then
    let f (c : Coll) : Coll :=
      if c.mine chunk then
        { c with dests := c.dests.map (fun d =>
            if d.dst = chunk.src then { d with again := d.again ++ [1 + c.expUnits + chunk.index] } else d) }
      else c
    .next { s with coll := { s.coll with flying := s.coll.flying.map f, past := s.coll.past.map f } }
  else
    let same (k : CollChunk) : Bool :=
      decide (k.comm = chunk.comm) && decide (k.tableId = chunk.tableId) && decide (k.seq = chunk.seq)
        && decide (k.src = chunk.src) && decide (k.kind = chunk.kind) && decide (k.index = chunk.index)
    .next { s with coll := { s.coll with inbox := s.coll.inbox.filter (fun k => !same k) ++ [chunk] } }

/-- STALEGEN_CONTROL: a peer found the generations unequal (R395). -/
def execStalegenControl (c : Nat) (s : State) : Res := .next (s.staleComm c)

/-! ### COLL (R393) -/

/-- The communicator exists, is enabled, and belongs to the group's context. -/
def State.commOk (s : State) (c : Nat) : Bool :=
  decide (c < 256) && (s.comm c).on && decide ((s.comm c).ctx = s.me.ident.ctx)

/-- An RTSWAP of some group holds new COLLs and VRLDs of a communicator. -/
def State.commHeld (s : State) (c : Nat) : Bool :=
  match (s.comm c).hold with
  | some g => (s.group g).resident && (decide ((s.group g).slotA.wait = .swap c) || decide ((s.group g).slotB.wait = .swap c))
  | none => false

/-- The size rule of an operation. -/
def collSizeOk (op e p send recv : Nat) : Bool :=
  match op with
  | 3 => decide (p * send < 2 ^ 40) && decide (p * send ≤ recv)
  | 4 => decide (send % (p * e) = 0) && decide (send / p ≤ recv)
  | 5 => decide (send ≤ recv)
  | 6 => decide (send % p = 0) && decide (send ≤ recv)
  | _ => decide (send % e = 0) && decide (send ≤ recv)

/-- The collective that a COLL starts. -/
def State.collNew (s : State) (c op mode : Nat) (send recv : Rec) : Coll :=
  let x := s.comm c
  let ids := (x.active.map s.tableIds).getD []
  let me := s.member.devId
  let dest (e : Word × Nat) : CollDest :=
    { dst := e.1, rank := if e.2 < x.p then some e.2 else none, next := 0, passed := 0, again := [] }
  let rank := if x.rank < x.p then some x.rank else none
  let dests := if rank.isNone then [] else
    ((ids.zip (List.range ids.length)).filter (fun e => e.2 != x.rank && (decide (e.2 < x.p) || decide (op = 0 ∨ op = 5)))).map dest
  { comm := c, ticket := nextTicket x.ticket, seq := x.seq, tableId := (x.active.map (·.tableId)).getD 0, op := op,
    mode := mode, elem := x.elem, p := x.p, f := x.f, rank := rank, ranks := ids.take x.p, g := some s.cur.g,
    core := coreOf s.cur.g, ctx := s.me.ident.ctx, hcl := hclOf s.cur.g, lockOp := (s.hcl (hclOf s.cur.g)).lockOrder,
    pri := s.me.csr.bkpri.toNat % 2 ^ 16, sendVa := send.base, sendSize := send.extent, recvVa := recv.base,
    recvSize := recv.extent, stream := recv.ws, dests := dests.filter (fun d => d.dst != me), own := [], early := none, retried := [],
    status := none }

/-- Start a collective: its ticket, its locks, its place among those in flight. -/
def State.collStart (s : State) (d : SReg) (x : Coll) : State :=
  let h := s.hcl x.hcl
  let h := (h.register x.lockOp x.ctx x.sendVa (x.sendVa + x.sendSize) false false).register x.lockOp x.ctx x.recvVa
    (x.recvVa + x.recvSize) false true
  let m := s.comm x.comm
  let s := (s.setHcl x.hcl h).setComm x.comm { m with ticket := x.ticket, seq := m.seq + 1 }
  let s := { s with coll := { s.coll with flying := s.coll.flying ++ [x] } }
  s.setMe { s.me.ws d.toNat (BitVec.ofNat 32 x.ticket) with copies := s.me.copies + 1 }

/-- COLL with an operation and a mode. -/
def collOp (i : Instr) (op mode : Nat) (d a : SReg) (bs br : BReg) (s : State) : Res :=
  let c := (s.me.rs a.toNat).toNat
  let m := s.comm c
  let send := recOf (s.me.rb bs.toNat)
  let recv := recOf (s.me.rb br.toNat)
  if s.me.pendingS s.cur.slotB [d.toNat, a.toNat] || s.me.pendingB [bs.toNat, br.toNat] then stall s
  else if !s.commOk c then illegal i s
  else if s.commHeld c then stall s
  else if 4 ≤ m.elem ∨ (mode = 0 ∧ m.elem = 1) ∨ (m.p ≤ m.rank ∧ op ≠ 0 ∧ op ≠ 5) then illegal i s
  else if send.cls ≠ 0 ∨ recv.cls ≠ 0 ∨ send.refused = true ∨ recv.refused = true
      ∨ collSizeOk op (collWidth m.elem) m.p send.extent recv.extent = false then illegal i s
  else if !send.rd || !recv.wr then trapAt i causeBounds 0 0 s
  else if send.base % send.unit ≠ 0 ∨ recv.base % recv.unit ≠ 0 then trapAt i causeAlign 0 0 s
  else if m.stale then trapAt i causeMember 0 0 s
  else
    afterRelease s fun s =>
      if 64 ≤ (s.coll.flying.filter (fun x => x.comm == c)).length ∨ 256 < (s.hcl (hclOf s.cur.g)).locks.length + 2
          ∨ 63 ≤ s.me.copies then stall s
      else if s.tableLost c then raiseAt i tableUncorr s
      else retire (s.collStart d (s.collNew c op mode send recv))

def execCollSumAi (d a : SReg) (s r : BReg) (st : State) : Res := collOp (.collSumAi d a s r) 0 0 d a s r st
def execCollSumFix (d a : SReg) (s r : BReg) (st : State) : Res := collOp (.collSumFix d a s r) 0 1 d a s r st
def execCollMax (d a : SReg) (s r : BReg) (st : State) : Res := collOp (.collMax d a s r) 1 2 d a s r st
def execCollMin (d a : SReg) (s r : BReg) (st : State) : Res := collOp (.collMin d a s r) 2 2 d a s r st
def execCollGather (d a : SReg) (s r : BReg) (st : State) : Res := collOp (.collGather d a s r) 3 2 d a s r st
def execCollRscatAi (d a : SReg) (s r : BReg) (st : State) : Res := collOp (.collRscatAi d a s r) 4 0 d a s r st
def execCollRscatFix (d a : SReg) (s r : BReg) (st : State) : Res := collOp (.collRscatFix d a s r) 4 1 d a s r st
def execCollBcast (d a : SReg) (s r : BReg) (st : State) : Res := collOp (.collBcast d a s r) 5 2 d a s r st
def execCollA2a (d a : SReg) (s r : BReg) (st : State) : Res := collOp (.collA2a d a s r) 6 2 d a s r st

/-! ### GENR and RTSWAP (R414, R421) -/

def execGenr (d : SReg) (s : State) : Res :=
  guarded (.genr d) s fun s =>
    if s.me.pendingS s.cur.slotB [d.toNat, d.toNat + 1] then stall s
    else retire (s.setMe (s.me.ws64 d.toNat s.member.gen))

/-- A VRLD of some group is in flight on a communicator. -/
def State.replicaFlying (s : State) (c : Nat) : Bool :=
  s.groups.any (fun e => e.2.loads.any (fun l => match l.kind with
    | .replica _ _ k _ _ => k == c
    | _ => false))

/-- The staged table becomes active; what arrived for another table is dropped. -/
def State.installTable (s : State) (c : Nat) : State :=
  let x := s.comm c
  let t := x.staged
  let s := s.setComm c { x.setStale false with active := some t, staged := { t with valid := false }, p := t.p, rank := t.rank,
                                                seq := 0, hold := none }
  let ids := s.tableIds t
  let s := { s with member := { s.member with vacant := s.member.vacant.filter (fun d => !ids.contains d) } }
  { s with coll := { s.coll with inbox := s.coll.inbox.filter (fun k => k.comm != c || k.tableId == t.tableId),
                                 past := s.coll.past.filter (fun y => y.comm != c) } }

/-- The hold of a communicator ends. -/
def State.endHold (s : State) (c : Nat) : State := s.setComm c { s.comm c with hold := none }

/-- RTSWAP: with its hold in place it waits for what is in flight; before that, the checks, the release, and the hold. -/
def execRtswap (a : SReg) (s : State) : Res :=
  let i : Instr := .rtswap a
  let c := (s.me.rs a.toNat).toNat
  let x := s.comm c
  let now := decide (x.staged.gen = s.member.gen)
  if s.me.pendingS s.cur.slotB [a.toNat] then stall s
  else if !s.commOk c then illegal i s
  else if s.sl.wait = .swap c ∧ x.hold = some s.cur.g then
    if s.coll.flying.any (fun y => y.comm == c) || s.replicaFlying c then stall s
    else if !now then trapAt i causeMember 0 0 (s.endHold c)
    else if s.tablePoisoned x.staged then raiseAt i tableUncorr (s.endHold c)
    else retire ((s.installTable c).acquired s.cur.g 4)
  else if s.commHeld c then stall s
  else
    afterWait (fun _ _ => true) s fun s =>
      if !x.stale && decide ((x.active.map (·.gen)) = some s.member.gen) && !x.staged.valid then retire s
      else if !x.staged.valid || !now then trapAt i causeMember 0 0 s
      else afterRelease s fun s => stallAs (.swap c) (s.setComm c { s.comm c with hold := some s.cur.g })

/-! ### VRLD (R396, R397) -/

/-- The replicated region of a context that a record lies in: its communicator. -/
def State.replicaOf (s : State) (ctx base extent : Nat) : Option Nat :=
  (List.range 16).findSome? (fun j =>
    let r := Sparse.get (0, 0, 0) s.coll.replicas (16 * ctx + j)
    if r.2.1 ≠ 0 ∧ r.1 ≤ base ∧ base + extent ≤ r.1 + r.2.1 then some r.2.2 else none)

/-- Ask the other ranks for their replicas of the lanes' addresses. -/
def State.askReplicas (s : State) (c n tag : Nat) (others : List Word) (lanes : List (Nat × Nat)) : State :=
  lanes.foldl (fun s e => others.foldl (fun s d => s.sendTo d 0 (.replicaRequest d c e.2 n (tag + e.1))) s) s

/-- VRLD: the other ranks' values are theirs to give; they are free values here. A device that is no rank reads nothing. -/
def execVrld (f : LM) (s : State) : Res :=
  let wide := decide (f.ty = 2)
  let n := if wide then 8 else 4
  memOp (.vrld f) f Need.plain s fun l r s =>
    let g := s.cur.g
    let os := laneOffsets f l s.me
    let q : Ask := { classes := [4], n := n, reads := true, writes := false }
    let region := s.replicaOf s.me.ident.ctx r.base r.extent
    let c := region.getD 0
    if r.cls ≠ 4 ∨ region.isNone = true ∨ s.commOk c = false then laneIllegal l 0 s
    else if s.commHeld c then stall s
    else
      match r.check s (hclOf g) q os with
      | some t => laneRaise l t s
      | none =>
        if (s.comm c).stale then laneRetireTrap l causeMember l.act 0 s
        else
          let ids := s.rankIds c
          let others := ids.filter (fun d => d != s.member.devId)
          let lanes := r.addrs (hclOf g) os
          let locked := s.lockConflicts (hclOf g) s.me.ident.ctx false n lanes
          let vetted := if ids.contains s.member.devId then s.vetAccess g l.b.slotB r q os
            else if locked ≠ 0 then .trap (raised causeRangelock locked) else .go []
          withAccess l vetted s fun accs =>
            let term (lane : Nat) : Nat × List Nat :=
              (lane, (List.range others.length).map (fun k => (Config.replicaWord s.free k lane).toNat % 2 ^ (8 * n)))
            let kind : LoadKind := .replica f.vd.toNat wide c s.member.gen (os.map (fun o => term o.1))
            if 63 ≤ s.me.loadCount then stall s
            else if s.tableLost c then laneRaise l tableUncorr s
            else
              let s := (s.askReplicas c n (32 * (g * 2 ^ 32 + s.me.seq)) others lanes).useFree
              let s := if wide then s.setMe (s.me.awaitVstat s.me.seq) else s
              laneLoad l kind accs 0 r.cls s

/-- REPLICA_READ_REQUEST: this device's engine reads its replica at device scope and returns the bytes. While a page fault
waits for its answer nothing is returned, and the request stays to be served. -/
def execReplicaReadRequest (req : ReplicaReq) (s : State) : Res :=
  let c := s.comm req.comm
  let q := s.engineAsker (.replica req.comm) 0 c.ctx none
  let reply (v : Nat) (s : State) : State := s.sendTo req.src 0 (.replicaReply req.src req.tag v)
  if !c.on || (s.replicaOf c.ctx req.va req.width).isNone then stall s
  else
    match s.engineRange q req.va req.width .load with
    | (s, .wait) => .next s
    | (s, .fail) => .next (reply (Config.replicaWord s.free 0 0).toNat s.useFree)
    | (s, .at_ ps) =>
      if s.piecePoisoned ps then .next (reply (Config.replicaWord s.free 0 0).toNat (s.engineUncorr q req.va).useFree)
      else .next (reply (bytesNat (s.pieceBytes ps)) ((s.readPieces ps).unwait (.replica req.comm)))

end Sys2Proof.Machine
end

