-- ==== Sys2Proof/Machine/Csr.lean ====
section
/-! DEFINITION. The CSR space (R24 to R26, R116, R117, R204, R210, R216, R226, R241, R246, R328, R337, R388, R413, R431,
R432): reading and writing every CSR, and the TLB invalidation that INVCMD starts (R241). -/

namespace Sys2Proof.Machine

/-! ### IVAL (R432) -/

/-- Differences of neighbours in a list of times, newest first. -/
def intervals : List Nat → List Nat
  | a :: b :: rest => (a - b) :: intervals (b :: rest)
  | _ => []

/-- M: the mean of the last 16 intervals between expulsions, or MTBE0 (3,600 s where 0) until two were applied. -/
def Member.meanTime (m : Member) : Nat :=
  match (intervals m.expelTimes).take 16 with
  | [] => (if m.mtbe0 = 0 then 3600 else m.mtbe0.toNat) * 10 ^ 6
  | l => l.foldl (· + ·) 0 / l.length

/-- IVAL in µs. -/
def Member.interval (m : Member) : Nat :=
  Nat.min (2 ^ 32 - 1) (rootFrom (Nat.min (2 ^ 64 - 1) (2 * m.secured.getD 1000 * m.meanTime)) 32 0)

/-! ### Reading -/

/-- A loop register of the issuing slot: start, end or count (R25). -/
def Slot.loopReg (y : Slot) (k : Nat) : Word :=
  let lv := y.loops.getD (k % 4) LoopLevel.zero
  if k < 4 then lv.start else if k < 8 then lv.stop else lv.count

/-- HITS and QUOTA (R204). -/
def Core.thrstat (c : Core) : Word := BitVec.ofNat 32 (Nat.min 0xFFFF c.lastHits * 2 ^ 16 + c.quota)

/-- The value of CSR `c` as the issuing slot reads it; none where the address is unassigned. LCB is read as a pair and
has no value here. -/
def State.csrRead (s : State) (c : Nat) : Option Word :=
  let x := s.me
  let r := x.csr
  let core := s.coreOfGroup s.cur.g
  if 0x010 ≤ c ∧ c ≤ 0x01B then some (s.sl.loopReg (c - 0x010))
  else if 0x070 ≤ c ∧ c ≤ 0x077 then some (x.rfmt (c - 0x070))
  else
    match c with
    | 0x000 => some s.sl.xm
    | 0x001 => some r.part
    | 0x002 => some x.ident.role
    | 0x004 => some r.fpe
    | 0x005 => some r.fstat
    | 0x006 => some r.frm
    | 0x007 => some r.trpc
    | 0x008 => some r.utvec
    | 0x009 => some r.tcause
    | 0x00A => some r.tlmask
    | 0x00B => some r.tspc
    | 0x00C => some r.tlpc
    | 0x00D => some r.tiw0
    | 0x00E => some r.tiw1
    | 0x00F => some r.tiw2
    | 0x020 => some r.vstat
    | 0x021 => some r.amax
    | 0x022 => some r.budget
    | 0x023 => some r.tctl
    | 0x024 => some r.txm
    | 0x030 => some x.ident.teamId
    | 0x031 => some x.ident.clusterId
    | 0x032 => some x.ident.gridX
    | 0x033 => some x.ident.gridY
    | 0x034 => some x.ident.gridZ
    | 0x040 => some (s.stb s.cur.g)
    | 0x041 => some x.ident.stbcfg
    | 0x050 => some Config.mathRev
    | 0x060 => some (s.member.gen.extractLsb' 0 32)
    | 0x061 => some r.bkpri
    | 0x062 => some r.secpol
    | 0x063 => some (BitVec.ofNat 32 (s.member.risk.toNat * 2 ^ 16 + Nat.min 0xFFFF s.member.expl))
    | 0x064 => some (BitVec.ofNat 32 s.member.interval)
    | 0x800 => some core.poolcfg
    | 0x803 => some s.vm.fetmocfg
    | 0x810 => some s.vm.invva
    | 0x811 => some s.vm.invvah
    | 0x812 => some s.vm.invcmd
    | 0x818 => some s.hot.hotcfg
    | 0x819 => some s.hot.glowBase
    | 0x81A => some s.hot.glowBaseH
    | 0x820 => some core.thrcfg
    | 0x821 => some core.thrstat
    | _ => none

/-- The CSRs marked RO. -/
def csrReadOnly (c : Nat) : Bool :=
  [0x002, 0x003, 0x007, 0x009, 0x00A, 0x00B, 0x00C, 0x00D, 0x00E, 0x00F, 0x022, 0x024, 0x030, 0x031, 0x032, 0x033, 0x034,
   0x040, 0x041, 0x050, 0x060, 0x063, 0x064, 0x800, 0x821].contains c

/-- The issuing group may not reach the address: privileged, without the header's flag (R24). -/
def State.csrDenied (s : State) (c : Nat) : Bool := decide (0x800 ≤ c) && !s.me.ident.privileged

/-! ### INVCMD (R241) -/

/-- The address that INVVA and INVVAH name. -/
def Vm.invAddr (v : Vm) : Nat := v.invvah.toNat * 2 ^ 32 + v.invva.toNat

/-- A translation of this context and range is dropped by the command. SCOPE 3 is reserved and matches none. -/
def Vm.invMatches (v : Vm) (ctx va size : Nat) : Bool :=
  let mine := decide (ctx = v.invcmd.toNat / 2 ^ 16 % 2 ^ 12)
  match v.invcmd.toNat % 4 with
  | 0 => mine && decide (va ≤ v.invAddr) && decide (v.invAddr < va + size)
  | 1 => mine
  | 2 => true
  | _ => false

/-- Accesses of this context are waited for. -/
def Vm.invAwaits (v : Vm) (ctx : Nat) : Bool :=
  match v.invcmd.toNat % 4 with
  | 0 | 1 => decide (ctx = v.invcmd.toNat / 2 ^ 16 % 2 ^ 12)
  | 2 => true
  | _ => false

/-- Drop the matching translations. -/
def State.invDrop (s : State) : State :=
  { s with vm := { s.vm with tlb := s.vm.tlb.filter (fun e => !s.vm.invMatches e.ctx e.va e.size) } }

/-- Write INVCMD: CTX and SCOPE are kept, and BUSY starts an invalidation. -/
def State.writeInvcmd (s : State) (v : Word) : State :=
  let s := { s with vm := { s.vm with invcmd := v &&& 0x8FFF0003 } }
  if v.getLsbD 31 then s.invDrop else s

/-- An access that may have used a dropped translation has not reached its ordering point: a load whose data have not
arrived, a queued store, an atomic packet, or an ATS translation on its way. -/
def State.invOutstanding (s : State) : Bool :=
  s.groups.any (fun e => s.vm.invAwaits e.2.ident.ctx
    && (e.2.loads.any (fun l => l.accs.any (fun a => a.loc.isSome)) || !e.2.stores.isEmpty))
  || s.hcls.any (fun e => e.2.packets.any (fun p => s.vm.invAwaits p.ctx))
  || s.vm.hostReqs.any (fun r => s.vm.invAwaits r.walk.first.ctx)

/-- INVALIDATE_COMMAND: a write of INVCMD. While BUSY is 1 there is nothing to write. -/
def execInvalidateCommand (value : Word) (s : State) : Res :=
  if s.vm.invcmd.getLsbD 31 then stall s else .next (s.writeInvcmd value)

/-- INVALIDATE_DONE: BUSY returns to 0 once no matching translation is held and every access that used one has reached
its ordering point. -/
def execInvalidateDone (s : State) : Res :=
  if !s.vm.invcmd.getLsbD 31 || s.invOutstanding then stall s
  else
    let s := s.invDrop
    .next { s with vm := { s.vm with invcmd := s.vm.invcmd &&& 0x7FFFFFFF } }

/-! ### Writing -/

/-- Write a loop register of a slot. -/
def Slot.setLoopReg (y : Slot) (k : Nat) (v : Word) : Slot :=
  let lv := y.loops.getD (k % 4) LoopLevel.zero
  let lv := if k < 4 then { lv with start := v } else if k < 8 then { lv with stop := v } else { lv with count := v }
  { y with loops := y.loops.set (k % 4) lv }

/-- SECPOL's stored value: software clears DUE and never sets it (R431). -/
def secpolOf (old new : Word) : Word := (new &&& 0xFFFF0003) ||| (new &&& old &&& 4)

/-- MODE selects the rate trigger. -/
def rateMode (v : Word) : Bool := decide (2 ≤ v.toNat % 4)

/-- A write of SECPOL (R431): the moments that the rate trigger and C of R432 count from. -/
def State.writeSecpol (s : State) (new : Word) : State :=
  let x := s.me
  let old := x.csr.secpol
  let v := secpolOf old new
  let cleared := old.getLsbD 2 && !v.getLsbD 2
  let s := match cleared, x.dueSince with
    | true, some t => { s with member := { s.member with secured := some ((s.ck - t) / 2000) } }
    | _, _ => s
  s.setMe { x with csr := { x.csr with secpol := v },
                   rateFrom := if cleared || (!rateMode old && rateMode v) then s.ck else x.rateFrom,
                   dueSince := if cleared then none else x.dueSince }

/-- Write value `v` to CSR `c`, which is not RO; none where the value is refused (R117, R241, R246). Reserved bits are
ignored (R6). -/
def State.csrWrite (s : State) (c : Nat) (v : Word) : Option State :=
  let x := s.me
  let onCsr (f : Csrs → Csrs) : Option State := some (s.setMe { x with csr := f x.csr })
  let core (f : Core → Core) : Option State := some (s.setCore (coreOf s.cur.g) (f (s.coreOfGroup s.cur.g)))
  let vm (f : Vm → Vm) : Option State := some { s with vm := f s.vm }
  let hot (f : Hot → Hot) : Option State := some { s with hot := f s.hot }
  if 0x010 ≤ c ∧ c ≤ 0x01B then some (s.setSl (s.sl.setLoopReg (c - 0x010) v))
  else if 0x070 ≤ c ∧ c ≤ 0x077 then some (s.setMe { x with fmt := Sparse.set 0 x.fmt (c - 0x070) (v &&& 0x7FF) })
  else
    match c with
    | 0x000 => some (s.setSl { s.sl with xm := v &&& s.sl.lanes })
    | 0x001 => if 5 ≤ v.toNat % 8 then none else onCsr (fun r => { r with part := v &&& 7 })
    | 0x004 => onCsr (fun r => { r with fpe := v &&& 0x1F })
    | 0x005 => onCsr (fun r => { r with fstat := v &&& 0x1F })
    | 0x006 => onCsr (fun r => { r with frm := v &&& 7 })
    | 0x008 => onCsr (fun r => { r with utvec := v &&& 0xFFFFFFFC })
    | 0x020 => onCsr (fun r => { r with vstat := v &&& 0x1F })
    | 0x021 => onCsr (fun r => { r with amax := v })
    | 0x023 => onCsr (fun r => { r with tctl := v &&& 1 })
    | 0x061 => onCsr (fun r => { r with bkpri := v &&& 0xFFFF })
    | 0x062 => some (s.writeSecpol v)
    | 0x803 => vm (fun r => { r with fetmocfg := v })
    | 0x810 => vm (fun r => { r with invva := v &&& 0xFFFF0000 })
    | 0x811 => vm (fun r => { r with invvah := v &&& 0x01FFFFFF })
    | 0x812 => if s.vm.invcmd.getLsbD 31 then none else some (s.writeInvcmd v)
    | 0x818 => if v.getLsbD 31 && decide (v.toNat % 65536 = 0) then none
               else hot (fun r => { r with hotcfg := v &&& 0x8000FFFF,
                                           since := if v.getLsbD 31 && !r.hotcfg.getLsbD 31 then s.ck else r.since })
    | 0x819 => hot (fun r => { r with glowBase := v &&& 0xFFFFF000 })
    | 0x81A => hot (fun r => { r with glowBaseH := v })
    | 0x820 => core (fun r => { r with thrcfg := v &&& 0xFFFF })
    | _ => none

/-! ### The instructions (R116) -/

/-- CSRR: a word, or LCB into an even pair. -/
def execCsrr (d : SReg) (c : BitVec 12) (s : State) : Res :=
  if s.csrDenied c.toNat then illegal (.csrr d c) s
  else if c = 0x003 then
    if !pairReg d then illegal (.csrr d c) s
    else onRegs (pairOf d) (fun x => x.ws64 d.toNat x.ident.lcb) s
  else
    match s.csrRead c.toNat with
    | none => illegal (.csrr d c) s
    | some v => onRegs [d] (fun x => x.ws d.toNat v) s

/-- CSRW, CSRS and CSRC: the new value is a function of the old one and of sa. -/
def csrUpdate (i : Instr) (f : Word → Word → Word) (a : SReg) (c : BitVec 12) (s : State) : Res :=
  match s.csrRead c.toNat with
  | none => illegal i s
  | some old =>
    if s.csrDenied c.toNat || csrReadOnly c.toNat then illegal i s
    else if s.me.pendingS s.cur.slotB [a.toNat] then stall s
    else
      match s.csrWrite c.toNat (f old (s.me.rs a.toNat)) with
      | none => illegal i s
      | some s => retire s

def execCsrw (a : SReg) (c : BitVec 12) (s : State) : Res := csrUpdate (.csrw a c) (fun _ v => v) a c s
def execCsrs (a : SReg) (c : BitVec 12) (s : State) : Res := csrUpdate (.csrs a c) (fun o v => o ||| v) a c s
def execCsrc (a : SReg) (c : BitVec 12) (s : State) : Res := csrUpdate (.csrc a c) (fun o v => o &&& ~~~v) a c s

end Sys2Proof.Machine
end

