-- ==== Sys2Proof/Machine/Fabric.lean ====
section
/-! DEFINITION. Gupol ports (R380 to R383, R386, R447): flits and their CRC, link-level replay, training and lane failures. -/

namespace Sys2Proof.Machine

/-! ### Sending and replay (R381) -/

/-- An ACK advances: it lies after the last one. -/
def Port.advances (p : Port) (ack : Word) : Bool := decide (ack ≠ p.lastAcked) && decide ((ack - p.lastAcked).toNat < 2 ^ 31)

/-- An ACK received at time `now` covers flits of the replay buffer. -/
def Port.acked (p : Port) (ack : Word) (now : Nat) : Port :=
  if p.advances ack then
    { p with lastAcked := ack, noProgress := 0, ackAt := now, replay := p.replay.filter (fun f => !decide ((ack - f.seq).toNat < 2 ^ 31)) }
  else p

/-- LOC of a fabric port's record (R447). -/
def portLoc (port lane : Nat) : Nat := port % 16 * 2 ^ 12 + lane % 16

/-- The other link of a torus port's direction. -/
def siblingPort (port : Nat) : Nat := if port % 2 = 0 then port + 1 else port - 1

/-- The other links that lead where a port leads. -/
def siblings (port : Nat) : List Nat := if port < 12 then [siblingPort port] else [12, 13, 14, 15].filter (· != port)

/-- A port that is DOWN hands its flits to another link in its direction that is not (R382, R386). -/
def State.handFlits (s : State) (port : Nat) : State :=
  let p := s.port port
  match (siblings port).find? (fun q => decide ((s.port q).state ≠ 0)) with
  | some q =>
    if p.state = 0 then (s.setPort port { p with replay := [], queue := [] }).offer q (p.replay ++ p.queue) else s
  | none => s

/-- A port is no longer DOWN: it takes the flits that other links of its direction could not send, and the packets held for
want of a route leave. -/
def State.takeFlits (s : State) (port : Nat) : State := ((siblings port).foldl State.handFlits s).flushHeld

/-- A port moves to DOWN: the record of R382 names a lane, and its flits leave on the other link. -/
def State.portDown (s : State) (port lane : Nat) : State :=
  let p := s.port port
  let s := s.setPort port { p with state := 0, half := false, attempts := 0, noProgress := 0 }
  (s.logError 15 2 2 0 (portLoc port lane) 0 0).handFlits port

/-- A replay: the flits after the last acknowledged one are sent again; the eighth without progress takes the port DOWN. -/
def State.replayPort (s : State) (port : Nat) : State :=
  let p := s.port port
  let p := { p with replays := Nat.min 0xFFFF (p.replays + 1), noProgress := p.noProgress + 1, ackAt := s.ck }
  let s := s.setPort port p
  if 8 ≤ p.noProgress then s.portDown port 0
  else s.onWire port p.replay

/-- The ready chunks behind the one that is sent have been passed over once more. -/
def State.passOver (s : State) (l : List CollReady) : State :=
  l.foldl (fun s x => s.onDest x.coll x.dest.dst (fun d => { d with passed := d.passed + 1 })) s

/-- Send the first ready chunk that can be read, while the replay buffer of the port has room for its flits. -/
def sendReady (port : Nat) : List CollReady → State → State
  | [], s => s
  | x :: rest, s =>
    match s.collUnit x.coll x.dest x.unit with
    | (s, .wait) => sendReady port rest s
    | (s, .fail) => s.collLost (s.collNow x.coll) 6
    | (s, .got k) =>
      let m : Msg := .chunk x.dest.dst k
      let fs := m.flits 0 k.gen
      if 2048 < (s.port port).replay.length + (s.port port).queue.length + fs.length then s
      else (((s.send m).offer port fs).onDest x.coll x.dest.dst CollDest.sent).passOver rest

/-- COLL_CHUNK_SEND: the next chunk on a port (R389). -/
def execCollChunkSend (port : Nat) (s : State) : Res :=
  if !(s.port port).isUp then stall s else .next (sendReady port (s.collReady port) s)

/-- FECCOR of PORTCNT (R383): codewords corrected, in units of 2^16. -/
def Port.fecCor (p : Port) : Nat := Nat.min 0xFFFF (p.corrected / 2 ^ 16)

/-- Codewords were corrected while a flit came in: how many is a free value. -/
def State.fecCounts (s : State) (port : Nat) : State :=
  (s.setPort port { s.port port with corrected := (s.port port).corrected + Config.corrected s.free }).useFree

/-- An accepted flit: the neighbour's beacon and what is addressed to this device has arrived; a flit of another device's packet
goes on its route. -/
def State.deliver (s : State) (port : Nat) (flit : Flit) : State :=
  let e := Config.packetEnds port (s.fabric.accepted.filter (fun a => a.1 == port)).length
  let s := { s with fabric := { s.fabric with accepted := s.fabric.accepted ++ [(port, flit)] } }
  if flit.type = 4 ∨ e.2 = s.member.devId then s
  else s.sendPacket { src := e.1, dst := e.2, cls := flit.cls.toNat, msg := none, flits := [flit] }

/-- FLIT_RECEIVE: the next flit in order whose FEC and CRC succeed is accepted; any other is dropped, and a control flit
names the last one accepted. What the accepted flits carry acts by the events of their messages. -/
def execFlitReceive (port : Nat) (flit : Flit) (fecOk : Bool) (s : State) : Res :=
  if !(s.port port).isUp then stall s
  else
    let s := s.fecCounts port
    let p := s.port port
    if fecOk && flitGood flit && decide (flit.seq = p.lastAccepted + 1) then
      .next (((s.setPort port { p.acked flit.ack s.ck with lastAccepted := flit.seq }).pump port).deliver port flit)
    else .next (s.sendOn port (.control port p.lastAccepted))

/-- REPLAY_REQUEST: a control flit names the last flit that the other end accepted. -/
def execReplayRequest (port : Nat) (last : Word) (s : State) : Res :=
  let p := s.port port
  if !p.isUp then stall s else .next (((s.setPort port (p.acked last s.ck)).replayPort port).pump port)

/-- LINK_ACK_TIMEOUT: flits wait for an ACK, and none has advanced for 4 µs, which are 8,000 ck. -/
def execLinkAckTimeout (port : Nat) (s : State) : Res :=
  if !(s.port port).ackLate s.ck then stall s else .next (s.replayPort port)

/-! ### States (R382, R383) -/

/-- Training starts: LFAIL is clear. A port that was DOWN numbers its flits afresh, those it still holds among them, and is a
route again (R385). -/
def State.trainPort (s : State) (port : Nat) : State :=
  let p := s.port port
  let fresh := p.state == 0
  let n := p.replay.length
  let replay := if fresh then (p.replay.zip (List.range n)).map (fun e => flitNumbered e.1 (BitVec.ofNat 32 e.2) 0xFFFFFFFF)
                else p.replay
  let p := { p with state := 1, half := false, lfail := 0, attempts := 0, replay := replay }
  if fresh then
    (s.setPort port { p with nextSeq := BitVec.ofNat 32 n, lastAcked := 0xFFFFFFFF, lastAccepted := 0xFFFFFFFF }).takeFlits port
  else s.setPort port p

/-- PORT_ENABLE: EN is set; a DOWN port trains. -/
def execPortEnable (port : Nat) (s : State) : Res :=
  if 16 ≤ port then stall s
  else
    let s := s.setPort port { s.port port with en := true }
    .next (if (s.port port).state = 0 then s.trainPort port else s)

/-- The port is disabled: EN is clear, and the port goes DOWN. -/
def State.disablePort (s : State) (port : Nat) : State :=
  let p := s.port port
  let s := s.setPort port { p with en := false }
  if p.state = 0 then s else s.portDown port 0

/-- PORT_RETRAIN: a port in HALF trains again. -/
def execPortRetrain (port : Nat) (s : State) : Res :=
  if (s.port port).state = 3 then .next (s.trainPort port) else stall s

/-- Lanes 0 to 7, or lanes 8 to 15, hold none of the failed lanes. -/
def halfClean (lfail : BitVec 16) (upper : Bool) : Bool :=
  decide ((if upper then lfail.toNat / 256 else lfail.toNat % 256) = 0)

/-- PORT_LANE_FAIL: LFAIL records the lane, and the port moves to the half without failed lanes, or DOWN. -/
def execPortLaneFail (port lane : Nat) (s : State) : Res :=
  if 16 ≤ port ∨ 16 ≤ lane then stall s
  else
    let p := s.port port
    let p := { p with lfail := p.lfail ||| BitVec.ofNat 16 (2 ^ lane) }
    let s := s.setPort port p
    match p.state with
    | 2 =>
      if halfClean p.lfail false || halfClean p.lfail true then
        let s := s.setPort port { p with state := 3, half := halfClean p.lfail true }
        .next (s.logError 15 1 2 0 (portLoc port lane) 0 0)
      else .next (s.portDown port lane)
    | 3 => if p.half = decide (8 ≤ lane) then .next (s.portDown port lane) else .next s
    | _ => .next s

/-- A port has come up: it sends from its replay buffer, then what waits behind it. A pilot that is being adopted, its
membership engine on, asks to join at its first torus port (R416, R426). -/
def State.portUp (s : State) (port : Nat) (state : Nat) (half : Bool) : State :=
  let first := (List.range 12).all (fun q => !(s.port q).everUp)
  let p := s.port port
  let s := s.setPort port { p with state := state, half := half, attempts := 0, everUp := true, ackAt := s.ck }
  let s := (s.onWire port p.replay).pump port
  if port < 12 ∧ first = true ∧ s.member.state = 1 ∧ s.member.on = true then
    let a := if s.member.arbGone then s.member.stby else s.member.arb
    s.sendTo a 0 (.joinRequest a s.member.devId)
  else s

/-- The lowest lane that is not set. -/
def lowestMissing (pass : BitVec 16) : Nat := ((List.range 16).find? (fun l => !pass.getLsbD l)).getD 0

/-- PORT_TRAINING_DONE: `pass` tells the lanes that trained. -/
def execPortTrainingDone (port : Nat) (pass : BitVec 16) (s : State) : Res :=
  let p := s.port port
  if p.state ≠ 1 then stall s
  else
    let s := s.setPort port { p with lfail := ~~~pass }
    if pass = 0xFFFF then .next (s.portUp port 2 false)
    else if halfClean (~~~pass) false || halfClean (~~~pass) true then
      .next ((s.portUp port 3 (halfClean (~~~pass) true)).logError 15 1 2 0 (portLoc port (lowestMissing pass)) 0 0)
    else if p.attempts + 1 < 3 then .next (s.setPort port { s.port port with attempts := p.attempts + 1 })
    else .next (s.portDown port (lowestMissing pass))

end Sys2Proof.Machine
end

