-- ==== Sys2Proof/Machine/Pull.lean ====
section
/-! DEFINITION. The join engine (R427 to R429, R450): serving lines, and pulls. -/

namespace Sys2Proof.Machine

/-! ### Serving (R427) -/

/-- SERVE of a region. -/
def Region.serves (r : Region) : Bool := r.enabled && r.flags / 2 % 2 == 1

/-- LINE_REQUEST: a member device answers a device of its domain from its directory; of a line whose bytes are lost it has none
to give. -/
def execLineRequest (src : Word) (name : LineName) (region : Nat) (s : State) : Res :=
  if s.member.state ≠ 2 ∨ s.member.inDomain (podOf src) = false then stall s
  else
    let none_ (s : State) : Res := .next (s.sendTo src 0 (.lineReply src .noName))
    if !(s.lineRegion region).serves then none_ s
    else
      match s.dir.knownIn region name with
      | none => none_ s
      | some e =>
        if s.poisoned (s.dir.slotAddr e.slot) then none_ (s.lineError 0 e)
        else .next ((s.readLine e.slot).sendTo src 0 (.lineReply src (.line e.node (s.lineBytes e.slot))))

/-! ### Commands (R428) -/

def Pull.root (p : Pull) : LineName := BitVec.ofNat 128 (fieldAt p.cmd 0 16)
def Pull.region (p : Pull) : Nat := fieldAt p.cmd 16 1
def Pull.depth (p : Pull) : Nat := fieldAt p.cmd 17 1
def Pull.sources (p : Pull) : Nat := fieldAt p.cmd 18 1
def Pull.cell (p : Pull) : Nat := fieldAt p.cmd 20 4
def Pull.source (p : Pull) (i : Nat) : Word := BitVec.ofNat 32 (fieldAt p.cmd (24 + 4 * i) 4)
def Pull.statA (p : Pull) : Nat := fieldAt p.cmd 56 8

/-- The command breaks a rule of its layout, or of its region. -/
def State.pullBad (s : State) (p : Pull) : Bool :=
  decide (fieldAt p.cmd 19 1 ≠ 0) || decide (p.root = 0) || decide (7 < p.depth) || decide (p.sources = 0 ∨ 8 < p.sources)
    || decide (fieldAt p.cmd (24 + 4 * p.sources) (32 - 4 * p.sources) ≠ 0) || decide (p.cell % 16 ≠ 0)
    || decide (64 ≤ p.region) || !(s.lineRegion p.region).enabled || decide ((s.lineRegion p.region).rootSize < p.cell + 16)

/-- Change the running pull. -/
def State.onPull (s : State) (p : Pull) : State :=
  { s with dir := { s.dir with pulls := match s.dir.pulls with
    | [] => []
    | _ :: rest => p :: rest } }

/-- The running pull ends: its status word is written with release at device scope (R429, R450). -/
def State.pullOver (s : State) (p : Pull) (status : Nat) : State :=
  let s := { s.unwait (.pull p.addr) with dir := { s.dir with pulls := s.dir.pulls.drop 1 } }
  if p.statA = 0 ∨ p.statA % 8 ≠ 0 ∨ s.mapped p.statA = false then s
  else s.storeDevAt p.statA (natBytes 8 (status % 2 ^ 16)) (s.lineRegion p.region).ctx 0

/-- It fails: every reference it added is released. -/
def State.pullFails (s : State) (p : Pull) (status : Nat) : State :=
  State.pullOver { s with dir := p.made.foldl Dir.decr s.dir } p status

/-! ### Fetching the lines (R429) -/

/-- No source gave the line: the status. -/
def Pull.refused (p : Pull) : Nat := if p.badHash then 5 else if p.badKind then 3 else 2

/-- Ask for the first line of the list, from the next source; a source that is no member answers NONAME at once. -/
def askLine : Nat → Pull → State → State
  | 0, p, s => s.pullFails p p.refused
  | n + 1, p, s =>
    match p.todo with
    | [] => s.onPull p
    | (name, _) :: _ =>
      let d := p.source ((p.j + p.tries) % p.sources)
      if p.sources ≤ p.tries then s.pullFails p p.refused
      else if !s.member.isMember d then askLine n { p with tries := p.tries + 1 } s
      else (s.sendTo d 0 (.lineRequest d name p.region)).onPull p

/-- What a reply is worth for a name at a level. -/
def lineAccepted (salt : Nat) (name : LineName) (level : Nat) (node : Bool) (bs : List Byte) : Bool × Bool :=
  (node == decide (0 < level), decide (bs.length = 256) && decide (digestPart (nameOf salt bs 0) = digestPart name))

/-- A reply reaches the running pull. -/
def State.pullReply (s : State) (p : Pull) (reply : LineReply) : State :=
  match p.todo with
  | [] => s
  | (name, level) :: rest =>
    let again (p : Pull) : State := askLine (p.sources + 1) { p with tries := p.tries + 1 } s
    match reply with
    | .noName => again p
    | .line node bs =>
      let ok := lineAccepted (s.lineRegion p.region).salt name level node bs
      if ok.1 && ok.2 then
        let kids := if node then ((childNames bs).filter (· != 0)).map (fun c => (c, level - 1)) else []
        askLine (p.sources + 1) { p with todo := kids ++ rest, got := (name, node, bs) :: p.got, j := p.j + 1, tries := 0,
                                         badHash := false, badKind := false } s
      else again { p with badHash := p.badHash || !ok.2, badKind := p.badKind || !ok.1 }

/-- PULL_LINE_REPLY: the reply of a source to the request of the running pull. -/
def execPullLineReply (reply : LineReply) (s : State) : Res :=
  match s.dir.pulls with
  | p :: _ => if p.running && !p.todo.isEmpty then .next (s.pullReply p reply) else stall s
  | [] => stall s

/-! ### Entering them (R275, R429) -/

/-- Enter one line under its name: an equal line gains a reference, a new one takes a place and counts its children. -/
def State.enterLine (s : State) (p : Pull) (name : LineName) (node : Bool) (bs : List Byte) (rest : List (LineName × Bool × List Byte)) :
    State :=
  let s := s.reclaimed
  let d := s.dir
  let k := p.region
  let r := s.lineRegion k
  let p := { p with got := rest, made := name :: p.made }
  match d.entry name with
  | some e =>
    if e.region = k ∧ e.node = node ∧ s.holdsLine e bs = true then
      if e.pending.isSome then s else State.onPull { s with dir := d.incr name } p
    else s.pullFails { p with made := p.made.drop 1 } 7
  | none =>
    let here := d.entries.filter (fun e => d.bucket e.name == d.bucket name)
    let pend := (d.entries.filter (fun e => e.region == k && e.pending.isSome)).length
    match d.freeSlot with
    | none => s.pullFails { p with made := p.made.drop 1 } 4
    | some slot =>
      if 8 ≤ here.length ∨ (r.quota ≠ 0 ∧ r.quota ≤ r.live + pend) then s.pullFails { p with made := p.made.drop 1 } 4
      else if s.settling (d.slotAddr slot) then s
      else
        let s := s.storeDevAt (d.slotAddr slot) bs 0 0
        let e : DirEntry := { name := name, node := node, region := k, slot := slot, count := 1, pending := none }
        let kids := if node then (childNames bs).filter (· != 0) else []
        let d := kids.foldl Dir.incr s.dir
        State.onPull { s with dir := Dir.onLive { d with entries := e :: d.entries } k (· + 1) } p

/-- The step at the root cell: a null cell receives the root, with its reference; the others added are released. A cell
that cannot be reached has no status of its own in the manual: the status word is a free value. -/
def State.pullCell (s : State) (p : Pull) : State :=
  let r := s.lineRegion p.region
  let unstated (s : State) : State := s.useFree.pullFails p (Config.freeWord s.free).toNat
  let q := s.engineAsker (.pull p.addr) 0 r.ctx none
  match s.engineXlat q (r.rootVa + p.cell) .store with
  | (s, .wait) => s
  | (s, .at_ (.dev pa)) =>
    if s.poisoned pa then unstated (s.engineUncorr q (r.rootVa + p.cell))
    else
      let s := s.loadTouch (span pa 16) false 0
      if bytesNat (s.devBytes pa 16) ≠ 0 then s.pullFails p 6
      else
        let s := s.storeDevAt pa (nameBytes p.root) r.ctx 0
        State.pullOver { s with dir := (p.made.drop 1).foldl Dir.decr s.dir } p 0
  | (s, _) => unstated s

/-- PULL_START: the engine begins the next queued pull; a pull whose lines are all here enters the next of them, and last
writes its root cell. -/
def execPullStart (s : State) : Res :=
  match s.dir.pulls with
  | [] => stall s
  | p :: _ =>
    if p.running then
      if !p.todo.isEmpty then stall s
      else
        match p.got with
        | (name, node, bs) :: rest => .next (s.enterLine p name node bs rest)
        | [] => .next (s.pullCell p)
    else if s.settling p.addr then stall s
    else if !(span p.addr 64).all s.mapped then .next { s with dir := { s.dir with pulls := s.dir.pulls.drop 1 } }
    else if s.poisoned p.addr then
      .next (State.logError { s with dir := { s.dir with pulls := s.dir.pulls.drop 1 } } 13 2 0 0 0 0 (p.addr / 1024 * 1024))
    else
      let s := s.loadTouch (span p.addr 64) false 0
      let p := { p with cmd := s.devBytes p.addr 64, running := true }
      if s.pullBad p then .next (s.pullOver p 1)
      else .next (askLine (p.sources + 1) { p with todo := [(p.root, p.depth)] } s)

/-- JOIN_DOORBELL: a command is queued; 16 wait or run at a time. -/
def execJoinDoorbell (addr : Nat) (s : State) : Res :=
  if 16 ≤ s.dir.pulls.length ∨ addr % 64 ≠ 0 then stall s
  else
    let p : Pull := { addr := addr, cmd := [], running := false, todo := [], got := [], made := [], j := 0, tries := 0,
                      badHash := false, badKind := false }
    .next { s with dir := { s.dir with pulls := s.dir.pulls ++ [p] } }

end Sys2Proof.Machine
end

