-- ==== Sys2Proof/Machine/Membership.lean ====
section
/-! DEFINITION. Membership (R412 to R419), adoption of pilots (R424 to R426), and the securing triggers (R431, R443). -/

namespace Sys2Proof.Machine

/-! ### The arbiter (R416, R417) -/

/-- The acting arbiter of the domain. -/
def Member.arbiter (m : Member) : Word := if m.arbGone then m.stby else m.arb

/-- Where a report that names a device goes. -/
def Member.reportTo (m : Member) (named : Word) : Word := if named = m.arb then m.stby else m.arbiter

/-- A working member of the domain: the engine is on, and the device is in state MEMBER. -/
def Member.active (m : Member) : Bool := m.on && decide (m.state = 2)

def State.setMember (s : State) (m : Member) : State := { s with member := m }

/-- Change the monitor of a direction. -/
def State.monitor (s : State) (d : Nat) : MonitorState := Sparse.get MonitorState.idle s.member.monitors d
def State.setMonitor (s : State) (d : Nat) (x : MonitorState) : State :=
  s.setMember { s.member with monitors := Sparse.put s.member.monitors d x }

/-- Every direction whose neighbour position is a device. -/
def State.directionsOf (s : State) (dev : Word) : List Nat :=
  (List.range 6).filter (fun d => decide (neighbour s.member.devId d = dev))

/-! ### Applying an update (R418, R419) -/

/-- A ticket of RINV or LAUNCHX after a device is expelled. -/
def TicketSlot.names (x : TicketSlot) (dev : Word) : Bool :=
  x.final.isNone && (if x.launchx = 0 then decide (x.target = dev) && x.retryAt.isNone else x.members.contains dev)

/-- The tickets that wait for an expelled device are answered: UNREACHABLE, or MEMBERFAIL of its rank. -/
def State.answerExpelled (s : State) (dev : Word) : State :=
  (s.slots.filter (fun x => x.names dev)).foldl (fun s x =>
    if x.launchx = 0 then s.answerTicket x.ticket (.nak invUnreachable)
    else s.memberAnswer x.ticket (x.members.idxOf dev) (goneStatus x.launchx) 0) s

/-- The communicators whose active table names a device. -/
def State.commsNaming (s : State) (dev : Word) : List Nat :=
  (s.coll.comms.filter (fun e => match e.2.active with
    | some t => (s.tableIds t).contains dev
    | none => false)).map (·.1)

/-- The request of the running pull to an expelled source is answered NONAME (R429). -/
def State.pullExpelled (s : State) (dev : Word) : State :=
  match s.dir.pulls with
  | p :: _ =>
    if p.running && !p.todo.isEmpty && decide (p.source ((p.j + p.tries) % p.sources) = dev) then s.pullReply p .noName else s
  | [] => s

/-- The device itself has been expelled (R419). -/
def State.expelled (s : State) : State :=
  (s.coll.comms.map (·.1)).foldl State.staleComm (s.setMember { s.member with state := 3 })

/-- The management controller records an applied generation with its IEEE 1588 time: seconds and nanoseconds (R418). -/
def State.recordGen (s : State) (gen : BitVec 64) : State :=
  s.setMember { s.member with applied := s.member.applied ++ [(gen, s.ptpNow.1, s.ptpNow.2)] }

/-- Apply an update of a higher generation. -/
def State.applyUpdate (s : State) (gen : BitVec 64) (dev : Word) : State :=
  let m := s.member
  let s := s.setMember { m with
    gen := gen, vacant := if m.vacant.contains dev then m.vacant else m.vacant ++ [dev], lastDev := dev,
    reports := m.reports.filter (fun r => r.2 != dev), arbGone := m.arbGone || decide (dev = m.arb),
    expl := Nat.min 0xFFFF (m.expl + 1), expelTimes := ((s.sinceCold / 2000) :: m.expelTimes).take 17 }
  let s := (s.directionsOf dev).foldl (fun s d => s.setMonitor d { s.monitor d with state := .vacant }) (s.recordGen gen)
  let s := (List.range 6).foldl (fun s d =>
    let n := neighbour m.devId d
    s.sendTo n 0 (.update (some n) gen dev)) s
  let s := (s.commsNaming dev).foldl State.staleComm s
  let s := ((s.answerExpelled dev).pullExpelled dev).send (.msix 5)
  if dev = m.devId then s.expelled else s

/-- MEMBERSHIP_UPDATE: an update of no higher generation does nothing. -/
def execMembershipUpdate (gen : BitVec 64) (dev : Word) (s : State) : Res :=
  if !s.member.on || decide (gen.toNat ≤ s.member.gen.toNat) then stall s else .next (s.applyUpdate gen dev)

/-! ### Reports (R417) -/

/-- This device judges a report that names a device. -/
def Member.judges (m : Member) (named : Word) : Bool := m.active && decide (m.reportTo named = m.devId)

/-- Two neighbours of a position. -/
def isNeighbour (a b : Word) : Bool := (List.range 6).any (fun d => decide (neighbour a d = b))

/-- The arbiter expels a device: the update goes to every device of the domain, this one included. -/
def State.expel (s : State) (dev : Word) : State :=
  let gen := s.member.gen + 1
  (s.send (.update none gen dev)).applyUpdate gen dev

/-- A report arrives at the arbiter. -/
def State.report (s : State) (reporter named : Word) : State :=
  let m := s.member
  if !m.judges named || !m.isMember named || !isNeighbour named reporter then s
  else
    let rs := if m.reports.contains (reporter, named) then m.reports else m.reports ++ [(reporter, named)]
    let s := s.setMember { m with reports := rs }
    if 2 ≤ (rs.filter (fun r => r.2 == named)).length then s.expel named else s

/-- A report is withdrawn. -/
def State.withdraw (s : State) (reporter named : Word) : State :=
  if !s.member.judges named then s
  else s.setMember { s.member with reports := s.member.reports.filter (fun r => r != (reporter, named)) }

/-- SUSPICION_REPORT and SUSPICION_WITHDRAWAL at this device. -/
def execSuspicionReport (reporter named : Word) (s : State) : Res := .next (s.report reporter named)
def execSuspicionWithdrawal (reporter named : Word) (s : State) : Res := .next (s.withdraw reporter named)

/-- Send a report or a withdrawal of this device to the arbiter, which may be this device. -/
def State.sendReport (s : State) (named : Word) : State :=
  let a := s.member.reportTo named
  if a = s.member.devId then s.report s.member.devId named else s.sendTo a 0 (.suspicion a named)

def State.sendWithdrawal (s : State) (named : Word) : State :=
  let a := s.member.reportTo named
  if a = s.member.devId then s.withdraw s.member.devId named else s.sendTo a 0 (.withdrawal a named)

/-- LATEST_UPDATE_REQUEST: the arbiter answers with the latest update. -/
def execLatestUpdateRequest (dev : Word) (s : State) : Res :=
  let m := s.member
  if m.active && decide (m.arbiter = m.devId) then .next (s.sendTo dev 0 (.update (some dev) m.gen m.lastDev)) else stall s

/-! ### Beacons and monitors (R415) -/

/-- BEACON_SEND: every 20 µs, which are 40,000 ck, on each torus port that is up. -/
def execBeaconSend (s : State) : Res :=
  let m := s.member
  if !m.active || decide (s.ck / 40000 ≤ m.beaconAt) then stall s
  else
    let s := s.setMember { m with beaconAt := s.ck / 40000 }
    .next (((List.range 12).filter (fun p => (s.port p).isUp)).foldl (fun s p => s.sendOn p (.beacon p m.devId m.gen m.state)) s)

/-- BEACON_RECEIVE: a beacon of the neighbour counts for the window; a higher generation makes the receiver ask for the
latest update. -/
def execBeaconReceive (dir : Nat) (src : Word) (gen : BitVec 64) (s : State) : Res :=
  if !s.member.on || decide (6 ≤ dir) || !((s.port (2 * dir)).isUp || (s.port (2 * dir + 1)).isUp) then stall s
  else
    let s := if neighbour s.member.devId dir = src then s.setMonitor dir { s.monitor dir with heard := true } else s
    if s.member.gen.toNat < gen.toNat then .next (s.sendTo s.member.arbiter 0 (.latestRequest s.member.arbiter)) else .next s

/-- MONITOR_WINDOW_END: the monitor of a direction judges its window of 20 µs, which are 40,000 ck, once it is over; a pilot,
which holds no position, has no neighbour. -/
def execMonitorWindowEnd (dir : Nat) (s : State) : Res :=
  if !s.member.on || isSpare s.member.devId || decide (6 ≤ dir) || decide (s.ck / 40000 ≤ (s.monitor dir).window) then stall s
  else
    let x := s.monitor dir
    let n := neighbour s.member.devId dir
    let go (st : Monitor) (since : Nat) : State := s.setMonitor dir { state := st, heard := false, since := since, window := s.ck / 40000 }
    match x.state with
    | .idle => .next (if (s.port (2 * dir)).everUp || (s.port (2 * dir + 1)).everUp then go .live 0 else go .idle 0)
    | .live => .next (go (if x.heard then .live else .miss1) 0)
    | .miss1 => .next (go (if x.heard then .live else .miss2) 0)
    | .miss2 => .next (if x.heard then go .live 0 else (go .suspect 0).sendReport n)
    | .suspect =>
      .next (if x.heard then (go .live 0).sendWithdrawal n
        else if 5 ≤ x.since + 1 then (go .suspect 0).sendReport n
        else go .suspect (x.since + 1))
    | .vacant => .next (go .vacant 0)

/-! ### Adoption (R419, R425, R426) -/

/-- The bits of ADOPT that a write sets. -/
def adoptBits (v : Word) : Word := v &&& 0x01FF1FFF

/-- ADOPT_GO: a pilot takes the position's id, its torus ports train, and its monitors start IDLE. -/
def execAdoptGo (value : Word) (s : State) : Res :=
  let m := { s.member with adopt := adoptBits value }
  if !value.getLsbD 31 || decide (m.state ≠ 0) || decide (4096 ≤ m.adopt.toNat % 2 ^ 13) then .next (s.setMember m)
  else
    let id := deviceId (m.adopt.toNat / 2 ^ 16) (m.adopt.toNat % 2 ^ 13)
    let s := s.setMember { m with devId := id, homeId := m.devId, state := 1, refused := false, adoptAt := s.ck, monitors := [] }
    .next ((List.range 12).foldl (fun s p =>
      let s := s.setPort p { s.port p with en := true, everUp := false }
      if (s.port p).state = 0 then s.trainPort p else s) s)

/-- The adoption fails: the device is a pilot under its own id again. -/
def State.adoptFails (s : State) : State :=
  let m := s.member
  s.setMember { m with state := 0, refused := true, devId := m.homeId }

/-- JOIN_ANSWER: admitted, the device is a member at the arbiter's generation, which is never lowered, and which stays as it is
while the membership engine is off (R416); refused, a pilot. -/
def execJoinAnswer (admitted : Bool) (gen : BitVec 64) (s : State) : Res :=
  let m := s.member
  if m.state ≠ 1 then stall s
  else if admitted then
    let s := s.setMember { m with state := 2 }
    .next (if m.on && decide (m.gen.toNat < gen.toNat) then (s.setMember { s.member with gen := gen }).recordGen gen else s)
  else .next s.adoptFails

/-- ADOPT_TIMEOUT: no torus port has come up within 1 s of GO. -/
def execAdoptTimeout (s : State) : Res :=
  if s.member.state ≠ 1 ∨ s.ck < s.member.adoptAt + 2000000000 ∨ ((List.range 12).any (fun p => (s.port p).everUp)) = true then stall s
  else .next ((List.range 12).foldl State.disablePort s.adoptFails)

/-- A position is a member again. -/
def State.unvacate (s : State) (dev : Word) : State :=
  let s := s.setMember { s.member with vacant := s.member.vacant.filter (fun d => d != dev) }
  (s.directionsOf dev).foldl (fun s d =>
    if (s.monitor d).state = .vacant then s.setMonitor d { state := .live, heard := false, since := 0, window := s.ck / 40000 + 1 } else s) s

/-- JOIN_REQUEST: the arbiter admits a device at a vacant position and tells the position's neighbours, or refuses it. -/
def execJoinRequest (dev : Word) (s : State) : Res :=
  let m := s.member
  if !(m.active && decide (m.arbiter = m.devId)) then stall s
  else if m.vacant.contains dev then
    let s := (s.unvacate dev).sendTo dev 0 (.joinAnswer dev true m.gen)
    .next ((List.range 6).foldl (fun s d =>
      let n := neighbour dev d
      if n = m.devId then s else s.sendTo n 0 (.admission n dev)) s)
  else .next (s.sendTo dev 0 (.joinAnswer dev false m.gen))

/-- ADMISSION_NOTICE: the neighbour's position is a member again. -/
def execAdmissionNotice (dev : Word) (s : State) : Res :=
  if !s.member.on || !isNeighbour s.member.devId dev then stall s else .next (s.unvacate dev)

/-! ### Securing (R431, R443) -/

/-- A selected trigger fires. -/
def State.secFires (s : State) (x : Group) : Bool :=
  let p := x.csr.secpol.toNat
  (decide (p % 2 = 1) && decide (p / 2 ^ 16 ≤ s.member.risk.toNat))
    || (rateMode x.csr.secpol && decide (x.rateFrom + s.member.interval * 2000 ≤ s.ck))

/-- SECPOL_EVAL: once in a microsecond, of 2,000 ck, a group evaluates its triggers; one that fires sets DUE. -/
def execSecpolEval (g : Nat) (s : State) : Res :=
  let x := s.group g
  if !x.resident || decide (s.ck / 2000 ≤ x.secAt) then stall s
  else
    let x := { x with secAt := s.ck / 2000 }
    .next (s.setGroup g (if x.csr.secpol.getLsbD 2 || !s.secFires x then x
      else { x with csr := { x.csr with secpol := x.csr.secpol ||| 4 }, dueSince := some s.ck }))

/-- RISK_UPDATE: the management controller's estimate. -/
def execRiskUpdate (risk : BitVec 16) (s : State) : Res := .next (s.setMember { s.member with risk := risk })

end Sys2Proof.Machine
end

