-- ==== Sys2Proof/Machine/ConfigWindow.lean ====
section
/-! DEFINITION. Writes to BAR 0 (R436) and to the privileged configuration window (R438, R439), in 4-byte accesses. -/

namespace Sys2Proof.Machine

/-! ### Words of fields -/

/-- Replace the low or the high word of a 64-bit field. -/
def putWord (x : Nat) (high : Bool) (v : Word) : Nat :=
  if high then v.toNat * 2 ^ 32 + x % 2 ^ 32 else x / 2 ^ 32 * 2 ^ 32 + v.toNat

/-- Replace member `i` of a list of `n`. -/
def setPadded {α : Type} (n : Nat) (d : α) (l : List α) (i : Nat) (x : α) : List α := (padded n d l).set i x

/-- Write the four bytes of a word at `o`. -/
def putBytes (m : Sparse Byte) (o : Nat) (v : Word) : Sparse Byte :=
  ((span o 4).zip (natBytes 4 v.toNat)).foldl (fun m w => Sparse.set 0 m w.1 w.2) m

/-- The enabled bit after a write: setting is refused unless `sets` holds, clearing while the structure is in use. -/
def enabledAfter (now new sets used : Bool) : Bool := if new then now || sets else now && used

/-! ### Contexts (R234, R438) -/

/-- A launch, an operation or a published window uses a context's entry. -/
def State.contextUsed (s : State) (ctx : Nat) : Bool :=
  s.runningContexts.contains ctx
    || s.hcls.any (fun h => h.2.copyQueue.any (fun c => c.ctx == ctx && c.status.isNone))
    || s.dies.any (fun d => d.2.graphs.any (fun g => g.ctx == ctx))
    || s.coll.flying.any (fun c => c.ctx == ctx && c.status.isNone)
    || s.host.windows.any (fun w => w.2.flags % 2 == 1 && w.2.ctx == ctx)

/-- ROOT keeps its rule. -/
def CtxEntry.rootOk (e : CtxEntry) : Bool := decide (e.root % 2 ^ 21 = 0) && decide (e.root < 2 ^ 40)

/-- FLAGS of a context-table entry after a write. -/
def CtxEntry.flagsAfter (e : CtxEntry) (v : Nat) (used : Bool) : Nat :=
  let now := e.flags % 2 == 1
  let on := enabledAfter now (v % 2 == 1) e.rootOk used
  (if now then e.flags / 2 else v / 2 % 2) * 2 + (if on then 1 else 0)

def State.writeContext (s : State) (o : Nat) (v : Word) : State :=
  let ctx := o / 64
  let e := s.ctxEntry ctx
  let e' :=
    if o % 64 = 16 then { e with flags := e.flagsAfter v.toNat (s.contextUsed ctx) }
    else if e.flags % 2 = 1 then e
    else
      match o % 64 with
      | 0 => { e with root := putWord e.root false v }
      | 4 => { e with root := putWord e.root true v }
      | 8 => { e with pasid := v &&& 0x000FFFFF }
      | 12 => { e with stbcfg := v &&& 0xFC00FFFF }
      | _ => e
  { s with host := { s.host with contexts := Sparse.put s.host.contexts ctx e' } }

/-! ### Address regions (R230) -/

def RegionMap.writeWord (r : RegionMap) (o : Nat) (v : Word) : RegionMap :=
  if o = 0 then { r with base := putWord r.base false v }
  else if o = 4 then { r with base := putWord r.base true v }
  else if o = 8 then { r with limit := putWord r.limit false v }
  else if o = 12 then { r with limit := putWord r.limit true v }
  else if 0x10 ≤ o ∧ o < 0x88 then { r with rows := setPadded 30 0 r.rows ((o - 0x10) / 4) v }
  else if 0x100 ≤ o ∧ o < 0x200 then
    { r with slots := ((span (o - 0x100) 4).zip (natBytes 4 v.toNat)).foldl (fun l w => setPadded 256 0 l w.1 w.2) r.slots }
  else r

/-- A write to a region's block: all but COMMIT go to the staged copy. -/
def State.writeRegion (s : State) (o : Nat) (v : Word) : State :=
  let x := s.region (o / 0x200)
  if o % 0x200 = 0x88 then (if v = 1 then s.commitRegion (o / 0x200) else s)
  else s.setRegion (o / 0x200) { x with staged := x.staged.writeWord (o % 0x200) v }

/-! ### The directory and its regions (R269, R427) -/

/-- A region is in use. -/
def State.lineRegionUsed (s : State) (k : Nat) : Bool :=
  decide ((s.lineRegion k).live ≠ 0)
    || s.dir.entries.any (fun e => e.region == k && e.pending.isSome)
    || s.hcls.any (fun h => h.2.copyQueue.any (fun c =>
      c.kind == .caout && c.status.isNone && s.regionOf c.ctx (caoutOf c.bytes).rgn 1 == some k))
    || s.dir.pulls.any (fun p => p.running && p.region == k)

/-- CTX, FLAGS and the reserved bytes of a region share a word. -/
def Region.writeFlags (r : Region) (v : Nat) (used : Bool) : Region :=
  let now := r.flags % 2 == 1
  let on := enabledAfter now (v / 2 ^ 16 % 2 == 1) true used
  let low := if on then 1 else 0
  if now then { r with flags := r.flags / 2 * 2 + low }
  else { r with ctx := if r.live = 0 then v % 2 ^ 12 else r.ctx, flags := v / 2 ^ 17 % 2 * 2 + low }

def Region.writeWord (r : Region) (o : Nat) (v : Word) (used : Bool) : Region :=
  if o = 20 then r.writeFlags v.toNat used
  else if r.enabled then r
  else
    match o with
    | 0 => if r.live = 0 then { r with salt := putWord r.salt false v } else r
    | 4 => if r.live = 0 then { r with salt := putWord r.salt true v } else r
    | 8 => { r with rootVa := putWord r.rootVa false v }
    | 12 => { r with rootVa := putWord r.rootVa true v }
    | 16 => { r with rootSize := v.toNat }
    | 24 => { r with quota := v.toNat }
    | _ => r

def Dir.writeWord (d : Dir) (o : Nat) (v : Word) : Dir :=
  match o with
  | 0 => { d with base := putWord d.base false v }
  | 4 => { d with base := putWord d.base true v }
  | 8 => { d with log := v.toNat % 2 ^ 8 }
  | 16 => { d with lineBase := putWord d.lineBase false v }
  | 20 => { d with lineBase := putWord d.lineBase true v }
  | 24 => { d with lineCount := putWord d.lineCount false v }
  | 28 => { d with lineCount := putWord d.lineCount true v }
  | _ => d

def State.writeDirectory (s : State) (o : Nat) (v : Word) : State :=
  if o < 64 then { s with dir := s.dir.writeWord o v }
  else
    let k := (o - 64) / 32
    if 64 ≤ k then s
    else
      let r := (s.lineRegion k).writeWord ((o - 64) % 32) v (s.lineRegionUsed k)
      { s with dir := { s.dir with regions := Sparse.put s.dir.regions k r } }

/-! ### Published windows (R264) -/

/-- A write of CTX and FLAGS: enabling clears VER and publishes half P0; a PUBLISH in progress uses the window. -/
def Window.writeFlags (x : Window) (v : Nat) : Window :=
  let now := x.flags % 2 == 1
  let on := enabledAfter now (v / 2 ^ 16 % 2 == 1) true (!x.busy.isEmpty)
  let low := if on then 1 else 0
  if now then { x with flags := x.flags / 2 * 2 + low }
  else
    let p0 := v / 2 ^ 17 % 2 == 1
    let x := { x with ctx := v % 2 ^ 12, flags := v / 2 ^ 17 % 2 * 2 + low }
    if on then { x with ver := 0, p := p0 } else x

def Window.writeWord (x : Window) (o : Nat) (v : Word) : Window :=
  if o = 20 then x.writeFlags v.toNat
  else if x.flags % 2 = 1 then x
  else
    match o with
    | 0 => { x with half0 := putWord x.half0 false v }
    | 4 => { x with half0 := putWord x.half0 true v }
    | 8 => { x with half1 := putWord x.half1 false v }
    | 12 => { x with half1 := putWord x.half1 true v }
    | 16 => { x with size := v.toNat }
    | 24 => { x with vera := putWord x.vera false v }
    | 28 => { x with vera := putWord x.vera true v }
    | _ => x

def State.writeWindow (s : State) (o : Nat) (v : Word) : State :=
  if 64 ≤ o / 32 then s else s.setWindow (o / 32) ((s.window (o / 32)).writeWord (o % 32) v)

/-! ### Communicators (R387), staged tables (R420), replicated regions (R396) -/

/-- A collective or a VRLD on the communicator is in flight. -/
def State.commUsed (s : State) (c : Nat) : Bool :=
  s.coll.flying.any (fun y => y.comm == c && y.status.isNone) || s.replicaFlying c

/-- A write of CTX, FLAGS and ELEM: enabling sets STALE. -/
def Comm.writeFlags (x : Comm) (v : Nat) (used : Bool) : Comm :=
  let on := enabledAfter x.on (v / 2 ^ 16 % 2 == 1) true used
  if x.on then { x with flags := x.flags / 2 * 2 + (if on then 1 else 0) }
  else { x with ctx := v % 2 ^ 12, elem := v / 2 ^ 24, flags := if on then 3 else x.flags / 2 * 2 }

def Comm.writeWord (x : Comm) (o : Nat) (v : Word) (used : Bool) : Comm :=
  if o = 0 then x.writeFlags v.toNat used
  else if x.on then x
  else
    match o with
    | 4 => { x with p := v.toNat }
    | 8 => { x with rank := v.toNat }
    | 12 => { x with f := v.toNat % 2 ^ 8 }
    | 16 => { x with statBase := putWord x.statBase false v }
    | 20 => { x with statBase := putWord x.statBase true v }
    | _ => x

def State.writeComm (s : State) (o : Nat) (v : Word) : State :=
  let c := o / 32
  s.setComm c ((s.comm c).writeWord (o % 32) v (s.commUsed c))

def RankTable.writeWord (t : RankTable) (o : Nat) (v : Word) : RankTable :=
  match o with
  | 0 => { t with gen := BitVec.ofNat 64 (putWord t.gen.toNat false v) }
  | 4 => { t with gen := BitVec.ofNat 64 (putWord t.gen.toNat true v) }
  | 8 => { t with base := putWord t.base false v }
  | 12 => { t with base := putWord t.base true v }
  | 16 => { t with p := v.toNat }
  | 20 => { t with rank := v.toNat }
  | 24 => { t with tableId := v }
  | 28 => { t with nlist := v.toNat % 2 ^ 8, valid := v.getLsbD 8 }
  | _ => t

def State.writeTable (s : State) (o : Nat) (v : Word) : State :=
  let x := s.comm (o / 32)
  s.setComm (o / 32) { x with staged := x.staged.writeWord (o % 32) v }

/-- An entry holds its base, then its size with the communicator in the 16 low bits that a multiple of 64 KiB leaves zero. -/
def State.writeReplica (s : State) (o : Nat) (v : Word) : State :=
  let k := o / 16
  let r := Sparse.get (0, 0, 0) s.coll.replicas k
  let r' := match o % 16 with
    | 0 => (putWord r.1 false v, r.2)
    | 4 => (putWord r.1 true v, r.2)
    | 8 => (r.1, putWord r.2.1 false (v &&& 0xFFFF0000), v.toNat % 2 ^ 16)
    | _ => (r.1, putWord r.2.1 true v, r.2.2)
  { s with coll := { s.coll with replicas := Sparse.put s.coll.replicas k r' } }

/-! ### Handlers (R400) -/

/-- An invocation that waits in a queue names the handler. -/
def Inv.names (x : Inv) (h : Nat) : Bool := (List.range 4).any (fun p => (x.queue p).any (fun i => recHidx i.record == h))

def State.writeHandler (s : State) (o : Nat) (v : Word) : State :=
  let h := o / 32
  let flags := (Sparse.get 0 s.inv.handlers (32 * h + 17)).toNat
  let put (s : State) (m : Sparse Byte) : State := { s with inv := { s.inv with handlers := m } }
  if flags / 8 % 2 = 0 then put s (putBytes s.inv.handlers o v)
  else if o % 32 = 16 ∧ v.getLsbD 11 = false ∧ s.inv.names h = false then
    put s (Sparse.set 0 s.inv.handlers (32 * h + 17) (BitVec.ofNat 8 (flags - 8)))
  else s

/-! ### The membership block and ADOPT (R416, R425) -/

/-- The word of FLAGS: setting the enabled bit is refused while MTBE0, ARB or a zero field breaks its rule. -/
def Member.writeFlags (m : Member) (v : Nat) : Member :=
  let ok := decide (m.mtbe0.toNat ≤ 4294) && decide (m.arb ≠ m.stby) && decide (v / 2 = 0)
  { m with flags := if enabledAfter m.on (v % 2 == 1) ok false then 1 else 0 }

def Member.writeWord (m : Member) (o : Nat) (v : Word) : Member :=
  if o = 12 then m.writeFlags v.toNat
  else if m.on then m
  else
    match o with
    | 0 => { m with arb := v }
    | 4 => { m with stby := v }
    | 8 => { m with mtbe0 := v }
    | _ => if 16 ≤ o ∧ o < 80 then { m with pods := putBytes m.pods (o - 16) v } else m

/-- ADOPT without GO: POD and SLOT. -/
def State.writeMember (s : State) (o : Nat) (v : Word) : State :=
  if o = 0x100 then s.setMember { s.member with adopt := adoptBits v } else s.setMember (s.member.writeWord o v)

/-! ### Ports and routes (R382, R383, R385) -/

/-- PORTSTAT.EN clear disables the port; the pod route table stands behind the ports' registers. -/
def State.writePort (s : State) (o : Nat) (v : Word) : State :=
  if 0x400 ≤ o then
    State.flushHeld { s with fabric := { s.fabric with routes := Sparse.set 0 s.fabric.routes ((o - 0x400) / 4) v } }
  else if o % 0x40 = 0 ∧ v.getLsbD 28 = false then s.disablePort (o / 0x40)
  else s

/-! ### The retire table (R366), SPILLBASE and JBASE -/

def State.writeRetire (s : State) (o : Nat) (v : Word) : State :=
  let j := (o - 4) / 4
  let e := Sparse.get 0 s.ras.retire j
  if o < 4 ∨ 1024 ≤ j then s
  else if e.getLsbD 31 ∧ v.getLsbD 31 = false then s.clearRetired j
  else { s with ras := { s.ras with retire := Sparse.put s.ras.retire j (v &&& 0x80FFFFFF) } }

def State.writeSpill (s : State) (o : Nat) (v : Word) : State :=
  match o with
  | 0 => { s with sched := { s.sched with spillBase := putWord s.sched.spillBase false v } }
  | 4 => { s with sched := { s.sched with spillBase := putWord s.sched.spillBase true v } }
  | 8 => { s with sched := { s.sched with spillSize := putWord s.sched.spillSize false v } }
  | 12 => { s with sched := { s.sched with spillSize := putWord s.sched.spillSize true v } }
  | 0x100 => if s.inv.journalOn then s else { s with inv := { s.inv with jbase := putWord s.inv.jbase false v } }
  | 0x104 => if s.inv.journalOn then s else { s with inv := { s.inv with jbase := putWord s.inv.jbase true v } }
  | _ => s

/-! ### The windows -/

/-- A write at an offset of the privileged configuration window. -/
def State.writeConfig (s : State) (o : Nat) (v : Word) : State :=
  if o < 0x40000 then s.writeContext o v
  else if o < 0x41000 then s.writeRegion (o - 0x40000) v
  else if o < 0x50000 then s
  else if o < 0x60000 then s.writeDirectory (o - 0x50000) v
  else if o < 0x70000 then s.writeWindow (o - 0x60000) v
  else if o < 0x72000 then s.writeComm (o - 0x70000) v
  else if o < 0x74000 then s.writeTable (o - 0x72000) v
  else if o < 0x174000 then s.writeReplica (o - 0x74000) v
  else if o < 0x180000 then s
  else if o < 0x1A0000 then s.writeHandler (o - 0x180000) v
  else if o < 0x1B0000 then s.writeMember (o - 0x1A0000) v
  else if o < 0x1C0000 then s.writePort (o - 0x1B0000) v
  else if o < 0x1D0000 then s.writeRetire (o - 0x1C0000) v
  else if o < 0x1E0000 then s
  else if o < 0x1F0000 then s.writeSpill (o - 0x1E0000) v
  else s

/-- The fields of the fault queue that have no row of their own: what is held back may then be written (R343). -/
def State.writeFaultQueue (s : State) (o : Nat) (v : Word) : State :=
  let r := s.ras
  let r := match o with
    | 0 => { r with fqBase := putWord r.fqBase false v }
    | 4 => { r with fqBase := putWord r.fqBase true v }
    | 8 => { r with fqLog := v.toNat }
    | _ => r
  fqFlush r.held { s with ras := r }

/-- A write at an offset of BAR 0: the invocation slots, PRECMD, JCFG, the fault queue, START.PILOT, the configuration window and the
firmware load window. Offsets whose write has a row of its own are not written here. -/
def State.writeBar0 (s : State) (o : Nat) (v : Word) : State :=
  if o < 0x4000 then { s with inv := { s.inv with slots := putBytes s.inv.slots o v } }
  else if o = 0x5010 then s.writePrecmd v
  else if o = 0x5030 then { s with inv := { s.inv with jcfg := v &&& 0x8000001F } }
  else if 0x5040 ≤ o ∧ o < 0x504C then s.writeFaultQueue (o - 0x5040) v
  else if o = 0x5104 then { s with boot := { s.boot with pilot := v.getLsbD 3 } }
  else if 0x800000 ≤ o ∧ o < 0x1000000 then s.writeConfig (o - 0x800000) v
  else if 0x2000000 ≤ o ∧ o < 0x3000000 then { s with host := { s.host with image := putBytes s.host.image (o - 0x2000000) v } }
  else s

/-- CONFIG_WRITE: one 4-byte access at a multiple of 4. -/
def execConfigWrite (offset : Nat) (value : Word) (s : State) : Res :=
  if offset % 4 = 0 then .next (s.writeBar0 offset value) else stall s

end Sys2Proof.Machine
end

