-- ==== Sys2Proof/Machine/LaneCross.lean ====
section
/-! DEFINITION. Cross-lane instructions (R164, R165, R182 to R187) with the orders of sums of R95 and R96. -/

namespace Sys2Proof.Machine

/-- Lanes in a section (R165). -/
def Block.section (b : Block) : Nat := 2 ^ (b.part.toNat % 8 + 1)

/-- The first lane of each section. -/
def sectionBases (n : Nat) : List Nat := (List.range (32 / n)).map (n * ·)

/-- The first lane of a lane's section. -/
def baseOf (n i : Nat) : Nat := n * (i / n)

/-- A lane of a register as a cross-lane instruction reads it (R182). -/
def Lane.value (l : Lane) (x : Group) (r i : Nat) : Word := if l.act.getLsbD i then x.rv r i else x.rvPresent r i

/-- VSTAT.ABSENT: some member is not active; so too where no lane is (assumption 143). -/
def Lane.absent (l : Lane) (x : Group) : Group := if l.members &&& ~~~l.act = 0 then x else x.orVstat vstatAbsent

/-! ### VSHFL (R183) -/

/-- The source lane of lane `i` with amount `b`. -/
def shuffleFrom (mode n b i : Nat) : Nat :=
  let base := baseOf n i
  match mode with
  | 0 => base + b % n
  | 1 => if base + b ≤ i then i - b else i
  | 2 => if i + b < base + n then i + b else i
  | _ => i ^^^ (b % n)

def shuffleOp (i : Instr) (f : LA) (s : State) : Res :=
  laneOp i f.kq Need.plain s fun l s =>
    let x := s.me
    let n := l.b.section
    let from_ (j : Nat) : Nat := shuffleFrom f.sub.toNat n (if f.imm? then f.imm.toNat % 32 else (x.rv f.vb.toNat j).toNat) j
    let rs := (lanesOf l.act).map (fun j => (j, LaneRes.plain [l.value x f.va.toNat (from_ j)]))
    let gone := (lanesOf l.act).any (fun j => !l.act.getLsbD (from_ j))
    laneResults l f.vd.toNat rs (s.setMe (if gone then x.orVstat vstatAbsent else x))

def execVshflIdx (f : LA) (s : State) : Res := shuffleOp (.vshflIdx f) f s
def execVshflUp (f : LA) (s : State) : Res := shuffleOp (.vshflUp f) f s
def execVshflDown (f : LA) (s : State) : Res := shuffleOp (.vshflDown f) f s
def execVshflXor (f : LA) (s : State) : Res := shuffleOp (.vshflXor f) f s

/-! ### VVOTE and VMATCH (R184, R185) -/

/-- The active lanes of lane `i`'s section. -/
def Lane.peers (l : Lane) (i : Nat) : List Nat :=
  (span (baseOf l.b.section i) l.b.section).filter (fun j => l.act.getLsbD j)

/-- Write bits of mask kd: those of the lanes `which`, set where `yes` holds. -/
def voteOp (i : Instr) (f : LA) (which : Lane → List Nat) (yes : Lane → (Nat → Word) → Nat → Bool) (s : State) : Res :=
  laneOp i f.kq Need.plain s fun l s =>
    let x := s.me
    let ws := which l
    let bits := maskOf (ws.filter (yes l (x.rv f.va.toNat)))
    laneRetire l (s.setMe ((l.absent x).putMask (f.vd.toNat % 16) (maskOf ws) bits))

/-- The active lanes. -/
def Lane.lanes (l : Lane) : List Nat := lanesOf l.act

/-- Every lane of each section that holds an active lane. -/
def Lane.sections (l : Lane) : List Nat := (List.range 32).filter (fun i => !(l.peers i).isEmpty)

def execVvoteAny (f : LA) (s : State) : Res :=
  voteOp (.vvoteAny f) f Lane.lanes (fun l v i => (l.peers i).any (fun j => v j != 0)) s
def execVvoteAll (f : LA) (s : State) : Res :=
  voteOp (.vvoteAll f) f Lane.lanes (fun l v i => (l.peers i).all (fun j => v j != 0)) s
def execVvoteBallot (f : LA) (s : State) : Res :=
  voteOp (.vvoteBallot f) f Lane.sections (fun l v i => l.act.getLsbD i && v i != 0) s
def execVvoteUni (f : LA) (s : State) : Res :=
  voteOp (.vvoteUni f) f Lane.lanes (fun l v i => (l.peers i).all (fun j => (v j != 0) == (v i != 0))) s
def execVmatchAny (f : LA) (s : State) : Res :=
  voteOp (.vmatchAny f) f Lane.lanes (fun l v i => (l.peers i).any (fun j => j != i && v j == v i)) s
def execVmatchAll (f : LA) (s : State) : Res :=
  voteOp (.vmatchAll f) f Lane.lanes (fun l v i => (l.peers i).all (fun j => v j == v i)) s

/-! ### VRED and VSCAN (R95, R96, R186) -/

/-- The identity of an operation on a type: 0 add, 1 min, 2 max, 3 and, 4 or, 5 xor. -/
def foldIdentity (op ty : Nat) : Nat :=
  let w := elemBits ty
  if isFloat ty then
    let t := fmtOf ty
    match op with
    | 0 => t.signBit true
    | 1 => t.infBits
    | _ => t.signBit true + t.infBits
  else
    match op with
    | 1 => intBits w (elemHigh ty w)
    | 2 => intBits w (elemLow ty w)
    | 3 => 2 ^ w - 1
    | _ => 0

/-- One step on two encodings. -/
def foldStep (op ty a b : Nat) : FRes :=
  let w := elemBits ty
  if isFloat ty then
    let t := fmtOf ty
    match op with
    | 0 => t.add 0 0 (t.val a) (t.val b)
    | 1 => t.minMax false true a b
    | _ => t.minMax true true a b
  else
    { flags := 0, bits := match op with
        | 0 => (a + b) % 2 ^ w
        | 1 => if elemInt ty w a ≤ elemInt ty w b then a else b
        | 2 => if elemInt ty w a ≤ elemInt ty w b then b else a
        | 3 => a &&& b
        | 4 => a ||| b
        | _ => a ^^^ b }

/-- One level of the tree: neighbours combined, the lower one on the left. -/
def foldPairs (op ty : Nat) : List FRes → List FRes
  | a :: b :: rest =>
    let r := foldStep op ty a.bits b.bits
    { bits := r.bits, flags := a.flags ||| b.flags ||| r.flags } :: foldPairs op ty rest
  | l => l

/-- The tree over 2^n values, with every flag raised in it. -/
def foldTree (op ty : Nat) : Nat → List FRes → FRes
  | 0, l => l.headD { bits := 0, flags := 0 }
  | n + 1, l => foldTree op ty n (foldPairs op ty l)

/-- What each lane of a section contributes: its value where active, else the identity. -/
def sectionTerms (f : LA) (op : Nat) (l : Lane) (x : Group) (base : Nat) : List FRes :=
  (span base l.b.section).map (fun i =>
    { bits := if l.act.getLsbD i then srcA f x i else foldIdentity op f.ty.toNat, flags := 0 })

def reduceOp (i : Instr) (f : LA) (op : Nat) (s : State) : Res :=
  laneOp i f.kq Need.plain s fun l s =>
    let x := s.me
    let ty := f.ty.toNat
    let tree (base : Nat) : FRes := foldTree op ty (l.b.part.toNat % 8 + 1) (sectionTerms f op l x base)
    let rs := (sectionBases l.b.section).flatMap (fun base =>
      let r := tree base
      ((span base l.b.section).filter (fun j => l.act.getLsbD j)).map (fun j =>
        (j, ({ words := resultWords ty r.bits, flags := r.flags, vstat := 0 } : LaneRes))))
    laneResults l f.vd.toNat rs (s.setMe (l.absent x))

def execVredAdd (f : LA) (s : State) : Res := reduceOp (.vredAdd f) f 0 s
def execVredMin (f : LA) (s : State) : Res := reduceOp (.vredMin f) f 1 s
def execVredMax (f : LA) (s : State) : Res := reduceOp (.vredMax f) f 2 s
def execVredAnd (f : LA) (s : State) : Res := reduceOp (.vredAnd f) f 3 s
def execVredOr (f : LA) (s : State) : Res := reduceOp (.vredOr f) f 4 s
def execVredXor (f : LA) (s : State) : Res := reduceOp (.vredXor f) f 5 s

/-- The prefixes of a section: each lane's predecessor's inclusive value, its own, and the flags of its own step. -/
def prefixes (op ty : Nat) (before : Nat) : List FRes → List (Nat × Nat × Nat)
  | [] => []
  | a :: rest =>
    let r := foldStep op ty before a.bits
    (before, r.bits, r.flags) :: prefixes op ty r.bits rest

def scanOp (i : Instr) (f : LA) (op : Nat) (s : State) : Res :=
  laneOp i f.kq Need.plain s fun l s =>
    let x := s.me
    let ty := f.ty.toNat
    let rs := (sectionBases l.b.section).flatMap (fun base =>
      ((span base l.b.section).zip (prefixes op ty (foldIdentity op ty) (sectionTerms f op l x base))).filterMap (fun e =>
        if l.act.getLsbD e.1 then
          let v := if f.m.getLsbD 1 then e.2.1 else e.2.2.1
          some (e.1, ({ words := resultWords ty v, flags := e.2.2.2, vstat := 0 } : LaneRes))
        else none))
    laneResults l f.vd.toNat rs (s.setMe (l.absent x))

def execVscanAdd (f : LA) (s : State) : Res := scanOp (.vscanAdd f) f 0 s
def execVscanMin (f : LA) (s : State) : Res := scanOp (.vscanMin f) f 1 s
def execVscanMax (f : LA) (s : State) : Res := scanOp (.vscanMax f) f 2 s
def execVscanAnd (f : LA) (s : State) : Res := scanOp (.vscanAnd f) f 3 s
def execVscanOr (f : LA) (s : State) : Res := scanOp (.vscanOr f) f 4 s
def execVscanXor (f : LA) (s : State) : Res := scanOp (.vscanXor f) f 5 s

end Sys2Proof.Machine
end

