-- ==== Sys2Proof/Machine/Matrix.lean ====
section
/-! DEFINITION. The matrix engine and the accumulator store (R288 to R310): issue of matrix instructions, fragments, and
their execution in engine order. -/

namespace Sys2Proof.Machine

/-! ### Shapes and fragments (R292 to R294) -/

/-- The block type of a shape; none for the floating shapes. -/
def shapeType (shape : Nat) : Option Nat :=
  match shape with
  | 2 => some 14
  | 3 => some 13
  | 4 => some 12
  | _ => none

/-- The floating format of a shape. -/
def shapeFmt (shape : Nat) : FFmt := match shape with
  | 0 => bf16
  | 1 => f16
  | _ => f32

/-- Depth K of a shape. -/
def shapeDepth (shape : Nat) : Nat :=
  match shape with
  | 0 => 16
  | 1 => 16
  | 5 => 8
  | 4 => 64
  | _ => 32

/-- Bits of an element in its register. -/
def shapeBits (shape : Nat) : Nat :=
  match shape with
  | 0 => 16
  | 1 => 16
  | 5 => 32
  | 4 => 4
  | _ => 8

/-- The register (from the base), the lane and the place in its word of element `k` of line `n` of a fragment (R292). -/
def fragPlace (shape n k : Nat) : Nat × Nat × Nat :=
  let w := shapeDepth shape / 8
  (n / 4, 8 * (n % 4) + k / w, k % w)

/-- The bits of element `k` of line `n` of the fragment at register `base`. -/
def Group.fragBits (x : Group) (shape base n k : Nat) : Nat :=
  let p := fragPlace shape n k
  elemAt (shapeBits shape) p.2.2 (x.rv (base + p.1) p.2.1).toNat

/-- The value of element `k` of line `n` of a fragment with exponent base `e` (R293). -/
def Group.fragVal (x : Group) (shape base e n k : Nat) : FVal :=
  let b := x.fragBits shape base n k
  match shapeType shape with
  | none => (shapeFmt shape).val b
  | some ty =>
    let r := n / 4
    let i := shapeDepth shape * (n % 4) + k
    let c := e + (if ty = 12 then r / 4 else r / 8)
    let w := x.expWord ty r c (i / 16)
    elemVal (blockP ty) (sByte (w % 256)) (muOf (w / 256) (i % 16)) (elemOfReg ty b)

/-- A line of a fragment. -/
def Group.fragLine (x : Group) (shape base e n : Nat) : List FVal :=
  (List.range (shapeDepth shape)).map (x.fragVal shape base e n)

/-! ### Exact sums (R97, R297) -/

/-- An exact product. -/
def FVal.times (x y : FVal) : FVal :=
  match x, y with
  | .nan _, _ => .nan false
  | _, .nan _ => .nan false
  | .fin a m e, .fin b n k => .fin (a != b) (m * n) (e + k)
  | _, _ => if x.isZero || y.isZero then .nan false else .inf (x.neg != y.neg)

/-- The smallest exponent of finite numbers; 0 for none. -/
def leastExp : List FVal → Int
  | [] => 0
  | [v] => (match v with
    | .fin _ _ e => e
    | _ => 0)
  | v :: rest => (match v with
    | .fin _ _ e => min e (leastExp rest)
    | _ => leastExp rest)

/-- The exact sum of finite numbers in units of 2^k. -/
def sumUnits (k : Int) (vs : List FVal) : Int :=
  vs.foldl (fun t v => match v with
    | .fin n m e => t + inUnits n m e k
    | _ => t) 0

/-- The exact sum of products: an exact zero is −0 only when every product is −0. -/
def exactSum (vs : List FVal) : FVal :=
  if vs.any (·.isNan) then .nan false
  else if vs.any (·.isInf) then
    let infs := vs.filter (·.isInf)
    if infs.any (·.neg) && infs.any (fun v => !v.neg) then .nan false else .inf (infs.any (·.neg))
  else
    let k := leastExp vs
    let t := sumUnits k vs
    if t = 0 then .fin (vs.all (fun v => v.isZero && v.neg)) 0 0 else .fin (decide (t < 0)) t.natAbs k

/-- c := round(c + round(±t)). -/
def accStep (negate : Bool) (c : Nat) (t : FVal) : Nat :=
  let u := (f32.convert 0 0 (if negate then t.negate else t)).bits
  (f32.add 0 0 (f32.val c) (f32.val u)).bits

/-- The flags of W0 [23:16] (R296, R300). -/
def ltOverwrite (f : LT) : Bool := f.flags.getLsbD 0
def ltNegate (f : LT) : Bool := f.flags.getLsbD 1

/-- One element of MMA (R297): its row of A, its column of B and the old word. -/
def mmaElem (f : LT) (a b : List FVal) (old : Nat) : Nat :=
  let ps := List.zipWith FVal.times a b
  let groups := (shapeDepth f.shape.toNat + 15) / 16
  (List.range groups).foldl (fun c g => accStep (ltNegate f) c (exactSum ((ps.drop (16 * g)).take 16)))
    (if ltOverwrite f then 0x80000000 else old)

/-! ### MMAS (R298, R299) -/

/-- The bitmap register of MMAS. -/
def ltBitmap (f : LT) : Nat := f.md.toNat + shapeMeta f.shape.toNat

/-- Live slices of the bitmap in lane 0. -/
def liveSlices (f : LT) (x : Group) : List Nat :=
  (List.range (shapeDepth f.shape.toNat / 8)).filter (fun t => (x.rv (ltBitmap f) 0).getLsbD t)

/-- Bits of lane 0 at and above K/8 are not zero. -/
def bitmapBad (f : LT) (x : Group) : Bool :=
  decide ((x.rv (ltBitmap f) 0).toNat / 2 ^ (shapeDepth f.shape.toNat / 8) ≠ 0)

/-- The index of stored element 8t + e of column j. -/
def sparseIndex (f : LT) (x : Group) (t j e : Nat) : Nat :=
  elemAt 2 e (elemAt 16 (j % 2) (x.rv (f.md.toNat + t) (j / 2)).toNat)

/-- A row of A of logical depth 2K: two halves. -/
def sparseRow (f : LT) (x : Group) (i : Nat) : List FVal :=
  let sh := f.shape.toNat
  x.fragLine sh f.a.toNat f.ea.toNat i ++ x.fragLine sh (f.a.toNat + 16) (f.ea.toNat + shapeExp sh) i

/-- The products of slice `t` for one element. -/
def sliceProducts (a b : List FVal) (idx : Nat → Nat) (t : Nat) : List FVal :=
  (List.range 8).map (fun e =>
    (b.getD (8 * t + e) (.fin false 0 0)).times (a.getD (16 * t + 4 * (e / 2) + idx e) (.fin false 0 0)))

/-- One element of MMAS. -/
def mmasElem (f : LT) (live : List Nat) (a b : List FVal) (idx : Nat → Nat → Nat) (old : Nat) : Nat :=
  if live.isEmpty && ltOverwrite f then 0
  else live.foldl (fun c t => accStep (ltNegate f) c (exactSum (sliceProducts a b (idx t) t)))
    (if ltOverwrite f then 0x80000000 else old)

/-! ### Accumulator words (R288) -/

/-- Key of acc[i][j]. -/
def accKey (i j : Nat) : Nat := 256 * i + j

/-- An accumulator word; one that nothing has written since the contents became undefined is a free value (assumption 3). -/
def Core.accWord (c : Core) (i j : Nat) : Word := (Sparse.find c.acc (accKey i j)).getD (Config.freeAcc c.accEpoch (accKey i j))

def Core.setAcc (c : Core) (i j : Nat) (v : Word) : Core := { c with acc := Sparse.put c.acc (accKey i j) v }

/-- Write the n × n block at the instruction's origin from a function of row and column. -/
def Core.setTile (c : Core) (f : LT) (n : Nat) (v : Nat → Nat → Word) : Core :=
  (List.range n).foldl (fun c i => (List.range n).foldl (fun c j =>
    c.setAcc (16 * f.row0.toNat + i) (16 * f.col0.toNat + j) (v i j)) c) c

/-- The word of the block at the instruction's origin. -/
def Core.tileWord (c : Core) (f : LT) (i j : Nat) : Word := c.accWord (16 * f.row0.toNat + i) (16 * f.col0.toNat + j)

/-! ### Execution -/

/-- The tile of MMA. -/
def mmaTile (f : LT) (x : Group) (c : Core) : Core :=
  let sh := f.shape.toNat
  let bs := (List.range 64).map (x.fragLine sh f.b.toNat f.eb.toNat)
  let rows := (List.range 64).map (fun i =>
    let a := x.fragLine sh f.a.toNat f.ea.toNat i
    (bs.zip (List.range 64)).map (fun b => mmaElem f a b.1 (c.tileWord f i b.2).toNat))
  c.setTile f 64 (fun i j => BitVec.ofNat 32 ((rows.getD i []).getD j 0))

/-- The tile of MMAS. -/
def mmasTile (f : LT) (x : Group) (c : Core) : Core :=
  let sh := f.shape.toNat
  let live := liveSlices f x
  let bs := (List.range 64).map (x.fragLine sh f.b.toNat f.eb.toNat)
  let rows := (List.range 64).map (fun i =>
    let a := sparseRow f x i
    (bs.zip (List.range 64)).map (fun b =>
      mmasElem f live a b.1 (fun t e => sparseIndex f x t b.2 e) (c.tileWord f i b.2).toNat))
  c.setTile f 64 (fun i j => BitVec.ofNat 32 ((rows.getD i []).getD j 0))

/-- The k with A[i][k] not all zero bits (R300). -/
def selected (f : LT) (x : Group) (i : Nat) : List Nat :=
  let sh := f.shape.toNat
  (List.range (shapeDepth sh)).filter (fun k => decide (x.fragBits sh f.a.toNat i k ≠ 0))

/-- The tile of MPERM. -/
def mpermTile (f : LT) (x : Group) (c : Core) : Core :=
  let sel := (List.range 64).map (selected f x)
  c.setTile f 64 (fun i j => match sel.getD i [] with
    | [k] => BitVec.ofNat 32 (x.fragBits f.shape.toNat f.b.toNat j k)
    | _ => 0)

/-- Some row of the selector has more than one element. -/
def mpermMulti (f : LT) (x : Group) : Bool := (List.range 64).any (fun i => decide (1 < (selected f x i).length))

/-- The registers of MSTA (R301): lane l of register u holds row 2u + ⌊l/16⌋, column l mod 16. -/
def mstaRegs (f : LT) (c : Core) (x : Group) : Group :=
  (List.range 8).foldl (fun x u => (List.range 32).foldl (fun x l =>
    x.wv (f.a.toNat + u) l (c.tileWord f (2 * u + l / 16) (l % 16))) x) x

/-- The block of MLDA. -/
def mldaBlock (f : LT) (x : Group) (c : Core) : Core :=
  c.setTile f 16 (fun i j => x.rv (f.a.toNat + i / 2) (16 * (i % 2) + j))

/-- MCPY.st: the tile's words go to scratchpad words, whose full/empty bits stay (R302). -/
def mcpyOut (f : LT) (c : Core) (off : Nat) (t : Core) : Core :=
  (List.range 64).foldl (fun t i => (List.range 64).foldl (fun (t : Core) j =>
    let w := off / 4 + 64 * i + j
    t.setScr w { t.scrWord w with data := c.tileWord f i j }) t) t

/-- The effect of an executed matrix instruction of the engine of core `k`. -/
def State.runMatrix (s : State) (k : Nat) (e : EngineOp) : State :=
  let c := s.core k
  let x := s.group e.g
  match e.instr with
  | .mma f => s.setCore k (mmaTile f x c)
  | .mmas f => s.setCore k (mmasTile f x c)
  | .mperm f => (s.setCore k (mpermTile f x c)).setGroup e.g (x.giveVstat e.id (if mpermMulti f x then vstatMulti else 0) true)
  | .mzero f => s.setCore k (c.setTile f 64 (fun _ _ => 0))
  | .mlda f => s.setCore k (mldaBlock f x c)
  | .msta f => s.setGroup e.g (mstaRegs f c x)
  | .mcpySt f => s.setCore e.core (mcpyOut f c e.off (s.core e.core))
  | .mcpyLd f =>
    let t := s.core e.core
    s.setCore k (c.setTile f 64 (fun i j => (t.scrWord (e.off / 4 + 64 * i + j)).data))
  | _ => s

/-- Instructions under the residue check (R308). -/
def residueChecked : Instr → Bool
  | .mma _ | .mmas _ | .mperm _ => true
  | _ => false

/-- Blocks of a group whose MSTA results are now all written leave the block class (R19). -/
def State.drainBlocks (s : State) (g : Nat) : State :=
  let x := s.group g
  s.setGroup g { x with draining := x.draining.filter ((s.coreOfGroup g).blockBusy g) }

/-- A residue mismatch is recorded: unit 9, class 4. The manual gives its SYND no value: a free one. -/
def State.residueRecord (s : State) (e : EngineOp) (flags : Nat) : State :=
  (s.logError 9 4 flags e.ctx (locCode e.g e.slotB) (Config.freeWord s.free).toNat 0).useFree

/-- MATRIX_EXECUTE (R303, R308): the oldest matrix instruction of a core's engine executes; `residue` counts its failed
residue checks, of which the second ends the context. -/
def execMatrixExecute (core residue : Nat) (s : State) : Res :=
  let c := s.core core
  match c.engine with
  | [] => stall s
  | e :: rest =>
    let s := s.setCore core { c with engine := rest }
    let fails := if residueChecked e.instr then residue else 0
    if 2 ≤ fails then
      .next (State.terminate (s.residueRecord e (2 + 16)) e.ctx causeUncorr 9 0 (locCode e.g e.slotB)
        (s.group e.g).ident.team.ticket 0 0 0 0 0 0 0 0)
    else
      let s := (s.runMatrix core e).drainBlocks e.g
      .next (if fails = 1 then s.residueRecord e 1 else s)

/-! ### Issue (R289, R294, R295, R307) -/

/-- What every matrix instruction needs: all lanes and the flame. -/
def matrixNeed : Need := { Need.plain with all := true, flame := true }

/-- ILLFMT of a block shape (R84, R295). -/
def matrixFormatBad (f : LT) (x : Group) (b : Block) : Bool :=
  match shapeType f.shape.toNat with
  | none => false
  | some ty =>
    let w := x.rfmt f.fmt.toNat
    frecBad w b.frm || !inSet w ty || frecDepthBad w (shapeDepth f.shape.toNat)

/-- The single registers of runs. -/
def runRegs (rs : List (Nat × Nat)) : List Nat := rs.flatMap (fun r => span r.1 r.2)

/-- MPERM's update of VSTAT is known when it executes (R26, R300). -/
def Group.awaitMulti (x : Group) : Instr → Group
  | .mperm _ => x.awaitVstat x.seq
  | _ => x

/-- A matrix instruction enters the engine's queue of 8; its source registers are locked until its batch retires. -/
def matrixEnter (l : Lane) (i : Instr) (core off : Nat) (s : State) : Res :=
  let g := s.cur.g
  let x := s.me
  let c := s.coreOfGroup g
  if 8 ≤ c.engine.length then stall s
  else
    let op : EngineOp := { g := g, id := x.seq, instr := i, ctx := x.ident.ctx, core := core, off := off,
                           slotB := l.b.slotB, block := l.b.seq }
    let s := s.setMe { (x.awaitMulti i).bump with locks := x.locks ++ [(x.seq, l.b.seq, runRegs (formOf i).reads)] }
    laneRetire l (s.setCore (coreOf g) { c with engine := c.engine ++ [op] })

/-- Issue a matrix instruction that names no memory. -/
def matrixOp (i : Instr) (need : Need) (s : State) : Res :=
  laneOp i 0 need s fun l s => matrixEnter l i 0 0 s

def execMma (f : LT) (s : State) : Res := matrixOp (.mma f) { matrixNeed with badFormat := matrixFormatBad f } s
def execMmas (f : LT) (s : State) : Res :=
  laneOp (.mmas f) 0 { matrixNeed with badFormat := matrixFormatBad f } s fun l s =>
    if bitmapBad f s.me then laneIllegal l 0 s else matrixEnter l (.mmas f) 0 0 s
def execMperm (f : LT) (s : State) : Res := matrixOp (.mperm f) matrixNeed s
def execMzero (f : LT) (s : State) : Res := matrixOp (.mzero f) matrixNeed s
def execMlda (f : LT) (s : State) : Res := matrixOp (.mlda f) matrixNeed s

/-- A register that a matrix instruction in no batch holds read-locked. -/
def Group.openLocked (x : Group) (rs : List (Nat × Nat)) : Bool :=
  { x with locks := x.locks.filter (fun l => !x.inBatch l.2.1) }.lockedV rs

/-- MSTA (R301): a destination locked by an open instruction raises ILLEGAL. -/
def execMsta (f : LT) (s : State) : Res :=
  match s.me.headBlock with
  | none => .fault .noBlock
  | some b =>
    let l := s.me.laneAt b (laneWord (.msta f)) 0
    if (s.issueTrap l (formOf (.msta f)) 0 matrixNeed).isNone && s.me.openLocked (formOf (.msta f)).writes then
      laneIllegal l 0 s
    else matrixOp (.msta f) matrixNeed s

/-- MCPY (R302): its checks at issue. -/
def mcpyCheck (r : Rec) (s : State) (hcl o : Nat) (store : Bool) : Option Raised :=
  if r.cls ≠ 1 ∨ r.swz ≠ 0 ∨ r.pitch ≠ 0 ∨ r.refused = true then some (raised causeIllegal 0)
  else if r.limit s hcl < o + 16384 ∨ (if store then r.wr else r.rd) = false then some (raised causeBounds fullMask)
  else if (r.base + o) % 4 ≠ 0 then some (raised causeAlign fullMask)
  else none

/-- Issue an MCPY: it follows the group's earlier accesses that could meet its words. -/
def mcpyOp (i : Instr) (f : LT) (store : Bool) (s : State) : Res :=
  let n := f.a.toNat / 16
  if s.me.pendingB [n] then stall s
  else
    laneOp i 0 matrixNeed s fun l s =>
      let hcl := hclOf s.cur.g
      let r := recOf (s.me.rb n)
      let o := (s.me.rv f.b.toNat 0).toNat
      match mcpyCheck r s hcl o store with
      | some t => laneRaise l t s
      | none =>
        if s.me.acquiring || !s.me.stores.isEmpty || s.me.laneLoadsFirst then stall s
        else matrixEnter l i (r.scrCore hcl) (r.base % 2 ^ 21 + o) s

def execMcpySt (f : LT) (s : State) : Res := mcpyOp (.mcpySt f) f true s
def execMcpyLd (f : LT) (s : State) : Res := mcpyOp (.mcpyLd f) f false s

end Sys2Proof.Machine
end

