-- ==== Sys2Proof/Machine/VmEvents.lean ====
section
/-! DEFINITION. The events of translation (R237, R240, R242, R243), of page faults (R344), and of the fault queue's head
(R343). -/

namespace Sys2Proof.Machine

/-- The PASID of a context (R438). -/
def State.pasid (s : State) (ctx : Nat) : Nat := (s.ctxEntry ctx).pasid.toNat

/-- Send an ATS Translation Request for a walk that met a host leaf (R242). -/
def State.askHost (s : State) (w : Walk) (e : Nat) : State :=
  let id := s.vm.nextHostReq
  let r : HostReq := { id := id, walk := w, read := pteBit e 2, write := pteBit e 3, dirty := pteBit e 7, denied := false, pri := false,
                       second := false }
  State.send { s with vm := { s.vm with hostReqs := s.vm.hostReqs ++ [r], nextHostReq := id + 1 } }
    (.ats id (s.pasid w.first.ctx) w.va)

/-- A walk ends (R237): a translation is cached, or its accesses meet a fault. -/
def State.walkEnds (s : State) (w : Walk) : State :=
  match s.walk w.first.ctx w.va w.kind with
  | (s, .leaf va size base e) =>
    if pteBit e 5 then s.askHost w e else s.tlbFill (leafEntry w.first.hcl w.first.ctx va size base e)
  | (s, .hold) => { s with vm := { s.vm with walks := s.vm.walks ++ [w] } }
  | (s, .uncorr) => s.walkFault w.first w.va w.kind 256 w.va w.askers
  | (s, .fault r a) => s.walkFault w.first w.va w.kind r a w.askers

/-- Place `k` of the walks asked for is in flight: each die's walker has its first 64, the others wait (R240). -/
def State.walking (s : State) (k : Nat) (w : Walk) : Bool :=
  decide (((s.vm.walks.take k).filter (fun v => dieOfHcl v.first.hcl == dieOfHcl w.first.hcl)).length < 64)

/-- TABLE_WALK_COMPLETE: the walk at place `k` of those in flight ends. -/
def execTableWalkComplete (k : Nat) (s : State) : Res :=
  match s.vm.walks[k]? with
  | none => stall s
  | some w => if !s.walking k w then stall s else .next (State.walkEnds { s with vm := { s.vm with walks := s.vm.walks.eraseIdx k } } w)

/-! ### Host pages (R242, R243) -/

def State.dropHostReq (s : State) (id : Nat) : State :=
  { s with vm := { s.vm with hostReqs := s.vm.hostReqs.filter (fun r => r.id != id) } }

def State.setHostReq (s : State) (id : Nat) (f : HostReq → HostReq) : State :=
  { s with vm := { s.vm with hostReqs := s.vm.hostReqs.map (fun r => if r.id = id then f r else r) } }

/-- Send the Page Request of the oldest denied request, while fewer than 256 are outstanding. -/
def State.sendPri (s : State) : State :=
  match s.vm.hostReqs.find? (fun r => r.denied && !r.pri) with
  | none => s
  | some r =>
    if 256 ≤ (s.vm.hostReqs.filter (·.pri)).length then s
    else (s.setHostReq r.id (fun r => { r with pri := true })).send
      (.pri r.id (s.pasid r.walk.first.ctx) r.walk.va r.walk.kind.isStore)

/-- The host and the leaf grant what the access needs. -/
def HostReq.grants (r : HostReq) (a : AtsReply) : Bool :=
  match r.walk.kind with
  | .load => r.read && a.read
  | .store => r.write && a.write
  | .fetch => a.read

/-- The cached translation of a host range of 2^log bytes, 4 KiB or larger. -/
def HostReq.entry (r : HostReq) (a : AtsReply) : TlbEntry :=
  let size := 2 ^ Nat.max 12 a.log
  { hcl := r.walk.first.hcl, ctx := r.walk.first.ctx, va := r.walk.va / size * size, size := size, base := a.base / size * size,
    host := true, read := r.read && a.read, write := r.write && a.write,
    exec := a.read && (match r.walk.kind with
      | .fetch => true
      | _ => false),
    dirtyOk := r.dirty }

/-- ATS_TRANSLATION_COMPLETION: the translation is cached, or a Page Request is due, or the access is refused. -/
def execAtsTranslationCompletion (id : Nat) (reply : AtsReply) (s : State) : Res :=
  match s.vm.hostReqs.find? (fun r => r.id == id && !r.denied) with
  | none => stall s
  | some r =>
    if r.grants reply then .next ((s.dropHostReq id).tlbFill (r.entry reply))
    else if r.second then
      .next ((s.dropHostReq id).walkFault r.walk.first r.walk.va r.walk.kind reasonHostRefused r.walk.va r.walk.askers)
    else .next (State.sendPri (s.setHostReq id (fun r => { r with denied := true })))

/-- PRI_RESPONSE: success causes one new ATS request, anything else refuses the access. -/
def execPriResponse (id : Nat) (success : Bool) (s : State) : Res :=
  match s.vm.hostReqs.find? (fun r => r.id == id && r.pri) with
  | none => stall s
  | some r =>
    if success then
      let s := s.setHostReq id (fun r => { r with denied := false, pri := false, second := true })
      .next (State.sendPri (s.send (.ats id (s.pasid r.walk.first.ctx) r.walk.va)))
    else
      let s := (s.dropHostReq id).walkFault r.walk.first r.walk.va r.walk.kind reasonHostRefused r.walk.va r.walk.askers
      .next s.sendPri

/-- A cached host translation of this PASID meets a range. -/
def State.atsMeets (s : State) (pasid va size : Nat) (e : TlbEntry) : Bool :=
  e.host && decide (s.pasid e.ctx = pasid) && decide (e.va < va + size) && decide (va < e.va + e.size)

/-- An access to host memory by a context of this PASID has not completed. -/
def State.hostOutstanding (s : State) (pasid : Nat) : Bool :=
  s.groups.any (fun x => decide (s.pasid x.2.ident.ctx = pasid)
    && (x.2.loads.any (fun l => l.accs.any (fun a => match a.loc with
          | some (.host _) => true
          | _ => false))
        || x.2.stores.any (fun e => match e.kind with
          | .bytes ws => ws.any (fun w => match w.loc with
              | some (.host _) => true
              | _ => false)
          | .discard _ _ | .reduce _ _ _ _ => false)))

/-- ATS_INVALIDATION_REQUEST (R242): taken up once the accesses that used matching translations have completed; the
entries are dropped and the request is answered. -/
def execAtsInvalidationRequest (pasid va size : Nat) (s : State) : Res :=
  if s.hostOutstanding pasid then stall s
  else
    let s := { s with vm := { s.vm with tlb := s.vm.tlb.filter (fun e => !s.atsMeets pasid va size e) } }
    .next (s.send (.atsInvalidated pasid va size))

/-! ### Answers to page faults (R344) -/

/-- A request is answered: it stands no longer. -/
def State.answerFault (s : State) (id : Nat) (f : Waiter → Option Waiter) : State :=
  let one (w : Waiter) : Option Waiter := if w.id = id then f w else some w
  if id = 0 then s
  else { s with vm := { s.vm with faults := s.vm.faults.filter (fun f => f.id != id),
                                  waiters := s.vm.waiters.filterMap one } }

/-- PAGE_FAULT_RETRY: every waiting access walks again. An unknown id is ignored. -/
def execPageFaultRetry (id : Nat) (s : State) : Res := .next (s.answerFault id (fun _ => none))

/-- PAGE_FAULT_REFUSE: every waiting access of a group ends in PAGE with reason 8, every waiting engine access fails. An
unknown id is ignored. -/
def execPageFaultRefuse (id : Nat) (s : State) : Res :=
  .next (s.answerFault id (fun w => some { w with id := 0, reason := reasonRefused }))

/-- FAULT_QUEUE_HEAD_WRITE (R343): a head that would leave more than the ring holds is ignored; room lets held records be
written. -/
def execFaultQueueHeadWrite (value : Word) (s : State) : Res :=
  if 2 ^ s.ras.fqLog < (s.ras.fqTail - value).toNat then stall s
  else
    let s := { s with ras := { s.ras with fqHead := value } }
    .next (fqFlush s.ras.held s)

end Sys2Proof.Machine
end

