-- ==== Sys2Proof/Machine/Dispatch.lean ====
section
/-! DEFINITION. One arm for each instruction and event: a direct call of its meaning. -/

namespace Sys2Proof.Machine

def exec (i : Instr) (s : State) : Host.Outcome State Fault Refusal :=
  match i with
  | .nop => Sys2Proof.Machine.execNop s
  | .add d a b => Sys2Proof.Machine.execAdd d a b s
  | .sub d a b => Sys2Proof.Machine.execSub d a b s
  | .mul d a b => Sys2Proof.Machine.execMul d a b s
  | .mulh d a b => Sys2Proof.Machine.execMulh d a b s
  | .mulhn d a b => Sys2Proof.Machine.execMulhn d a b s
  | .div d a b => Sys2Proof.Machine.execDiv d a b s
  | .divn d a b => Sys2Proof.Machine.execDivn d a b s
  | .rem d a b => Sys2Proof.Machine.execRem d a b s
  | .remn d a b => Sys2Proof.Machine.execRemn d a b s
  | .and d a b => Sys2Proof.Machine.execAnd d a b s
  | .or d a b => Sys2Proof.Machine.execOr d a b s
  | .xor d a b => Sys2Proof.Machine.execXor d a b s
  | .andn d a b => Sys2Proof.Machine.execAndn d a b s
  | .shl d a b => Sys2Proof.Machine.execShl d a b s
  | .shr d a b => Sys2Proof.Machine.execShr d a b s
  | .sar d a b => Sys2Proof.Machine.execSar d a b s
  | .rotl d a b => Sys2Proof.Machine.execRotl d a b s
  | .min d a b => Sys2Proof.Machine.execMin d a b s
  | .max d a b => Sys2Proof.Machine.execMax d a b s
  | .minn d a b => Sys2Proof.Machine.execMinn d a b s
  | .maxn d a b => Sys2Proof.Machine.execMaxn d a b s
  | .seq d a b => Sys2Proof.Machine.execSeq d a b s
  | .sne d a b => Sys2Proof.Machine.execSne d a b s
  | .slt d a b => Sys2Proof.Machine.execSlt d a b s
  | .sltn d a b => Sys2Proof.Machine.execSltn d a b s
  | .sle d a b => Sys2Proof.Machine.execSle d a b s
  | .slen d a b => Sys2Proof.Machine.execSlen d a b s
  | .clz d a => Sys2Proof.Machine.execClz d a s
  | .popc d a => Sys2Proof.Machine.execPopc d a s
  | .brev d a => Sys2Proof.Machine.execBrev d a s
  | .add64 d a b => Sys2Proof.Machine.execAdd64 d a b s
  | .sub64 d a b => Sys2Proof.Machine.execSub64 d a b s
  | .shl64 d a b => Sys2Proof.Machine.execShl64 d a b s
  | .shr64 d a b => Sys2Proof.Machine.execShr64 d a b s
  | .sar64 d a b => Sys2Proof.Machine.execSar64 d a b s
  | .movp d a => Sys2Proof.Machine.execMovp d a s
  | .selz d a b => Sys2Proof.Machine.execSelz d a b s
  | .addi d a imm => Sys2Proof.Machine.execAddi d a imm s
  | .andi d a imm => Sys2Proof.Machine.execAndi d a imm s
  | .ori d a imm => Sys2Proof.Machine.execOri d a imm s
  | .xori d a imm => Sys2Proof.Machine.execXori d a imm s
  | .shli d a imm => Sys2Proof.Machine.execShli d a imm s
  | .shri d a imm => Sys2Proof.Machine.execShri d a imm s
  | .sari d a imm => Sys2Proof.Machine.execSari d a imm s
  | .slti d a imm => Sys2Proof.Machine.execSlti d a imm s
  | .sltni d a imm => Sys2Proof.Machine.execSltni d a imm s
  | .lih d imm => Sys2Proof.Machine.execLih d imm s
  | .muli d a imm => Sys2Proof.Machine.execMuli d a imm s
  | .kand d a b => Sys2Proof.Machine.execKand d a b s
  | .kor d a b => Sys2Proof.Machine.execKor d a b s
  | .kxor d a b => Sys2Proof.Machine.execKxor d a b s
  | .kandn d a b => Sys2Proof.Machine.execKandn d a b s
  | .knot d a => Sys2Proof.Machine.execKnot d a s
  | .kmov d a => Sys2Proof.Machine.execKmov d a s
  | .kset d x => Sys2Proof.Machine.execKset d x s
  | .kget a x => Sys2Proof.Machine.execKget a x s
  | .kpop a x => Sys2Proof.Machine.execKpop a x s
  | .kff a x => Sys2Proof.Machine.execKff a x s
  | .xmset a => Sys2Proof.Machine.execXmset a s
  | .xmget d => Sys2Proof.Machine.execXmget d s
  | .b c r d => Sys2Proof.Machine.execB c r d s
  | .bk c k d => Sys2Proof.Machine.execBk c k d s
  | .j d => Sys2Proof.Machine.execJ d s
  | .call d => Sys2Proof.Machine.execCall d s
  | .ji a => Sys2Proof.Machine.execJi a s
  | .calli a => Sys2Proof.Machine.execCalli a s
  | .ret => Sys2Proof.Machine.execRet s
  | .loopImm l c e => Sys2Proof.Machine.execLoopImm l c e s
  | .loopReg l r e => Sys2Proof.Machine.execLoopReg l r e s
  | .loopx => Sys2Proof.Machine.execLoopx s
  | .brd k d => Sys2Proof.Machine.execBrd k d s
  | .jset d => Sys2Proof.Machine.execJset d s
  | .join => Sys2Proof.Machine.execJoin s
  | .brx v p n => Sys2Proof.Machine.execBrx v p n s
  | .callx v p n => Sys2Proof.Machine.execCallx v p n s
  | .retx => Sys2Proof.Machine.execRetx s
  | .lrun k r b => Sys2Proof.Machine.execLrun k r b s
  | .trap c => Sys2Proof.Machine.execTrap c s
  | .tret => Sys2Proof.Machine.execTret s
  | .brk c => Sys2Proof.Machine.execBrk c s
  | .csrr d c => Sys2Proof.Machine.execCsrr d c s
  | .csrw a c => Sys2Proof.Machine.execCsrw a c s
  | .csrs a c => Sys2Proof.Machine.execCsrs a c s
  | .csrc a c => Sys2Proof.Machine.execCsrc a c s
  | .waitc b l r c t => Sys2Proof.Machine.execWaitc b l r c t s
  | .waitb a => Sys2Proof.Machine.execWaitb a s
  | .tbatch d => Sys2Proof.Machine.execTbatch d s
  | .fenceAcquire r => Sys2Proof.Machine.execFenceAcquire r s
  | .fenceRelease r => Sys2Proof.Machine.execFenceRelease r s
  | .fenceFull r => Sys2Proof.Machine.execFenceFull r s
  | .fenceS r w => Sys2Proof.Machine.execFenceS r w s
  | .publish a => Sys2Proof.Machine.execPublish a s
  | .phend => Sys2Proof.Machine.execPhend s
  | .bar => Sys2Proof.Machine.execBar s
  | .give n => Sys2Proof.Machine.execGive n s
  | .claim n => Sys2Proof.Machine.execClaim n s
  | .flameTake => Sys2Proof.Machine.execFlameTake s
  | .flamePass a => Sys2Proof.Machine.execFlamePass a s
  | .rtswap a => Sys2Proof.Machine.execRtswap a s
  | .genr d => Sys2Proof.Machine.execGenr d s
  | .discard b => Sys2Proof.Machine.execDiscard b s
  | .sleep n => Sys2Proof.Machine.execSleep n s
  | .exit k => Sys2Proof.Machine.execExit k s
  | .launch d a => Sys2Proof.Machine.execLaunch d a s
  | .graph d a b => Sys2Proof.Machine.execGraph d a b s
  | .cpy d a => Sys2Proof.Machine.execCpy d a s
  | .collSumAi d a r2 r3 => Sys2Proof.Machine.execCollSumAi d a r2 r3 s
  | .collSumFix d a r2 r3 => Sys2Proof.Machine.execCollSumFix d a r2 r3 s
  | .collMax d a r2 r3 => Sys2Proof.Machine.execCollMax d a r2 r3 s
  | .collMin d a r2 r3 => Sys2Proof.Machine.execCollMin d a r2 r3 s
  | .collGather d a r2 r3 => Sys2Proof.Machine.execCollGather d a r2 r3 s
  | .collRscatAi d a r2 r3 => Sys2Proof.Machine.execCollRscatAi d a r2 r3 s
  | .collRscatFix d a r2 r3 => Sys2Proof.Machine.execCollRscatFix d a r2 r3 s
  | .collBcast d a r2 r3 => Sys2Proof.Machine.execCollBcast d a r2 r3 s
  | .collA2a d a r2 r3 => Sys2Proof.Machine.execCollA2a d a r2 r3 s
  | .rinv d a f n p r m => Sys2Proof.Machine.execRinv d a f n p r m s
  | .rinvw d a => Sys2Proof.Machine.execRinvw d a s
  | .launchxRsv d a => Sys2Proof.Machine.execLaunchxRsv d a s
  | .launchxCmt d a => Sys2Proof.Machine.execLaunchxCmt d a s
  | .launchxAbt d a => Sys2Proof.Machine.execLaunchxAbt d a s
  | .swaproot d e w b => Sys2Proof.Machine.execSwaproot d e w b s
  | .rcadj d q x => Sys2Proof.Machine.execRcadj d q x s
  | .brld d b o imm => Sys2Proof.Machine.execBrld d b o imm s
  | .brnarAdd d o r => Sys2Proof.Machine.execBrnarAdd d o r s
  | .brnarMin d o r => Sys2Proof.Machine.execBrnarMin d o r s
  | .brnarRo d r => Sys2Proof.Machine.execBrnarRo d r s
  | .brget d b r => Sys2Proof.Machine.execBrget d b r s
  | .sld4 d b o imm => Sys2Proof.Machine.execSld4 d b o imm s
  | .sld8 d b o imm => Sys2Proof.Machine.execSld8 d b o imm s
  | .sst4 a b o imm => Sys2Proof.Machine.execSst4 a b o imm s
  | .sst8 a b o imm => Sys2Proof.Machine.execSst8 a b o imm s
  | .caout d a => Sys2Proof.Machine.execCaout d a s
  | .vadd f => Sys2Proof.Machine.execVadd f s
  | .vsub f => Sys2Proof.Machine.execVsub f s
  | .vmul f => Sys2Proof.Machine.execVmul f s
  | .vmulh f => Sys2Proof.Machine.execVmulh f s
  | .vmad f => Sys2Proof.Machine.execVmad f s
  | .vdiv f => Sys2Proof.Machine.execVdiv f s
  | .vrem f => Sys2Proof.Machine.execVrem f s
  | .vmin f => Sys2Proof.Machine.execVmin f s
  | .vmax f => Sys2Proof.Machine.execVmax f s
  | .vabs f => Sys2Proof.Machine.execVabs f s
  | .vneg f => Sys2Proof.Machine.execVneg f s
  | .vand f => Sys2Proof.Machine.execVand f s
  | .vor f => Sys2Proof.Machine.execVor f s
  | .vxor f => Sys2Proof.Machine.execVxor f s
  | .vnot f => Sys2Proof.Machine.execVnot f s
  | .vshl f => Sys2Proof.Machine.execVshl f s
  | .vshr f => Sys2Proof.Machine.execVshr f s
  | .vsar f => Sys2Proof.Machine.execVsar f s
  | .vrot f => Sys2Proof.Machine.execVrot f s
  | .vclz f => Sys2Proof.Machine.execVclz f s
  | .vpopc f => Sys2Proof.Machine.execVpopc f s
  | .vbfe f => Sys2Proof.Machine.execVbfe f s
  | .vbfi f => Sys2Proof.Machine.execVbfi f s
  | .vcmp f => Sys2Proof.Machine.execVcmp f s
  | .vsel f => Sys2Proof.Machine.execVsel f s
  | .vmov f => Sys2Proof.Machine.execVmov f s
  | .vmovs f => Sys2Proof.Machine.execVmovs f s
  | .vlane f => Sys2Proof.Machine.execVlane f s
  | .vwrx f => Sys2Proof.Machine.execVwrx f s
  | .vrdx f => Sys2Proof.Machine.execVrdx f s
  | .vtos f => Sys2Proof.Machine.execVtos f s
  | .vfadd f => Sys2Proof.Machine.execVfadd f s
  | .vfsub f => Sys2Proof.Machine.execVfsub f s
  | .vfmul f => Sys2Proof.Machine.execVfmul f s
  | .vfma f => Sys2Proof.Machine.execVfma f s
  | .vfdiv f => Sys2Proof.Machine.execVfdiv f s
  | .vfsqrt f => Sys2Proof.Machine.execVfsqrt f s
  | .vfmin f => Sys2Proof.Machine.execVfmin f s
  | .vfmax f => Sys2Proof.Machine.execVfmax f s
  | .vfabs f => Sys2Proof.Machine.execVfabs f s
  | .vfneg f => Sys2Proof.Machine.execVfneg f s
  | .vfcmp f => Sys2Proof.Machine.execVfcmp f s
  | .vfclass f => Sys2Proof.Machine.execVfclass f s
  | .vfscale f => Sys2Proof.Machine.execVfscale f s
  | .vfrnd f => Sys2Proof.Machine.execVfrnd f s
  | .vrcp f => Sys2Proof.Machine.execVrcp f s
  | .vrsq f => Sys2Proof.Machine.execVrsq f s
  | .vexp2 f => Sys2Proof.Machine.execVexp2 f s
  | .vlog2 f => Sys2Proof.Machine.execVlog2 f s
  | .vsinpi f => Sys2Proof.Machine.execVsinpi f s
  | .vcospi f => Sys2Proof.Machine.execVcospi f s
  | .vtanh f => Sys2Proof.Machine.execVtanh f s
  | .vcvt f => Sys2Proof.Machine.execVcvt f s
  | .vqnt f => Sys2Proof.Machine.execVqnt f s
  | .vdqn f => Sys2Proof.Machine.execVdqn f s
  | .vaic f => Sys2Proof.Machine.execVaic f s
  | .vaif f => Sys2Proof.Machine.execVaif f s
  | .vrand f => Sys2Proof.Machine.execVrand f s
  | .voptAdamw f => Sys2Proof.Machine.execVoptAdamw f s
  | .voptAdam f => Sys2Proof.Machine.execVoptAdam f s
  | .voptLion f => Sys2Proof.Machine.execVoptLion f s
  | .voptSgd f => Sys2Proof.Machine.execVoptSgd f s
  | .vshflIdx f => Sys2Proof.Machine.execVshflIdx f s
  | .vshflUp f => Sys2Proof.Machine.execVshflUp f s
  | .vshflDown f => Sys2Proof.Machine.execVshflDown f s
  | .vshflXor f => Sys2Proof.Machine.execVshflXor f s
  | .vvoteAny f => Sys2Proof.Machine.execVvoteAny f s
  | .vvoteAll f => Sys2Proof.Machine.execVvoteAll f s
  | .vvoteBallot f => Sys2Proof.Machine.execVvoteBallot f s
  | .vvoteUni f => Sys2Proof.Machine.execVvoteUni f s
  | .vredAdd f => Sys2Proof.Machine.execVredAdd f s
  | .vredMin f => Sys2Proof.Machine.execVredMin f s
  | .vredMax f => Sys2Proof.Machine.execVredMax f s
  | .vredAnd f => Sys2Proof.Machine.execVredAnd f s
  | .vredOr f => Sys2Proof.Machine.execVredOr f s
  | .vredXor f => Sys2Proof.Machine.execVredXor f s
  | .vscanAdd f => Sys2Proof.Machine.execVscanAdd f s
  | .vscanMin f => Sys2Proof.Machine.execVscanMin f s
  | .vscanMax f => Sys2Proof.Machine.execVscanMax f s
  | .vscanAnd f => Sys2Proof.Machine.execVscanAnd f s
  | .vscanOr f => Sys2Proof.Machine.execVscanOr f s
  | .vscanXor f => Sys2Proof.Machine.execVscanXor f s
  | .vmatchAny f => Sys2Proof.Machine.execVmatchAny f s
  | .vmatchAll f => Sys2Proof.Machine.execVmatchAll f s
  | .vld f => Sys2Proof.Machine.execVld f s
  | .vst f => Sys2Proof.Machine.execVst f s
  | .vstnb f => Sys2Proof.Machine.execVstnb f s
  | .vldt f => Sys2Proof.Machine.execVldt f s
  | .vldb f => Sys2Proof.Machine.execVldb f s
  | .vstb f => Sys2Proof.Machine.execVstb f s
  | .vldf f => Sys2Proof.Machine.execVldf f s
  | .vldfk f => Sys2Proof.Machine.execVldfk f s
  | .vste f => Sys2Proof.Machine.execVste f s
  | .vstf f => Sys2Proof.Machine.execVstf f s
  | .vfecEmpty f => Sys2Proof.Machine.execVfecEmpty f s
  | .vfecFull f => Sys2Proof.Machine.execVfecFull f s
  | .vatomAdd f => Sys2Proof.Machine.execVatomAdd f s
  | .vatomMin f => Sys2Proof.Machine.execVatomMin f s
  | .vatomMax f => Sys2Proof.Machine.execVatomMax f s
  | .vatomAnd f => Sys2Proof.Machine.execVatomAnd f s
  | .vatomOr f => Sys2Proof.Machine.execVatomOr f s
  | .vatomXor f => Sys2Proof.Machine.execVatomXor f s
  | .vatomXchg f => Sys2Proof.Machine.execVatomXchg f s
  | .vatomCas f => Sys2Proof.Machine.execVatomCas f s
  | .vatomFadd f => Sys2Proof.Machine.execVatomFadd f s
  | .vatomAiadd f => Sys2Proof.Machine.execVatomAiadd f s
  | .vredmAdd f => Sys2Proof.Machine.execVredmAdd f s
  | .vredmMin f => Sys2Proof.Machine.execVredmMin f s
  | .vredmMax f => Sys2Proof.Machine.execVredmMax f s
  | .vredmAnd f => Sys2Proof.Machine.execVredmAnd f s
  | .vredmOr f => Sys2Proof.Machine.execVredmOr f s
  | .vredmXor f => Sys2Proof.Machine.execVredmXor f s
  | .vredmFadd f => Sys2Proof.Machine.execVredmFadd f s
  | .vredmAiadd f => Sys2Proof.Machine.execVredmAiadd f s
  | .vrld f => Sys2Proof.Machine.execVrld f s
  | .vlalLeaf f => Sys2Proof.Machine.execVlalLeaf f s
  | .vlalNode f => Sys2Proof.Machine.execVlalNode f s
  | .vlkp f => Sys2Proof.Machine.execVlkp f s
  | .mma f => Sys2Proof.Machine.execMma f s
  | .mmas f => Sys2Proof.Machine.execMmas f s
  | .mperm f => Sys2Proof.Machine.execMperm f s
  | .mzero f => Sys2Proof.Machine.execMzero f s
  | .mlda f => Sys2Proof.Machine.execMlda f s
  | .msta f => Sys2Proof.Machine.execMsta f s
  | .mcpySt f => Sys2Proof.Machine.execMcpySt f s
  | .mcpyLd f => Sys2Proof.Machine.execMcpyLd f s
  | .matrixExecute core residue => Sys2Proof.Machine.execMatrixExecute core residue s
  | .batchRetire g => Sys2Proof.Machine.execBatchRetire g s
  | .loadDataReturn g k => Sys2Proof.Machine.execLoadDataReturn g k s
  | .storeQueueDrain g => Sys2Proof.Machine.execStoreQueueDrain g s
  | .storeBudgetWindow team => Sys2Proof.Machine.execStoreBudgetWindow team s
  | .stbpTimeout g slot => Sys2Proof.Machine.execStbpTimeout g slot s
  | .fetmoTimeout g => Sys2Proof.Machine.execFetmoTimeout g s
  | .sleepExpiry g slotB => Sys2Proof.Machine.execSleepExpiry g slotB s
  | .loadQuotaWindow core => Sys2Proof.Machine.execLoadQuotaWindow core s
  | .trapDelivery g => Sys2Proof.Machine.execTrapDelivery g s
  | .taskQueuePlace hcl => Sys2Proof.Machine.execTaskQueuePlace hcl s
  | .launchComplete ticket => Sys2Proof.Machine.execLaunchComplete ticket s
  | .cpyStart hcl ticket => Sys2Proof.Machine.execCpyStart hcl ticket s
  | .cpyRetire hcl ticket => Sys2Proof.Machine.execCpyRetire hcl ticket s
  | .caoutWalk hcl ticket => Sys2Proof.Machine.execCaoutWalk hcl ticket s
  | .graphNodeFinish die ticket node => Sys2Proof.Machine.execGraphNodeFinish die ticket node s
  | .atomicPacket hcl => Sys2Proof.Machine.execAtomicPacket hcl s
  | .reclaimLine => Sys2Proof.Machine.execReclaimLine s
  | .tableWalkComplete k => Sys2Proof.Machine.execTableWalkComplete k s
  | .atsTranslationCompletion id reply => Sys2Proof.Machine.execAtsTranslationCompletion id reply s
  | .atsInvalidationRequest pasid va size => Sys2Proof.Machine.execAtsInvalidationRequest pasid va size s
  | .priResponse id success => Sys2Proof.Machine.execPriResponse id success s
  | .invalidateCommand value => Sys2Proof.Machine.execInvalidateCommand value s
  | .invalidateDone => Sys2Proof.Machine.execInvalidateDone s
  | .regionCommit k => Sys2Proof.Machine.execRegionCommit k s
  | .regionCommitDone k => Sys2Proof.Machine.execRegionCommitDone k s
  | .pageFaultRetry id => Sys2Proof.Machine.execPageFaultRetry id s
  | .pageFaultRefuse id => Sys2Proof.Machine.execPageFaultRefuse id s
  | .faultQueueHeadWrite value => Sys2Proof.Machine.execFaultQueueHeadWrite value s
  | .hotIntervalEnd => Sys2Proof.Machine.execHotIntervalEnd s
  | .preemptCommand ctx => Sys2Proof.Machine.execPreemptCommand ctx s
  | .resumeCommand ctx => Sys2Proof.Machine.execResumeCommand ctx s
  | .phaseLimitExpiry ctx => Sys2Proof.Machine.execPhaseLimitExpiry ctx s
  | .hostBar2Read addr n => Sys2Proof.Machine.execHostBar2Read addr n s
  | .hostBar2Write addr data => Sys2Proof.Machine.execHostBar2Write addr data s
  | .doorbell value => Sys2Proof.Machine.execDoorbell value s
  | .invocationReceive src record => Sys2Proof.Machine.execInvocationReceive src record s
  | .invocationDispatch => Sys2Proof.Machine.execInvocationDispatch s
  | .invocationAnswer ticket answer => Sys2Proof.Machine.execInvocationAnswer ticket answer s
  | .rinvRetryTimer g ticket => Sys2Proof.Machine.execRinvRetryTimer g ticket s
  | .launchxMemberRequest req => Sys2Proof.Machine.execLaunchxMemberRequest req s
  | .joinDoorbell addr => Sys2Proof.Machine.execJoinDoorbell addr s
  | .pullStart => Sys2Proof.Machine.execPullStart s
  | .pullLineReply reply => Sys2Proof.Machine.execPullLineReply reply s
  | .lineRequest src name region => Sys2Proof.Machine.execLineRequest src name region s
  | .flitReceive port flit fecOk => Sys2Proof.Machine.execFlitReceive port flit fecOk s
  | .replayRequest port last => Sys2Proof.Machine.execReplayRequest port last s
  | .linkAckTimeout port => Sys2Proof.Machine.execLinkAckTimeout port s
  | .portEnable port => Sys2Proof.Machine.execPortEnable port s
  | .portRetrain port => Sys2Proof.Machine.execPortRetrain port s
  | .portLaneFail port lane => Sys2Proof.Machine.execPortLaneFail port lane s
  | .portTrainingDone port pass => Sys2Proof.Machine.execPortTrainingDone port pass s
  | .collChunkSend port => Sys2Proof.Machine.execCollChunkSend port s
  | .collChunkReceive chunk => Sys2Proof.Machine.execCollChunkReceive chunk s
  | .stalegenControl c => Sys2Proof.Machine.execStalegenControl c s
  | .collRetire c ticket => Sys2Proof.Machine.execCollRetire c ticket s
  | .beaconSend => Sys2Proof.Machine.execBeaconSend s
  | .beaconReceive dir src gen => Sys2Proof.Machine.execBeaconReceive dir src gen s
  | .monitorWindowEnd dir => Sys2Proof.Machine.execMonitorWindowEnd dir s
  | .suspicionReport reporter named => Sys2Proof.Machine.execSuspicionReport reporter named s
  | .suspicionWithdrawal reporter named => Sys2Proof.Machine.execSuspicionWithdrawal reporter named s
  | .membershipUpdate gen dev => Sys2Proof.Machine.execMembershipUpdate gen dev s
  | .adoptGo value => Sys2Proof.Machine.execAdoptGo value s
  | .joinRequest dev => Sys2Proof.Machine.execJoinRequest dev s
  | .joinAnswer admitted gen => Sys2Proof.Machine.execJoinAnswer admitted gen s
  | .adoptTimeout => Sys2Proof.Machine.execAdoptTimeout s
  | .secpolEval g => Sys2Proof.Machine.execSecpolEval g s
  | .riskUpdate risk => Sys2Proof.Machine.execRiskUpdate risk s
  | .powerControl watts => Sys2Proof.Machine.execPowerControl watts s
  | .thermalShutdown die => Sys2Proof.Machine.execThermalShutdown die s
  | .pwrlimWrite value => Sys2Proof.Machine.execPwrlimWrite value s
  | .powerOn => Sys2Proof.Machine.execPowerOn s
  | .perst => Sys2Proof.Machine.execPerst s
  | .startCold => Sys2Proof.Machine.execStartCold s
  | .startWarm => Sys2Proof.Machine.execStartWarm s
  | .startLoad => Sys2Proof.Machine.execStartLoad s
  | .bootTrainDone => Sys2Proof.Machine.execBootTrainDone s
  | .bootBistDone => Sys2Proof.Machine.execBootBistDone s
  | .bootZeroDone => Sys2Proof.Machine.execBootZeroDone s
  | .attestationRequest nonce => Sys2Proof.Machine.execAttestationRequest nonce s
  | .configWrite offset value => Sys2Proof.Machine.execConfigWrite offset value s
  | .retentClear j => Sys2Proof.Machine.execRetentClear j s
  | .correctedError err => Sys2Proof.Machine.execCorrectedError err s
  | .llcUncorrectable err => Sys2Proof.Machine.execLlcUncorrectable err s
  | .hbmUncorrectable err => Sys2Proof.Machine.execHbmUncorrectable err s
  | .poolUncorrectable err => Sys2Proof.Machine.execPoolUncorrectable err s
  | .latestUpdateRequest dev => Sys2Proof.Machine.execLatestUpdateRequest dev s
  | .admissionNotice dev => Sys2Proof.Machine.execAdmissionNotice dev s
  | .replicaReadRequest req => Sys2Proof.Machine.execReplicaReadRequest req s
  | .ieee1588ClockStep seconds nanos => Sys2Proof.Machine.execIeee1588ClockStep seconds nanos s
  | .pcieReadCompletion g => Sys2Proof.Machine.execPcieReadCompletion g s
  | .sectorWriteBack sector => Sys2Proof.Machine.execSectorWriteBack sector s

end Sys2Proof.Machine
end

