-- ==== Sys2Proof/Machine/Shade.lean ====
section
/-! DEFINITION. The pair of a group and its shade (R354 to R360, R309): the replay log, and a comparison that finds a difference.
The shade computes what its leader computes, so the pair is one group of the state; a soft error in one of the two is the
environment's, given by a turn, and the replay that it brings about is one step (assumption 32). -/

namespace Sys2Proof.Machine

/-- CSRs that hold device state: the pair reads them once (R356). -/
def shadeCsr (c : Nat) : Bool := decide (0x800 ≤ c) || [0x040, 0x060, 0x062, 0x063, 0x064].contains c

/-- Instructions whose value enters the pair once, through the load value queue (R356). -/
def shadeValue (i : Instr) : Bool :=
  match i with
  | .vld _ | .vldt _ | .vldb _ | .vldf _ | .vldfk _ | .sld4 _ _ _ _ | .sld8 _ _ _ _ | .brld _ _ _ _ | .vlkp _ | .vrld _ => true
  | .voptAdamw _ | .voptAdam _ | .voptLion _ | .voptSgd _ => true
  | .vatomAdd _ | .vatomMin _ | .vatomMax _ | .vatomAnd _ | .vatomOr _ | .vatomXor _ | .vatomXchg _ | .vatomCas _
  | .vatomFadd _ | .vatomAiadd _ => true
  | .vlalLeaf _ | .vlalNode _ | .swaproot _ _ _ _ | .rcadj _ _ _ => true
  | .launch _ _ | .launchxRsv _ _ | .launchxCmt _ _ | .launchxAbt _ _ | .cpy _ _ | .caout _ _ | .graph _ _ _ => true
  | .collSumAi _ _ _ _ | .collSumFix _ _ _ _ | .collMax _ _ _ _ | .collMin _ _ _ _ | .collGather _ _ _ _
  | .collRscatAi _ _ _ _ | .collRscatFix _ _ _ _ | .collBcast _ _ _ _ | .collA2a _ _ _ _ => true
  | .rinv _ _ _ _ _ _ _ | .rinvw _ _ | .vstnb _ | .genr _ | .msta _ => true
  | .csrr _ c => shadeCsr c.toNat
  | _ => false

/-- Instructions whose effect leaves the pair once, after the two copies have been compared (R309, R357, R431). -/
def shadeEffect (i : Instr) : Bool :=
  match i with
  | .vst _ | .vstnb _ | .vstb _ | .sst4 _ _ _ _ | .sst8 _ _ _ _ | .vste _ | .vstf _ | .vfecEmpty _ | .vfecFull _ | .discard _ => true
  | .voptAdamw _ | .voptAdam _ | .voptLion _ | .voptSgd _ => true
  | .vatomAdd _ | .vatomMin _ | .vatomMax _ | .vatomAnd _ | .vatomOr _ | .vatomXor _ | .vatomXchg _ | .vatomCas _
  | .vatomFadd _ | .vatomAiadd _ => true
  | .vredmAdd _ | .vredmMin _ | .vredmMax _ | .vredmAnd _ | .vredmOr _ | .vredmXor _ | .vredmFadd _ | .vredmAiadd _ => true
  | .vlalLeaf _ | .vlalNode _ | .swaproot _ _ _ _ | .rcadj _ _ _ => true
  | .launch _ _ | .launchxRsv _ _ | .launchxCmt _ _ | .launchxAbt _ _ | .cpy _ _ | .caout _ _ | .graph _ _ _ => true
  | .collSumAi _ _ _ _ | .collSumFix _ _ _ _ | .collMax _ _ _ _ | .collMin _ _ _ _ | .collGather _ _ _ _
  | .collRscatAi _ _ _ _ | .collRscatFix _ _ _ _ | .collBcast _ _ _ _ | .collA2a _ _ _ _ => true
  | .rinv _ _ _ _ _ _ _ | .publish _ => true
  | .csrw _ c | .csrs _ c | .csrc _ c => c == 0x062
  | .mma _ | .mmas _ | .mperm _ | .mzero _ | .mlda _ | .msta _ | .mcpySt _ | .mcpyLd _ => true
  | _ => false

/-- The synchronising instructions, which act once for the pair (R357). -/
def shadeSync (i : Instr) : Bool :=
  match i with
  | .bar | .phend | .give _ | .claim _ | .flameTake | .flamePass _ => true
  | _ => false

/-- The scalar registers that take a value which enters the pair at issue. -/
def shadeInto (i : Instr) : List Nat :=
  match i with
  | .launch d _ | .launchxRsv d _ | .launchxCmt d _ | .launchxAbt d _ | .cpy d _ | .caout d _ | .graph d _ _ | .csrr d _ => [d.toNat]
  | .collSumAi d _ _ _ | .collSumFix d _ _ _ | .collMax d _ _ _ | .collMin d _ _ _ | .collGather d _ _ _ => [d.toNat]
  | .collRscatAi d _ _ _ | .collRscatFix d _ _ _ | .collBcast d _ _ _ | .collA2a d _ _ _ => [d.toNat]
  | .rinv d _ _ _ _ _ _ | .rinvw d _ | .swaproot d _ _ _ | .rcadj d _ _ => [d.toNat]
  | .genr d => [d.toNat, d.toNat + 1]
  | .vlalLeaf f | .vlalNode f => span f.vd.toNat 4 ++ [f.vc.toNat]
  | .vlkp f => [f.vc.toNat]
  | _ => []

/-- The refusal mask of VSTNB. -/
def shadeMask (y : Group) : Instr → List Word
  | .vstnb f => [y.rk (f.second.toNat % 16)]
  | _ => []

/-- The words of a value that instruction `i` of number `id` has brought in; none yet while its load is in flight. -/
def Group.shadeWords (y : Group) (i : Instr) (id : Nat) : List Word :=
  if y.loads.any (fun e => e.id == id) then []
  else (shadeInto i).map y.rs ++ shadeMask y i ++ (formOf i).writes.flatMap (fun r => (span r.1 r.2).flatMap (fun v => (List.range 32).map (y.rv v)))

/-- Records that instruction `i` of number `id` adds to the replay log of group `g`, which is `y` after it (R359). -/
def shadeRecords (g id : Nat) (y : Group) (i : Instr) : List ReplayRecord :=
  (if shadeValue i then [.value id (y.shadeWords i id)] else [])
    ++ (if shadeEffect i then [.effect (Config.effectDigest g id)] else []) ++ (if shadeSync i then [.passed] else [])

/-- The record of a reduction that the decoder reads as a `LaneWord`. -/
def reduceRecords (g id : Nat) (_ : Group) : List ReplayRecord := [.effect (Config.effectDigest g id)]

/-- Where a group stands in a stream: the slot, or the place of the head of its lane queue. -/
def Group.standing (x : Group) (lane slotB : Bool) : Option (Nat × Nat) × Option Slot :=
  if lane then (x.headBlock.map (fun b => (b.seq, b.next)), none) else (none, some { x.slot slotB with wait := .none })

/-- The instruction that a turn issued for the group of `s` is passed: its stream has moved on, or it has arrived at a
barrier; a trap passes nothing. -/
def State.passed (s t : State) (lane : Bool) : Bool :=
  let g := s.cur.g
  let x := s.group g
  let y := t.group g
  y.resident && y.inHandler == x.inHandler
    && (x.standing lane s.cur.slotB != y.standing lane s.cur.slotB
        || (!lane && (x.slot s.cur.slotB).wait != .bar && (y.slot s.cur.slotB).wait == .bar))

/-- The instruction that a turn issued for the group of `s` was taken in a trap. -/
def State.trapped (s t : State) : Bool :=
  let x := s.group s.cur.g
  let y := t.group s.cur.g
  x.resident && (!y.resident || y.inHandler != x.inHandler || y.pending.length != x.pending.length)

/-- The pair's log after one more instruction is passed (R359): at most 4,096 records. -/
def State.shadeLog (s t : State) (records : Nat → Nat → Group → List ReplayRecord) (lane : Bool) : State :=
  let g := s.cur.g
  let y := t.group g
  if (s.group g).ident.shade.isNone || !s.passed t lane then t
  else t.setGroup g { y with replayLog := (y.replayLog ++ records g (s.group g).seq y).take 4096 }

/-- What a turn comes to for a pair; a group without a shade has nothing to log. -/
def shadeAfter (s : State) (records : Nat → Nat → Group → List ReplayRecord) (lane : Bool) (r : Res) : Res :=
  match r with
  | .next t => .next (s.shadeLog t records lane)
  | r => r

/-- A REDUNDANCY error's record (R358, R367) for group `g` of a context: unit 10, class 3; SYND is a free value. -/
def State.shadeRecord (s : State) (ctx g : Nat) (slotB : Bool) (flags : Nat) : State :=
  (s.logError 10 3 flags ctx (locCode g slotB) (Config.freeWord s.free).toNat 0).useFree

/-- The end of a replay that does not help (R360): the context ends with UNCORR, unit 10. -/
def State.shadeFails (s : State) (flags : Nat) : State :=
  let g := s.cur.g
  let x := s.group g
  (s.shadeRecord x.ident.ctx g s.cur.slotB flags).terminate x.ident.ctx causeUncorr 10 (if x.inHandler then 1 else 0)
    (locCode g s.cur.slotB) x.ident.team.ticket 0 0 0 0 0 0 0 0

/-- A turn in which the two copies of an instruction differ, or one of them traps and the other does not (R358, R360): `records`
is what the instruction adds to the log, `r` what it does when they agree. Where the log is full, or the copies differ
`again` after the replay, nothing of it is released and the context ends; else it takes effect once. An instruction that
does not issue yet is as in any other turn. -/
def shadeDiffers (s : State) (records : Nat → Nat → Group → List ReplayRecord) (lane again : Bool) (r : Res) : Res :=
  match r with
  | .next t =>
    if s.me.ident.shade.isNone || !(s.passed t lane || s.trapped t) then .next (s.shadeLog t records lane)
    else if 4096 ≤ s.me.replayLog.length then .next (s.shadeFails 16)
    else if again then .next (s.shadeFails (2 + 16))
    else .next ((s.shadeLog t records lane).shadeRecord s.me.ident.ctx s.cur.g s.cur.slotB 1)
  | r => r

end Sys2Proof.Machine
end

