-- ==== Sys2Proof/Machine/Step.lean ====
section
/-! DEFINITION. One step of the part: the agent whose turn it is moves once, and one ck passes (assumption 1). -/

namespace Sys2Proof.Machine

/-- The meaning of a reduction that the decoder reads as a `LaneWord`: that of the instruction it names. -/
def runReduce (k : LateReduce) (f : LM) (s : State) : Res :=
  match k with
  | .max => execVredmMax f s
  | .and => execVredmAnd f s
  | .or => execVredmOr f s
  | .xor => execVredmXor f s
  | .fadd => execVredmFadd f s
  | .aiadd => execVredmAiadd f s

/-- The meaning of a completion that is due: that of the event of the same name. -/
def runDue (d : Due) (s : State) : Res :=
  match d with
  | .trap g => execTrapDelivery g s
  | .sleep g b => execSleepExpiry g b s
  | .walk k => execTableWalkComplete k s
  | .load g k => execLoadDataReturn g k s
  | .store g => execStoreQueueDrain g s
  | .matrix core residue => execMatrixExecute core residue s
  | .batch g => execBatchRetire g s
  | .packet hcl => execAtomicPacket hcl s
  | .credit team => execStoreBudgetWindow team s
  | .quota core => execLoadQuotaWindow core s
  | .place hcl => execTaskQueuePlace hcl s
  | .timeout g slot => execStbpTimeout g slot s
  | .fullEmpty g => execFetmoTimeout g s
  | .posted g => execPcieReadCompletion g s
  | .retry g t => execRinvRetryTimer g t s
  | .copyStart h t => execCpyStart h t s
  | .copyRetire h t => execCpyRetire h t s
  | .copyOut h t => execCaoutWalk h t s
  | .node d t n => execGraphNodeFinish d t n s
  | .launch t => execLaunchComplete t s
  | .limit ctx => execPhaseLimitExpiry ctx s
  | .command => execPrecmd s
  | .hot => execHotIntervalEnd s
  | .hostRecord r => execInvocationReceive hostSrc r s
  | .dispatch => execInvocationDispatch s
  | .reclaim => execReclaimLine s
  | .coll c t => execCollRetire c t s
  | .chunk p => execCollChunkSend p s
  | .pull => execPullStart s
  | .invalidate => execInvalidateDone s
  | .region k => execRegionCommitDone k s
  | .secure g => execSecpolEval g s
  | .adoption => execAdoptTimeout s
  | .ack p => execLinkAckTimeout p s
  | .beacon => execBeaconSend s
  | .monitor d => execMonitorWindowEnd d s

/-- What a turn's fetch came to; a shade pair logs what its instruction adds (R359). -/
def runFetched (lane : Bool) : Fetched → Res
  | .run i s => shadeAfter s (fun g id y => shadeRecords g id y i) lane (exec i s)
  | .reduce k f s => shadeAfter s reduceRecords lane (runReduce k f s)
  | .done s => .next s

/-- The same for an instruction whose two copies differ (R358). -/
def runDiffers (lane again : Bool) : Fetched → Res
  | .run i s => shadeDiffers s (fun g id y => shadeRecords g id y i) lane again (exec i s)
  | .reduce k f s => shadeDiffers s reduceRecords lane again (runReduce k f s)
  | .done s => .next s

/-- One turn. A stream of a group entry that holds no group has nothing to issue. -/
def runTurn (t : Turn) (s : State) : Res :=
  match t with
  | .scalar g slotB => if !(s.group g).resident then .fault .noGroup else runFetched false (s.scalarTurn g slotB)
  | .lane g => if !(s.group g).resident then .fault .noGroup else runFetched true (s.laneTurn g)
  | .differ g lane slotB again =>
    if !(s.group g).resident then .fault .noGroup
    else runDiffers lane again (if lane then s.laneTurn g else s.scalarTurn g slotB)
  | .act i => exec i s
  | .pass => .next s

/-- A thermal shutdown has stopped the clocks (R444). -/
def State.stopped (s : State) : Bool := s.boot.stage == stageThermal

/-- Only a cold start leaves THERMAL. -/
def Turn.restarts : Turn → Bool
  | .act .powerOn => true
  | .act .perst => true
  | .act .startCold => true
  | _ => false

/-- One step while the clocks are stopped: no time passes, and nothing but a cold start has an effect. -/
def stoppedStep (s : State) : Res :=
  match s.turns with
  | [] => .next s
  | t :: rest => if t.restarts then runTurn t { s with turns := rest } else .next { s with turns := rest }

/-- One step while the clocks run. -/
def runningStep (s : State) : Res :=
  let after := { s with ck := s.ck + 1 }
  match s.turns with
  | t :: rest => runTurn t { after with turns := rest }
  | [] =>
    match s.defaultMover with
    | .due d => runDue d after
    | .stream t => runTurn t after

/-- One step. -/
def step (s : State) : Host.Outcome State Fault Refusal := if s.stopped then stoppedStep s else runningStep s

/-- `s` with the instruction of bits `w` stored where the issuing group fetches its next scalar instruction (rows of up to
32 bits) or lane instruction, and its stream given the next turn. -/
def State.withFetchWord (s : State) (nbits w : Nat) : State :=
  s.placeCode (decide (32 < nbits)) (leBytes (if 32 < nbits then 12 else 4) w)

end Sys2Proof.Machine
end

