-- ==== Sys2Proof/Machine/ReadBack.lean ====
section
/-! DEFINITION. What a 4-byte read of BAR 0 (R436) and of the privileged configuration window (R438, R439) returns. A read changes
nothing. -/

namespace Sys2Proof.Machine

/-! ### Words of fields -/

/-- The low or the high word of a 64-bit field. -/
def wordAt (x : Nat) (high : Bool) : Word := BitVec.ofNat 32 (if high then x / 2 ^ 32 else x)

/-- The word of four bytes at `o`. -/
def getBytes (m : Sparse Byte) (o : Nat) : Word := BitVec.ofNat 32 (bytesNat ((span o 4).map (Sparse.get 0 m)))

/-- The word at offset `o` of a structure of whole words. -/
def pick (o : Nat) (ws : List Word) : Word := ws.getD (o / 4) 0

/-- Both words of a 64-bit field. -/
def two (x : Nat) : List Word := [wordAt x false, wordAt x true]

/-! ### The structures of the window (R438) -/

def CtxEntry.readWord (e : CtxEntry) (o : Nat) : Word := pick o (two e.root ++ [e.pasid, e.stbcfg, BitVec.ofNat 32 e.flags])

/-- A region block reads its staged copy; COMMIT reads STATUS (R230). -/
def AddrRegion.readWord (x : AddrRegion) (o : Nat) : Word :=
  let r := x.staged
  if o < 0x10 then pick o (two r.base ++ two r.limit)
  else if o < 0x88 then r.rows.getD ((o - 0x10) / 4) 0
  else if o = 0x88 then BitVec.ofNat 32 (x.status % 16)
  else if 0x100 ≤ o ∧ o < 0x200 then BitVec.ofNat 32 (bytesNat ((span (o - 0x100) 4).map (fun j => r.slots.getD j 0)))
  else 0

def Region.readWord (r : Region) (o : Nat) : Word :=
  pick o (two r.salt ++ two r.rootVa ++ [BitVec.ofNat 32 r.rootSize, BitVec.ofNat 32 (r.ctx + r.flags * 2 ^ 16),
    BitVec.ofNat 32 r.quota, BitVec.ofNat 32 r.live])

def Dir.readWord (d : Dir) (o : Nat) : Word :=
  pick o (two d.base ++ [BitVec.ofNat 32 d.log, 0] ++ two d.lineBase ++ two d.lineCount)

def State.readDirectory (s : State) (o : Nat) : Word :=
  if o < 64 then s.dir.readWord o
  else if (o - 64) / 32 < 64 then (s.lineRegion ((o - 64) / 32)).readWord ((o - 64) % 32)
  else 0

def Window.readWord (x : Window) (o : Nat) : Word :=
  pick o (two x.half0 ++ two x.half1 ++ [BitVec.ofNat 32 x.size, BitVec.ofNat 32 (x.ctx + x.flags * 2 ^ 16)] ++ two x.vera)

def Comm.readWord (x : Comm) (o : Nat) : Word :=
  pick o ([BitVec.ofNat 32 (x.ctx + x.flags * 2 ^ 16 + x.elem * 2 ^ 24), BitVec.ofNat 32 x.p, BitVec.ofNat 32 x.rank,
    BitVec.ofNat 32 x.f] ++ two x.statBase)

def RankTable.readWord (t : RankTable) (o : Nat) : Word :=
  pick o (two t.gen.toNat ++ two t.base ++ [BitVec.ofNat 32 t.p, BitVec.ofNat 32 t.rank, t.tableId,
    BitVec.ofNat 32 (t.nlist + (if t.valid then 2 ^ 8 else 0))])

/-- An entry of the replicated regions: its base, then its size with the communicator in the low 16 bits. -/
def State.readReplica (s : State) (o : Nat) : Word :=
  let r := Sparse.get (0, 0, 0) s.coll.replicas (o / 16)
  pick (o % 16) (two r.1 ++ two (r.2.1 + r.2.2))

/-- ADOPT without GO, and MEMSTAT (R425). -/
def Member.readWord (m : Member) (o : Nat) : Word :=
  if o = 0x100 then adoptBits m.adopt
  else if o = 0x104 then
    BitVec.ofNat 32 (m.state * 2 ^ 29 + (if m.refused then 2 ^ 28 else 0) + m.gen.toNat % 2 ^ 16)
  else if 16 ≤ o ∧ o < 80 then getBytes m.pods (o - 16)
  else pick o [m.arb, m.stby, m.mtbe0, BitVec.ofNat 32 m.flags]

/-- PORTSTAT and PORTCNT (R383); behind them the pod route table. -/
def Port.readWord (p : Port) (o : Nat) : Word :=
  pick o [BitVec.ofNat 32 (p.state * 2 ^ 30 + (if p.half then 2 ^ 29 else 0) + (if p.en then 2 ^ 28 else 0) + p.lfail.toNat),
    BitVec.ofNat 32 (p.replays * 2 ^ 16 + p.fecCor)]

def State.readPort (s : State) (o : Nat) : Word :=
  if 0x400 ≤ o then Sparse.get 0 s.fabric.routes ((o - 0x400) / 4) else (s.port (o / 0x40)).readWord (o % 0x40)

/-- RETCTL and RETENT (R366). -/
def Ras.readRetire (r : Ras) (o : Nat) : Word :=
  if o = 0 then BitVec.ofNat 32 ((if r.retFull then 2 ^ 31 else 0) + (r.retire.filter (fun e => e.2.getLsbD 31)).length)
  else if o / 4 ≤ 1024 then Sparse.get 0 r.retire (o / 4 - 1)
  else 0

def State.readSpill (s : State) (o : Nat) : Word :=
  if o < 0x10 then pick o (two s.sched.spillBase ++ two s.sched.spillSize)
  else if o = 0x100 ∨ o = 0x104 then wordAt s.inv.jbase (o == 0x104)
  else 0

/-- A read at an offset of the privileged configuration window. -/
def State.readConfig (s : State) (o : Nat) : Word :=
  if o < 0x40000 then (s.ctxEntry (o / 64)).readWord (o % 64)
  else if o < 0x41000 then (s.region ((o - 0x40000) / 0x200)).readWord ((o - 0x40000) % 0x200)
  else if o < 0x50000 then 0
  else if o < 0x60000 then s.readDirectory (o - 0x50000)
  else if o < 0x60800 then (s.window ((o - 0x60000) / 32)).readWord ((o - 0x60000) % 32)
  else if o < 0x70000 then 0
  else if o < 0x72000 then (s.comm ((o - 0x70000) / 32)).readWord ((o - 0x70000) % 32)
  else if o < 0x74000 then (s.comm ((o - 0x72000) / 32)).staged.readWord ((o - 0x72000) % 32)
  else if o < 0x174000 then s.readReplica (o - 0x74000)
  else if o < 0x180000 then 0
  else if o < 0x1A0000 then getBytes s.inv.handlers (o - 0x180000)
  else if o < 0x1B0000 then s.member.readWord (o - 0x1A0000)
  else if o < 0x1C0000 then s.readPort (o - 0x1B0000)
  else if o < 0x1D0000 then s.ras.readRetire (o - 0x1C0000)
  else if o < 0x1E0000 then BitVec.ofNat 32 (Sparse.get 0 s.llc.wayDis ((o - 0x1D0000) / 4)).toNat
  else if o < 0x1F0000 then s.readSpill (o - 0x1E0000)
  else 0

/-! ### BAR 0 (R436) -/

/-- SLOTSTAT of an invocation slot (R408). -/
def Inv.slotWord (v : Inv) (k : Nat) : Word := Sparse.get 0 v.slotStat k

/-- BOOTSTAT, START and PWRLIM (R441, R444). -/
def Boot.readWord (b : Boot) (o : Nat) : Word :=
  pick o [BitVec.ofNat 32 (b.stage * 2 ^ 28 + b.code), BitVec.ofNat 32 (if b.pilot then 8 else 0),
    BitVec.ofNat 32 (b.clock * 2 ^ 16 + b.pwrlim)]

/-- The journal window: entry i of the ring at 64i; zero before READY (R409, R441). -/
def State.readJournal (s : State) (o : Nat) : Word :=
  if s.boot.stage = stageReady ∧ o < 64 * s.inv.ring then BitVec.ofNat 32 (bytesNat (s.devBytes (s.inv.jbase + o) 4)) else 0

/-- A 4-byte read at an offset of BAR 0. -/
def State.readBar0 (s : State) (o : Nat) : Word :=
  if o < 0x4000 then getBytes s.inv.slots o
  else if o = 0x4000 then s.inv.doorbell
  else if o < 0x4400 then 0
  else if o < 0x4800 then s.inv.slotWord ((o - 0x4400) / 4)
  else if o = 0x5010 then s.sched.precmd
  else if o = 0x5014 then s.prestat
  else if o = 0x5030 then s.inv.jcfg
  else if o = 0x5034 ∨ o = 0x5038 then wordAt s.inv.jnext (o == 0x5038)
  else if 0x5040 ≤ o ∧ o < 0x5058 then
    pick (o - 0x5040) (two s.ras.fqBase ++ [BitVec.ofNat 32 s.ras.fqLog, s.ras.fqHead, s.ras.fqTail])
  else if 0x5100 ≤ o ∧ o < 0x510C then s.boot.readWord (o - 0x5100)
  else if 0x800000 ≤ o ∧ o < 0x1000000 then s.readConfig (o - 0x800000)
  else if 0x2000000 ≤ o ∧ o < 0x3000000 then getBytes s.host.image (o - 0x2000000)
  else if 0x4000000 ≤ o ∧ o < 0x8000000 then s.readJournal (o - 0x4000000)
  else 0

end Sys2Proof.Machine
end

