-- ==== Sys2Proof/Safety.lean ====
section
/-! DEFINITION. What counts as a safe step: the part goes on, and memory keeps its canonical form. -/

namespace Sys2Proof

/-- A step that answers a next state. -/
def Goes (s : Machine.State) : Prop := ∃ t, Machine.step s = .next t

/-- The canonical form of the memories, addresses rising and no zero listed: the bytes of the stacks, and of the DRAM that no
mapping reaches. -/
def MemoryWf (s : Machine.State) : Prop := s.mem.wf = true ∧ s.dark.wf = true

end Sys2Proof
end

