-- ==== Sys2Proof/Certificates/Slice0/Obligations.lean ====
section
/-! DEFINITION. The statements about the machine. What a statement needs beside the model (the manual's own formulas,
written over exact numbers; what an instruction may change) is defined before it. -/

namespace Sys2Proof.Claims

open Sys2Proof.Machine

/-! ### What an instruction leaves alone -/

/-- Nothing changes but group `g`: every other group, every byte of memory and every other part of the state is as
before. -/
def OnlyGroup (g : Nat) (s t : State) : Prop :=
  t = { s with groups := t.groups } ∧ (∀ h, h ≠ g → t.group h = s.group h) ∧ (∀ a, t.mem.read a = s.mem.read a)

/-- Nothing of a path slot changes but its pc and its loops. -/
def SlotKept (y z : Slot) : Prop := z = { y with pc := z.pc, depth := z.depth, loops := z.loops, wait := z.wait }

/-- The issuing group keeps everything but the listed scalar, mask and record registers and the pc and loops of the
issuing path slot. -/
def RegsOnly (ds ks bs : List Nat) (s t : State) : Prop :=
  OnlyGroup s.cur.g s t
    ∧ (∀ r, r ∉ ds → t.me.rs r = s.me.rs r) ∧ (∀ r, r ∉ ks → t.me.rk r = s.me.rk r)
    ∧ (∀ r, r ∉ bs → t.me.rb r = s.me.rb r)
    ∧ t.me = { s.me with s := t.me.s, k := t.me.k, b := t.me.b, slotA := t.me.slotA, slotB := t.me.slotB }
    ∧ t.me.slot (!s.cur.slotB) = s.me.slot (!s.cur.slotB) ∧ SlotKept s.sl t.sl

/-! ### The scalar ALU (R102 to R104) -/

/-- 1 for true. -/
def bit (p : Prop) [Decidable p] : Word := if p then 1 else 0

/-- The three-register word instructions and what each writes, over exact numbers (R102, R103). -/
def wordRules : List ((SReg → SReg → SReg → Instr) × (Word → Word → Word)) :=
  [(.add, fun a b => BitVec.ofNat 32 (a.toNat + b.toNat)),
   (.sub, fun a b => BitVec.ofInt 32 (a.toInt - b.toInt)),
   (.mul, fun a b => BitVec.ofNat 32 (a.toNat * b.toNat)),
   (.mulh, fun a b => BitVec.ofInt 32 (a.toInt * b.toInt / 2 ^ 32)),
   (.mulhn, fun a b => BitVec.ofNat 32 (a.toNat * b.toNat / 2 ^ 32)),
   (.div, fun a b => if b = 0 then 0xFFFFFFFF else BitVec.ofInt 32 (a.toInt.tdiv b.toInt)),
   (.divn, fun a b => if b = 0 then 0xFFFFFFFF else BitVec.ofNat 32 (a.toNat / b.toNat)),
   (.rem, fun a b => if b = 0 then a else BitVec.ofInt 32 (a.toInt.tmod b.toInt)),
   (.remn, fun a b => if b = 0 then a else BitVec.ofNat 32 (a.toNat % b.toNat)),
   (.and, fun a b => a &&& b), (.or, fun a b => a ||| b), (.xor, fun a b => a ^^^ b), (.andn, fun a b => a &&& ~~~b)]

/-- Shifts, minima and maxima, and comparisons. -/
def moreWordRules : List ((SReg → SReg → SReg → Instr) × (Word → Word → Word)) :=
  [(.shl, fun a b => BitVec.ofNat 32 (a.toNat * 2 ^ (b.toNat % 32))),
   (.shr, fun a b => BitVec.ofNat 32 (a.toNat / 2 ^ (b.toNat % 32))),
   (.sar, fun a b => BitVec.ofInt 32 (a.toInt / 2 ^ (b.toNat % 32))),
   (.rotl, fun a b => BitVec.ofNat 32 (a.toNat * 2 ^ (b.toNat % 32) + a.toNat / 2 ^ (32 - b.toNat % 32))),
   (.min, fun a b => if a.toInt ≤ b.toInt then a else b), (.max, fun a b => if a.toInt ≤ b.toInt then b else a),
   (.minn, fun a b => if a.toNat ≤ b.toNat then a else b), (.maxn, fun a b => if a.toNat ≤ b.toNat then b else a),
   (.seq, fun a b => bit (a = b)), (.sne, fun a b => bit (a ≠ b)),
   (.slt, fun a b => bit (a.toInt < b.toInt)), (.sltn, fun a b => bit (a.toNat < b.toNat)),
   (.sle, fun a b => bit (a.toInt ≤ b.toInt)), (.slen, fun a b => bit (a.toNat ≤ b.toNat)),
   (.selz, fun a b => if b = 0 then 0 else a)]

/-- No outstanding SLD of the issuing slot still writes one of these registers (R100). -/
abbrev Ready (s : State) (rs : List Nat) : Prop := s.me.pendingS s.cur.slotB rs = false

/-- The next state of an instruction that writes one scalar register and goes on. -/
def wrote (s : State) (d : SReg) (v : Word) : State := (s.setMe (s.me.ws d.toNat v)).advance

/-- The same for a pair. -/
def wrotePair (s : State) (d : SReg) (v : Dword) : State := (s.setMe (s.me.ws64 d.toNat v)).advance

end Sys2Proof.Claims

open Sys2Proof Sys2Proof.Machine Sys2Proof.Claims

/-- R102 and R103: what the three-register ALU instructions on words write, for every operand. -/
def Sys2Proof.Claims.ScalarWordResults : Prop :=
  ∀ r ∈ wordRules ++ moreWordRules, ∀ d a b s, Ready s [d.toNat, a.toNat, b.toNat] →
    exec (r.1 d a b) s = .next (wrote s d (r.2 (s.me.rs a.toNat) (s.me.rs b.toNat)))

/-- R102: CLZ counts the zeros above the highest 1, POPC counts the ones, BREV moves bit i to bit 31 − i. -/
def Sys2Proof.Claims.ScalarBitCounts : Prop :=
  ∀ (d a : SReg) s, Ready s [d.toNat, a.toNat] →
    (∃ n, n ≤ 32 ∧ (∀ i, i < n → (s.me.rs a.toNat).getLsbD (31 - i) = false)
        ∧ (n < 32 → (s.me.rs a.toNat).getLsbD (31 - n) = true) ∧ exec (.clz d a) s = .next (wrote s d (BitVec.ofNat 32 n)))
    ∧ exec (.popc d a) s = .next (wrote s d (BitVec.ofNat 32 ((List.range 32).filter (s.me.rs a.toNat).getLsbD).length))
    ∧ (∃ v : Word, (∀ i, i < 32 → v.getLsbD i = (s.me.rs a.toNat).getLsbD (31 - i)) ∧ exec (.brev d a) s = .next (wrote s d v))

namespace Sys2Proof.Claims

open Sys2Proof.Machine

/-- The pair instructions with two pair sources (R102). -/
def pairRules : List ((SReg → SReg → SReg → Instr) × (Dword → Dword → Dword)) :=
  [(.add64, fun a b => BitVec.ofNat 64 (a.toNat + b.toNat)), (.sub64, fun a b => BitVec.ofInt 64 (a.toInt - b.toInt))]

/-- The pair shifts, by the low six bits of a single register (R102). -/
def pairShiftRules : List ((SReg → SReg → SReg → Instr) × (Dword → Nat → Dword)) :=
  [(.shl64, fun a n => BitVec.ofNat 64 (a.toNat * 2 ^ n)), (.shr64, fun a n => BitVec.ofNat 64 (a.toNat / 2 ^ n)),
   (.sar64, fun a n => BitVec.ofInt 64 (a.toInt / 2 ^ n))]

/-- A register number that a pair may start at (R22). -/
abbrev EvenReg (r : SReg) : Prop := r.toNat % 2 = 0

/-- The immediate instructions of R104, with i as R34 extends it. -/
def immRules : List ((SReg → SReg → BitVec 14 → Instr) × (Word → BitVec 14 → Word)) :=
  [(.addi, fun a i => BitVec.ofInt 32 (a.toInt + i.toInt)), (.andi, fun a i => a &&& BitVec.ofNat 32 i.toNat),
   (.ori, fun a i => a ||| BitVec.ofNat 32 i.toNat), (.xori, fun a i => a ^^^ BitVec.ofNat 32 i.toNat),
   (.slti, fun a i => bit (a.toInt < i.toInt)), (.sltni, fun a i => bit (a.toNat < (BitVec.ofInt 32 i.toInt).toNat)),
   (.muli, fun a i => BitVec.ofInt 32 (a.toInt * i.toInt))]

/-- The immediate shifts. -/
def immShiftRules : List ((SReg → SReg → BitVec 5 → Instr) × (Word → Nat → Word)) :=
  [(.shli, fun a n => BitVec.ofNat 32 (a.toNat * 2 ^ n)), (.shri, fun a n => BitVec.ofNat 32 (a.toNat / 2 ^ n)),
   (.sari, fun a n => BitVec.ofInt 32 (a.toInt / 2 ^ n))]

/-- The mask instructions with two mask sources (R105). -/
def maskRules : List ((KReg → KReg → KReg → Instr) × (Word → Word → Word)) :=
  [(.kand, fun a b => a &&& b), (.kor, fun a b => a ||| b), (.kxor, fun a b => a ^^^ b), (.kandn, fun a b => a &&& ~~~b)]

end Sys2Proof.Claims

/-- R102: the 64-bit ALU instructions on even pairs. -/
def Sys2Proof.Claims.ScalarPairResults : Prop :=
  (∀ r ∈ pairRules, ∀ d a b s, EvenReg d → EvenReg a → EvenReg b →
    Ready s [d.toNat, d.toNat + 1, a.toNat, a.toNat + 1, b.toNat, b.toNat + 1] →
    exec (r.1 d a b) s = .next (wrotePair s d (r.2 (s.me.rs64 a.toNat) (s.me.rs64 b.toNat))))
  ∧ (∀ r ∈ pairShiftRules, ∀ d a b s, EvenReg d → EvenReg a →
    Ready s [d.toNat, d.toNat + 1, a.toNat, a.toNat + 1, b.toNat] →
    exec (r.1 d a b) s = .next (wrotePair s d (r.2 (s.me.rs64 a.toNat) ((s.me.rs b.toNat).toNat % 64))))
  ∧ (∀ d a s, EvenReg d → EvenReg a → Ready s [d.toNat, d.toNat + 1, a.toNat, a.toNat + 1] →
    exec (.movp d a) s = .next (wrotePair s d (s.me.rs64 a.toNat)))

/-- R104: the immediate instructions. -/
def Sys2Proof.Claims.ScalarImmediateResults : Prop :=
  (∀ r ∈ immRules, ∀ d a i s, Ready s [d.toNat, a.toNat] →
    exec (r.1 d a i) s = .next (wrote s d (r.2 (s.me.rs a.toNat) i)))
  ∧ (∀ r ∈ immShiftRules, ∀ d a n s, Ready s [d.toNat, a.toNat] →
    exec (r.1 d a n) s = .next (wrote s d (r.2 (s.me.rs a.toNat) n.toNat)))
  ∧ (∀ d (i : BitVec 20) s, Ready s [d.toNat] →
    exec (.lih d i) s = .next (wrote s d (BitVec.ofNat 32 (i.toNat * 2 ^ 12))))

/-- R105: the mask instructions; XMSET keeps XM within the lanes of the part (R168); NOP (R41) only goes on. -/
def Sys2Proof.Claims.MaskResults : Prop :=
  (∀ r ∈ maskRules, ∀ d a b s,
    exec (r.1 d a b) s = .next (s.setMe (s.me.wk d.toNat (r.2 (s.me.rk a.toNat) (s.me.rk b.toNat)))).advance)
  ∧ (∀ d a s, exec (.knot d a) s = .next (s.setMe (s.me.wk d.toNat (~~~s.me.rk a.toNat))).advance
    ∧ exec (.kmov d a) s = .next (s.setMe (s.me.wk d.toNat (s.me.rk a.toNat))).advance
    ∧ exec (.xmget d) s = .next (s.setMe (s.me.wk d.toNat s.sl.xm)).advance
    ∧ exec (.xmset a) s = .next (s.setSl { s.sl with xm := s.me.rk a.toNat &&& s.sl.lanes }).advance)
  ∧ (∀ (k : KReg) (x : SReg) s, Ready s [x.toNat] →
    exec (.kset k x) s = .next (s.setMe (s.me.wk k.toNat (s.me.rs x.toNat))).advance
    ∧ exec (.kget k x) s = .next (wrote s x (s.me.rk k.toNat))
    ∧ exec (.kpop k x) s = .next (wrote s x (BitVec.ofNat 32 ((List.range 32).filter (s.me.rk k.toNat).getLsbD).length))
    ∧ (∃ n, (∀ i, i < n → (s.me.rk k.toNat).getLsbD i = false) ∧ (n < 32 → (s.me.rk k.toNat).getLsbD n = true) ∧ n ≤ 32
        ∧ exec (.kff k x) s = .next (wrote s x (BitVec.ofNat 32 n))))
  ∧ (∀ s, exec .nop s = .next s.advance)

/-- R22: a pair instruction that names an odd register raises ILLEGAL. -/
def Sys2Proof.Claims.OddPairsTrap : Prop :=
  (∀ r ∈ pairRules, ∀ d a b s, ¬(EvenReg d ∧ EvenReg a ∧ EvenReg b) →
    exec (r.1 d a b) s = .next (s.trapWord (wordOf (r.1 d a b)) causeIllegal 0 0))
  ∧ (∀ r ∈ pairShiftRules, ∀ d a b s, ¬(EvenReg d ∧ EvenReg a) →
    exec (r.1 d a b) s = .next (s.trapWord (wordOf (r.1 d a b)) causeIllegal 0 0))
  ∧ (∀ d a s, ¬(EvenReg d ∧ EvenReg a) → exec (.movp d a) s = .next (s.trapWord (wordOf (.movp d a)) causeIllegal 0 0))

namespace Sys2Proof.Claims

open Sys2Proof.Machine

/-- The registers that an instruction on registers alone may write: scalar, mask, record. -/
def writesOf : Instr → Option (List Nat × List Nat × List Nat)
  | .nop => some ([], [], [])
  | .add d _ _ | .sub d _ _ | .mul d _ _ | .mulh d _ _ | .mulhn d _ _ | .div d _ _ | .divn d _ _ | .rem d _ _
  | .remn d _ _ | .and d _ _ | .or d _ _ | .xor d _ _ | .andn d _ _ | .shl d _ _ | .shr d _ _ | .sar d _ _
  | .rotl d _ _ | .min d _ _ | .max d _ _ | .minn d _ _ | .maxn d _ _ | .seq d _ _ | .sne d _ _ | .slt d _ _
  | .sltn d _ _ | .sle d _ _ | .slen d _ _ | .selz d _ _ => some ([d.toNat], [], [])
  | .clz d _ | .popc d _ | .brev d _ => some ([d.toNat], [], [])
  | .addi d _ _ | .andi d _ _ | .ori d _ _ | .xori d _ _ | .slti d _ _ | .sltni d _ _ | .muli d _ _ =>
    some ([d.toNat], [], [])
  | .shli d _ _ | .shri d _ _ | .sari d _ _ => some ([d.toNat], [], [])
  | .lih d _ => some ([d.toNat], [], [])
  | .add64 d _ _ | .sub64 d _ _ | .shl64 d _ _ | .shr64 d _ _ | .sar64 d _ _ => some ([d.toNat, d.toNat + 1], [], [])
  | .movp d _ => some ([d.toNat, d.toNat + 1], [], [])
  | .kand d _ _ | .kor d _ _ | .kxor d _ _ | .kandn d _ _ => some ([], [d.toNat], [])
  | .knot d _ | .kmov d _ => some ([], [d.toNat], [])
  | .xmget d => some ([], [d.toNat], [])
  | .kset d _ => some ([], [d.toNat], [])
  | .kget _ x | .kpop _ x | .kff _ x => some ([x.toNat], [], [])
  | .brget d _ _ => some ([d.toNat], [], [])
  | _ => none

end Sys2Proof.Claims

/-- The frame of the instructions on registers alone: the ALU, immediate and mask instructions and BRGET change nothing
but their destination registers and the pc and loops of their slot; s0 stays zero; no byte of memory changes. -/
def Obligations.RegisterFrame : Prop :=
  ∀ i s t ds ks bs, writesOf i = some (ds, ks, bs) → scalarFields i = true → exec i s = .next t →
    RegsOnly ds ks bs s t ∧ t.me.rs 0 = 0

/-! ### Control flow (R106 to R111) -/

namespace Sys2Proof.Claims

open Sys2Proof.Machine

/-- The address `n` words after a pc. -/
def pcPlus (pc : Dword) (n : Int) : Dword := BitVec.ofInt 64 (pc.toNat + 4 * n)

/-- The conditions of B (R37). -/
abbrev condRule (c : Nat) (x : Int) : Prop :=
  (c = 0 ∧ x = 0) ∨ (c = 1 ∧ x ≠ 0) ∨ (c = 2 ∧ x < 0) ∨ (c = 3 ∧ 0 ≤ x) ∨ (c = 4 ∧ 0 < x) ∨ (c = 5 ∧ x ≤ 0) ∨ c = 6

/-- The conditions of BK on a mask and XM (R37). -/
abbrev condMask (c : Nat) (k xm : Word) : Prop :=
  (c = 0 ∧ k &&& xm ≠ 0) ∨ (c = 1 ∧ k &&& xm = 0) ∨ (c = 2 ∧ k &&& xm = xm) ∨ (c = 3 ∧ k &&& xm ≠ xm)

/-- A target that R108 accepts. -/
abbrev TargetOk (t : Dword) : Prop := t.toNat < 2 ^ 57 ∧ t.toNat % 4 = 0

/-- The full address whose low 32 bits are `lo` in a level (R109): the upper 32 bits are those of the LOOP's own pc. -/
abbrev levelAddress (lv : LoopLevel) (lo : Word) : Nat := lv.high.toNat * 2 ^ 32 + lo.toNat

/-- An address inside the body of an open level (R111). -/
abbrev InBody (lv : LoopLevel) (x : Dword) : Prop :=
  levelAddress lv lv.start ≤ x.toNat ∧ x.toNat ≤ levelAddress lv lv.stop

/-- The next state of a taken branch to `t` (R111): the depth becomes the lowest level whose body holds the branch and
not its target, and stays where there is none. -/
def Went (s t' : State) (t : Dword) : Prop :=
  OnlyGroup s.cur.g s t' ∧ t'.me = s.me.setSlot s.cur.slotB t'.sl ∧ t'.sl.pc = t ∧ t'.sl.loops = s.sl.loops
    ∧ t'.sl.xm = s.sl.xm ∧ t'.sl.lanes = s.sl.lanes ∧ t'.sl.top = s.sl.top ∧ t'.sl.live = s.sl.live
    ∧ (∀ n, n < s.sl.depth → InBody (s.sl.loops.getD n LoopLevel.zero) s.sl.pc →
        ¬InBody (s.sl.loops.getD n LoopLevel.zero) t → t'.sl.depth ≤ n)
    ∧ (t'.sl.depth = s.sl.depth ∨ (t'.sl.depth < s.sl.depth
        ∧ InBody (s.sl.loops.getD t'.sl.depth LoopLevel.zero) s.sl.pc
        ∧ ¬InBody (s.sl.loops.getD t'.sl.depth LoopLevel.zero) t))

/-- The next state of a call (R107, R111): the link pair holds the next pc, and no level closes. -/
def Called (s t' : State) (t : Dword) : Prop :=
  OnlyGroup s.cur.g s t' ∧ t'.me.rs64 46 = s.sl.pc + 4 ∧ (∀ r, r ≠ 46 → r ≠ 47 → t'.me.rs r = s.me.rs r)
    ∧ t'.sl = { s.sl with pc := t, wait := t'.sl.wait }
    ∧ t'.me = ({ s.me with s := t'.me.s }).setSlot s.cur.slotB t'.sl

/-- Level `l` of the slot, opened with `c` iterations over the words after the pc up to `e` words on (R109). -/
def opened (s : State) (l : Nat) (c : Word) (e : Nat) : Slot :=
  { s.sl with
    loops := s.sl.loops.set l { high := BitVec.ofNat 32 (s.sl.pc.toNat / 2 ^ 32), start := low32 (s.sl.pc + 4),
                                stop := low32 (pcPlus s.sl.pc e), count := c },
    depth := l + 1, pc := s.sl.pc + 4, wait := .none }

/-- What LOOP checks at its pc (R109): the level is the depth, and of a LOOP inside the enclosing body the new body ends
inside it, within one 4 GiB span. -/
abbrev LoopOk (s : State) (l e : Nat) : Prop :=
  l = s.sl.depth
    ∧ (0 < l → InBody (s.sl.loops.getD (l - 1) LoopLevel.zero) s.sl.pc →
        (pcPlus s.sl.pc e).toNat ≤ levelAddress (s.sl.loops.getD (l - 1) LoopLevel.zero) (s.sl.loops.getD (l - 1) LoopLevel.zero).stop)
    ∧ (s.sl.pc + 4).toNat / 2 ^ 32 = (pcPlus s.sl.pc e).toNat / 2 ^ 32

end Sys2Proof.Claims

/-- R106 and R107: B and BK branch on their conditions and otherwise go on; J goes to its target; JI and RET go to the
address in a pair that R108 accepts. -/
def Sys2Proof.Claims.BranchesGo : Prop :=
  (∀ (c : BitVec 5) (r : SReg) (d : BitVec 15) s, c.toNat ≤ 6 → (c = 6 → r = 0) → Ready s [r.toNat] →
    (condRule c.toNat (s.me.rs r.toNat).toInt → ∃ t, exec (.b c r d) s = .next t ∧ Went s t (pcPlus s.sl.pc d.toInt))
    ∧ (¬condRule c.toNat (s.me.rs r.toNat).toInt → exec (.b c r d) s = .next s.advance))
  ∧ (∀ (c : BitVec 2) (k : KReg) (d : BitVec 15) s,
    (condMask c.toNat (s.me.rk k.toNat) s.sl.xm → ∃ t, exec (.bk c k d) s = .next t ∧ Went s t (pcPlus s.sl.pc d.toInt))
    ∧ (¬condMask c.toNat (s.me.rk k.toNat) s.sl.xm → exec (.bk c k d) s = .next s.advance))
  ∧ (∀ (d : BitVec 26) s, ∃ t, exec (.j d) s = .next t ∧ Went s t (pcPlus s.sl.pc d.toInt))
  ∧ (∀ (a : SReg) s, EvenReg a → Ready s [a.toNat, a.toNat + 1] → TargetOk (s.me.rs64 a.toNat) →
    ∃ t, exec (.ji a) s = .next t ∧ Went s t (s.me.rs64 a.toNat))
  ∧ (∀ s, Ready s [46, 47] → TargetOk (s.me.rs64 46) → ∃ t, exec .ret s = .next t ∧ Went s t (s.me.rs64 46))

/-- R107 and R108: CALL and CALLI write the link pair and go to their target, CALLI reading it first; an indirect target
with high bits set raises ILLEGAL, a misaligned one ALIGN. -/
def Sys2Proof.Claims.CallsLink : Prop :=
  (∀ (d : BitVec 26) s, Ready s [46, 47] → ∃ t, exec (.call d) s = .next t ∧ Called s t (pcPlus s.sl.pc d.toInt))
  ∧ (∀ (a : SReg) s, EvenReg a → Ready s [a.toNat, a.toNat + 1, 46, 47] → TargetOk (s.me.rs64 a.toNat) →
    ∃ t, exec (.calli a) s = .next t ∧ Called s t (s.me.rs64 a.toNat))
  ∧ (∀ (a : SReg) s, EvenReg a → Ready s [a.toNat, a.toNat + 1, 46, 47] → 2 ^ 57 ≤ (s.me.rs64 a.toNat).toNat →
    exec (.calli a) s = .next (s.trapWord (wordOf (.calli a)) causeIllegal 0 0)
    ∧ exec (.ji a) s = .next (s.trapWord (wordOf (.ji a)) causeIllegal 0 0))
  ∧ (∀ (a : SReg) s, EvenReg a → Ready s [a.toNat, a.toNat + 1, 46, 47] → (s.me.rs64 a.toNat).toNat < 2 ^ 57 →
    (s.me.rs64 a.toNat).toNat % 4 ≠ 0 →
    exec (.calli a) s = .next (s.trapWord (wordOf (.calli a)) causeAlign 0 0)
    ∧ exec (.ji a) s = .next (s.trapWord (wordOf (.ji a)) causeAlign 0 0))

/-- R109 and R111: LOOP opens the level of its depth, or with count 0 goes past the body; a LOOP at another level raises
ILLEGAL; LOOPX closes the innermost level and goes past its body. -/
def Sys2Proof.Claims.LoopsOpenAndClose : Prop :=
  (∀ (l : BitVec 2) (c : BitVec 8) (e : BitVec 15) s, e ≠ 0 → LoopOk s l.toNat e.toNat →
    exec (.loopImm l c e) s = .next (s.setSl (if c = 0 then { s.sl with pc := pcPlus s.sl.pc (e.toNat + 1), wait := .none }
      else opened s l.toNat (BitVec.ofNat 32 c.toNat) e.toNat)))
  ∧ (∀ (l : BitVec 2) (r : SReg) (e : BitVec 15) s, e ≠ 0 → LoopOk s l.toNat e.toNat → Ready s [r.toNat] →
    exec (.loopReg l r e) s = .next (s.setSl (if s.me.rs r.toNat = 0 then { s.sl with pc := pcPlus s.sl.pc (e.toNat + 1), wait := .none }
      else opened s l.toNat (s.me.rs r.toNat) e.toNat)))
  ∧ (∀ (l : BitVec 2) (c : BitVec 8) (e : BitVec 15) s, l.toNat ≠ s.sl.depth →
    exec (.loopImm l c e) s = .next (s.trapWord (wordOf (.loopImm l c e)) causeIllegal 0 0))
  ∧ (∀ s d, s.sl.depth = d + 1 → exec .loopx s = .next (s.setSl { s.sl with
      pc := BitVec.ofNat 64 (levelAddress (s.sl.loops.getD d LoopLevel.zero) (s.sl.loops.getD d LoopLevel.zero).stop) + 4, depth := d, wait := .none }))
  ∧ (∀ s, s.sl.depth = 0 → exec .loopx s = .next (s.trapWord (wordOf .loopx) causeIllegal 0 0))

/-- R110: an instruction that makes no control transfer goes on to the next word unless its address ends the innermost
open level; there the count falls by one and the body starts again, or at count 0 the level closes and the enclosing
level is tested in the same way. -/
def Sys2Proof.Claims.LoopEnds : Prop :=
  ∀ y : Slot,
    (y.depth = 0 → y.advance.pc = y.pc + 4 ∧ y.advance.depth = 0 ∧ y.advance.loops = y.loops)
    ∧ (∀ d, y.depth = d + 1 → low32 y.pc ≠ (y.loops.getD d LoopLevel.zero).stop →
      y.advance.pc = y.pc + 4 ∧ y.advance.depth = d + 1 ∧ y.advance.loops = y.loops)
    ∧ (∀ d, y.depth = d + 1 → low32 y.pc = (y.loops.getD d LoopLevel.zero).stop →
      (y.loops.getD d LoopLevel.zero).count ≠ 1 →
      y.advance.pc.toNat = levelAddress (y.loops.getD d LoopLevel.zero) (y.loops.getD d LoopLevel.zero).start ∧ y.advance.depth = d + 1
        ∧ y.advance.loops = y.loops.set d { y.loops.getD d LoopLevel.zero with
            count := (y.loops.getD d LoopLevel.zero).count - 1 })
    ∧ (∀ d, y.depth = d + 1 → low32 y.pc = (y.loops.getD d LoopLevel.zero).stop →
      (y.loops.getD d LoopLevel.zero).count = 1 →
      y.advance = ({ y with depth := d, loops := y.loops.set d { y.loops.getD d LoopLevel.zero with count := 0 } }).advance)

/-! ### LRUN, the waits and SLEEP -/

namespace Sys2Proof.Claims

open Sys2Proof.Machine

/-- The mask that LRUN captures (R15). -/
abbrev snapshotRule (s : State) (k : KReg) : Word := if k = 0 then s.sl.xm else s.sl.xm &&& s.me.rk k.toNat

/-- A limit of WAITC holds (R20). -/
abbrev Within (n : BitVec 4) (count : Nat) : Prop := n = 15 ∨ count ≤ n.toNat

end Sys2Proof.Claims

/-- R13, R15 and R113: LRUN past the lane code raises ILLEGAL; with an empty snapshot it only goes on; with room in the
queue it appends one entry with the captured items, and s48 to s63 are its arguments. -/
def Sys2Proof.Claims.LrunEnqueues : Prop :=
  ∀ (k : KReg) (r : Bool) (b : BitVec 20) s,
    (s.me.ident.laneSize ≤ b.toNat * 12 → exec (.lrun k r b) s = .next (s.trapWord (wordOf (.lrun k r b)) causeIllegal 0 0))
    ∧ (b.toNat * 12 < s.me.ident.laneSize → snapshotRule s k = 0 → exec (.lrun k r b) s = .next s.advance)
    ∧ (b.toNat * 12 < s.me.ident.laneSize → snapshotRule s k ≠ 0 → s.me.queueFull = false → s.blockCount s.cur.g < 16 →
      Ready s ((List.range 16).map (48 + ·)) →
      ∃ t e, exec (.lrun k r b) s = .next t ∧ t.me.blocks = s.me.blocks ++ [e] ∧ e.index = b.toNat ∧ e.next = b.toNat * 12
        ∧ e.mask = snapshotRule s k ∧ e.part = s.me.csr.part ∧ e.frm = s.me.csr.frm ∧ e.fpe = s.me.csr.fpe ∧ e.drain = r
        ∧ (∀ i, i < 16 → e.args.getD i 0 = s.me.rs (48 + i)) ∧ e.lrunPc = s.sl.pc ∧ e.slotB = s.cur.slotB
        ∧ OnlyGroup s.cur.g s t ∧ SlotKept s.sl t.sl)
    ∧ (b.toNat * 12 < s.me.ident.laneSize → snapshotRule s k ≠ 0 → s.me.queueFull = true → exec (.lrun k r b) s = .next s)

/-- R20 and R115: WAITC goes on exactly when every class is within its limit, and waits otherwise; SLEEP holds the slot
for n ck; when they have passed, SLEEP_EXPIRY lets its stream go on, and not before. -/
def Sys2Proof.Claims.WaitsAndSleep : Prop :=
  (∀ (b l st c tb : BitVec 4) s,
    (Within b (s.blockCount s.cur.g) ∧ Within l s.me.loadCount ∧ Within st s.me.storeCount ∧ Within c s.me.copies
      ∧ Within tb s.me.batchCount → exec (.waitc b l st c tb) s = .next s.advance)
    ∧ (¬(Within b (s.blockCount s.cur.g) ∧ Within l s.me.loadCount ∧ Within st s.me.storeCount ∧ Within c s.me.copies
      ∧ Within tb s.me.batchCount) → exec (.waitc b l st c tb) s = .next s))
  ∧ (∀ (n : BitVec 16) s, n ≠ 0 →
    exec (.sleep n) s = .next (s.setSl { s.sl with sleep := some (s.ck + n.toNat) }).advance)
  ∧ (∀ g b s n, ((s.group g).slot b).sleep = some n → n ≤ s.ck →
    ∃ t, exec (.sleepExpiry g b) s = .next t ∧ OnlyGroup g s t
      ∧ (t.group g).slot b = { (s.group g).slot b with sleep := none })
  ∧ (∀ g b s n, ((s.group g).slot b).sleep = some n → s.ck < n → exec (.sleepExpiry g b) s = .next s)

/-! ### CSRs (R24, R116) -/

/-- R24 and R116: a CSR that the group may reach is read into sd, LCB into an even pair; CSRW, CSRS and CSRC write a
writable one with a, old ∨ a and old ∧ ¬a; an unassigned or read-only address, and from 0x800 on one that the group's
header gives it no privilege for, raise ILLEGAL. -/
def Sys2Proof.Claims.CsrAccess : Prop :=
  (∀ (d : SReg) (c : BitVec 12) s v, s.csrRead c.toNat = some v → (0x800 ≤ c.toNat → s.me.ident.privileged = true) →
    Ready s [d.toNat] → exec (.csrr d c) s = .next (wrote s d v))
  ∧ (∀ (d : SReg) s, EvenReg d → Ready s [d.toNat, d.toNat + 1] → exec (.csrr d 3) s = .next (wrotePair s d s.me.ident.lcb))
  ∧ (∀ (a : SReg) (c : BitVec 12) s v, s.csrRead c.toNat = some v → (0x800 ≤ c.toNat → s.me.ident.privileged = true) →
    csrReadOnly c.toNat = false → Ready s [a.toNat] →
    (∀ t, s.csrWrite c.toNat (s.me.rs a.toNat) = some t → exec (.csrw a c) s = .next t.advance)
    ∧ (∀ t, s.csrWrite c.toNat (v ||| s.me.rs a.toNat) = some t → exec (.csrs a c) s = .next t.advance)
    ∧ (∀ t, s.csrWrite c.toNat (v &&& ~~~s.me.rs a.toNat) = some t → exec (.csrc a c) s = .next t.advance))
  ∧ (∀ (r : SReg) (c : BitVec 12) s, s.csrRead c.toNat = none → c ≠ 3 →
    exec (.csrr r c) s = .next (s.trapWord (wordOf (.csrr r c)) causeIllegal 0 0)
    ∧ exec (.csrw r c) s = .next (s.trapWord (wordOf (.csrw r c)) causeIllegal 0 0))
  ∧ (∀ (r : SReg) (c : BitVec 12) s, csrReadOnly c.toNat = true ∨ (0x800 ≤ c.toNat ∧ s.me.ident.privileged = false) →
    exec (.csrw r c) s = .next (s.trapWord (wordOf (.csrw r c)) causeIllegal 0 0)
    ∧ exec (.csrs r c) s = .next (s.trapWord (wordOf (.csrs r c)) causeIllegal 0 0)
    ∧ exec (.csrc r c) s = .next (s.trapWord (wordOf (.csrc r c)) causeIllegal 0 0))
  ∧ (∀ (r : SReg) (c : BitVec 12) s, 0x800 ≤ c.toNat → s.me.ident.privileged = false →
    exec (.csrr r c) s = .next (s.trapWord (wordOf (.csrr r c)) causeIllegal 0 0))

/-- R117: a write that would leave PART at 5, 6 or 7 raises ILLEGAL; every other value of PART is stored. -/
def Sys2Proof.Claims.PartWrites : Prop :=
  ∀ (a : SReg) s, Ready s [a.toNat] →
    (5 ≤ (s.me.rs a.toNat).toNat % 8 → exec (.csrw a 1) s = .next (s.trapWord (wordOf (.csrw a 1)) causeIllegal 0 0))
    ∧ ((s.me.rs a.toNat).toNat % 8 < 5 → ∃ t, exec (.csrw a 1) s = .next t ∧ OnlyGroup s.cur.g s t
        ∧ t.me.csr = { s.me.csr with part := BitVec.ofNat 32 ((s.me.rs a.toNat).toNat % 8) })

/-! ### Traps (R336, R339, R340) -/

namespace Sys2Proof.Claims

open Sys2Proof.Machine

/-- The group takes user traps: it has a handler and runs none. -/
abbrev HasHandler (x : Machine.Group) : Prop := x.csr.utvec.toNat / 4 ≠ 0 ∧ x.csr.tcause.getLsbD 15 = false

/-- No instruction at the head of a stream of group `g` waits at a page. -/
abbrev Unmet (s : State) (g : Nat) : Prop := ∀ w ∈ s.vm.waiters, ∀ b l, w.who ≠ .stream g b l

/-- What the delivery of a scalar trap of the issuing slot leaves (R336, R337). -/
def Delivered (s t : State) (cause code : Nat) (word : Word) : Prop :=
  OnlyGroup s.cur.g s t
    ∧ t.me.csr = { s.me.csr with
        tcause := BitVec.ofNat 32 (code * 2 ^ 16 + 2 ^ 15 + cause), tlmask := 0, tspc := low32 s.sl.pc, tlpc := 0,
        tiw0 := word, tiw1 := 0, tiw2 := 0, trpc := low32 (s.sl.pc + 4), txm := s.sl.xm }
    ∧ t.sl = { s.sl with pc := s.me.ident.scalarEntry + BitVec.ofNat 64 (s.me.csr.utvec.toNat / 4 * 4), xm := s.sl.lanes,
                         sleep := none, wait := .none }
    ∧ t.me.heldLane = true ∧ t.me.handlerDepth = s.sl.depth ∧ t.me.handlerSlotB = s.cur.slotB
    ∧ (∀ r, t.me.rs r = s.me.rs r) ∧ (∀ r i, t.me.rv r i = s.me.rv r i) ∧ (∀ k, t.me.rk k = s.me.rk k)
    ∧ t.me.slot (!s.cur.slotB) = s.me.slot (!s.cur.slotB)

end Sys2Proof.Claims

/-- R336, R337 and R339: TRAP and BRK save the trapping pc, the resume pc, the word and XM, set TCAUSE with code, ACTIVE
and cause, hold the lane stream and go to the handler; every register, every byte of memory and every other group is
left. -/
def Sys2Proof.Claims.TrapEntry : Prop :=
  ∀ (c : BitVec 16) s, HasHandler s.me → s.sl.wait = .none → Unmet s s.cur.g →
    (∃ t, exec (.trap c) s = .next t ∧ Delivered s t 0x12 c.toNat (wordOf (.trap c)))
    ∧ (∃ t, exec (.brk c) s = .next t ∧ Delivered s t 0x13 c.toNat (wordOf (.brk c)))

/-- The context of the issuing group has ended with a cause: every launch of it that was in flight has completed with TERM
0x0100 | cause, the others keep their status, no group of it is resident, and its pre-emption state is TERMINATED. -/
def ContextEnded (s t : State) (cause : Nat) : Prop :=
  (∀ l ∈ t.sched.launches, l.ctx = s.me.ident.ctx → l.status ≠ none)
    ∧ (∀ l ∈ s.sched.launches, l.ctx = s.me.ident.ctx → l.status = none →
        ∃ m ∈ t.sched.launches, m.ticket = l.ticket ∧ m.ctx = l.ctx ∧ m.status = some (0x0100 + cause))
    ∧ (∀ l ∈ s.sched.launches, l.ctx ≠ s.me.ident.ctx ∨ l.status ≠ none → l ∈ t.sched.launches)
    ∧ (∀ e ∈ t.groups, e.2.resident = true → e.2.ident.ctx ≠ s.me.ident.ctx)
    ∧ Sparse.get 0 t.sched.preempt s.me.ident.ctx = 3

/-- R336 and R342: without a handler, TRAP and BRK terminate the context: every launch of it still in flight completes
with TERM 0x0100 | cause, no group of it stays resident, and its pre-emption state is TERMINATED. -/
def Sys2Proof.Claims.TrapTerminates : Prop :=
  ∀ (c : BitVec 16) s, ¬HasHandler s.me →
    (∃ t, exec (.trap c) s = .next t ∧ ContextEnded s t 0x12) ∧ (∃ t, exec (.brk c) s = .next t ∧ ContextEnded s t 0x13)

/-- R340: TRET outside a handler raises ILLEGAL; in one, with its blocks complete and the loop depth of delivery, it
restores XM within the lane set, the pc and the wait of a
command or a PUBLISH that the trap interrupted, clears ACTIVE and releases the lane stream, and leaves every register. -/
def Sys2Proof.Claims.TrapReturn : Prop :=
  (∀ s, s.me.csr.tcause.getLsbD 15 = false → exec .tret s = .next (s.trapWord (wordOf .tret) causeIllegal 0 0))
  ∧ (∀ s, s.me.csr.tcause.getLsbD 15 = true → s.blockCount s.cur.g = 0 → s.sl.depth = s.me.handlerDepth →
    ∃ t, exec .tret s = .next t ∧ OnlyGroup s.cur.g s t
      ∧ t.me.csr = { s.me.csr with tcause := s.me.csr.tcause &&& 0xFFFF7FFF }
      ∧ t.sl = { s.sl with xm := s.me.csr.txm &&& s.sl.lanes, pc := withHigh s.me.ident.scalarEntry s.me.csr.trpc,
                           wait := s.me.heldWait }
      ∧ t.me.heldLane = false ∧ (∀ r, t.me.rs r = s.me.rs r) ∧ (∀ r i, t.me.rv r i = s.me.rv r i)
      ∧ (∀ k, t.me.rk k = s.me.rk k) ∧ t.me.slot (!s.cur.slotB) = s.me.slot (!s.cur.slotB))

/-- R336 and R340: the oldest trap held pending is delivered once no handler is active. -/
def Sys2Proof.Claims.PendingTrapDelivered : Prop :=
  ∀ g s p rest, (s.group g).pending = p :: rest → (s.group g).csr.tcause.getLsbD 15 = false →
    (s.group g).handles p.cause = true → ((s.group g).slot p.site.slotB).wait = .none → Unmet s g →
    ∃ t, exec (.trapDelivery g) s = .next t ∧ OnlyGroup g s t ∧ (t.group g).pending = rest
      ∧ (t.group g).csr.tlmask = p.mask ∧ (t.group g).csr.tlpc = low32 p.site.lanePc
      ∧ (t.group g).csr.tspc = low32 p.site.pc ∧ (t.group g).heldLane = true
      ∧ ((t.group g).slot p.site.slotB).pc
          = (s.group g).ident.scalarEntry + BitVec.ofNat 64 ((s.group g).csr.utvec.toNat / 4 * 4)

/-! ### Lane instructions: issue and completion (R12 to R17, R55, R56) -/

namespace Sys2Proof.Claims

open Sys2Proof.Machine

/-- Lane instruction `i` passes every check at issue and waits for nothing: `b` heads the queue, its fields obey the rules
of its format, every register lies below the budget, a rounding field of 6 finds a usable captured FRM, what else it
needs holds, and no earlier instruction has flags to come (R26). -/
structure Issues (i : Instr) (kq : KReg) (need : Need) (s : State) (b : Block) : Prop where
  head : s.me.headBlock = some b
  fields : (formOf i).ok = true
  budget : ∀ r ∈ (formOf i).reads ++ (formOf i).writes, r.1 + r.2 ≤ 8 * s.me.csr.budget.toNat
  rounding : need.rnd = 6 → b.frm.toNat % 8 < 5
  convergent : need.all = true → kq = 0 ∧ b.mask = fullMask
  flame : need.flame = true → s.holdsFlame s.cur.g = true
  format : need.badFormat s.me b = false
  ready : s.laneBusy (formOf i) = false
  prompt : s.me.lateF = [] ∧ s.me.lateV = []

/-- The lanes that instruction `i` of block `b` acts on: the snapshot, within mask kq unless kq is 0 (R15). -/
def Active (s : State) (b : Block) (kq : KReg) (l : Nat) : Prop :=
  l < 32 ∧ b.mask.getLsbD l = true ∧ (kq ≠ 0 → (s.me.rk kq.toNat).getLsbD l = true)

/-- `i` completes: the group becomes `y`, and the block goes on past the instruction. -/
def Completes (i : Instr) (kq : KReg) (s : State) (b : Block) (y : Machine.Group) : Prop :=
  exec i s = .next ((s.setMe y).laneDone (s.me.laneAt b (laneWord i) kq))

/-- Only the registers `vd` to `vd + n − 1` of the active lanes, FSTAT and VSTAT differ between `x` and `y`. -/
def VecOnly (x y : Machine.Group) (vd n : Nat) (act : Nat → Prop) : Prop :=
  y = { x with v := y.v, csr := { x.csr with fstat := y.csr.fstat, vstat := y.csr.vstat } }
    ∧ ∀ r l, l < 32 → ¬(vd ≤ r ∧ r < vd + n ∧ act l) → y.rv r l = x.rv r l

/-- Element `k` of lane `i`'s value of type `ty` in register `r` (or the pair at `r`). -/
def elemOf (x : Machine.Group) (ty r i k : Nat) : Nat :=
  elemAt (elemBits ty) k (x.operand (decide (elemBits ty = 64)) r i)

/-- Elements of the operands: va, vb or the immediate, vc. -/
def elemA (f : LA) (x : Machine.Group) (i k : Nat) : Nat := elemAt (elemBits f.ty.toNat) k (srcA f x i)
def elemB (f : LA) (x : Machine.Group) (i k : Nat) : Nat := elemAt (elemBits f.ty.toNat) k (srcB f x i)
def elemC (f : LA) (x : Machine.Group) (i k : Nat) : Nat := elemAt (elemBits f.ty.toNat) k (srcC f x i)

/-- Integer instructions whose element result is exact before it wraps or clamps (R126, R127). -/
def intRules : List ((LA → Instr) × (Int → Int → Int → Int)) :=
  [(.vadd, fun a b _ => a + b), (.vsub, fun a b _ => a - b), (.vmul, fun a b _ => a * b),
   (.vmad, fun a b c => a * b + c), (.vmin, fun a b _ => if a ≤ b then a else b),
   (.vmax, fun a b _ => if a ≤ b then b else a), (.vabs, fun a _ _ => if a < 0 then -a else a),
   (.vneg, fun a _ _ => -a), (.vrem, fun a b _ => if b = 0 then a else a.tmod b)]

/-- Bit instructions, on the element width and the bits (R126, R128). -/
def bitRules : List ((LA → Instr) × (Nat → Nat → Nat → Nat)) :=
  [(.vand, fun _ a b => a &&& b), (.vor, fun _ a b => a ||| b), (.vxor, fun _ a b => a ^^^ b),
   (.vnot, fun w a _ => 2 ^ w - 1 - a), (.vshl, fun w a b => a * 2 ^ (b % w) % 2 ^ w), (.vshr, fun w a b => a / 2 ^ (b % w)),
   (.vrot, fun w a b => a * 2 ^ (b % w) % 2 ^ w + a / 2 ^ (w - b % w)),
   (.vclz, fun w a _ => if a = 0 then w else w - 1 - Nat.log2 a),
   (.vpopc, fun w a _ => ((List.range w).filter (fun j => a / 2 ^ j % 2 = 1)).length)]

/-- The least and the greatest value of an integer element. -/
def lowOf (ty : Nat) : Int := elemLow ty (elemBits ty)
def highOf (ty : Nat) : Int := elemHigh ty (elemBits ty)

/-- Some element of an active lane lies outside its type's range before the clamp. -/
def SomeClamped (s : State) (b : Block) (f : LA) (op : Int → Int → Int → Int) : Prop :=
  ∃ i k, Active s b f.kq i ∧ k < elemCount f.ty.toNat
    ∧ (let e := op (elemInt f.ty.toNat (elemBits f.ty.toNat) (elemA f s.me i k))
          (elemInt f.ty.toNat (elemBits f.ty.toNat) (elemB f s.me i k))
          (elemInt f.ty.toNat (elemBits f.ty.toNat) (elemC f s.me i k))
       e < lowOf f.ty.toNat ∨ highOf f.ty.toNat < e)

end Sys2Proof.Claims

/-- R65, R126 and R127: an integer lane instruction gives each element of each active lane its exact result, wrapped, or
with .sat clamped (which sets VSTAT.SAT); nothing else of the group changes. -/
def Sys2Proof.Claims.LaneIntegerResults : Prop :=
  ∀ r ∈ intRules, ∀ (f : LA) s b, Issues (r.1 f) f.kq Need.plain s b →
    ∃ y, Completes (r.1 f) f.kq s b y ∧ VecOnly s.me y f.vd.toNat (wideOf f.ty.toNat) (Active s b f.kq)
      ∧ y.csr.fstat = s.me.csr.fstat
      ∧ (∀ i k, Active s b f.kq i → k < elemCount f.ty.toNat →
          let w := elemBits f.ty.toNat
          let e := r.2 (elemInt f.ty.toNat w (elemA f s.me i k)) (elemInt f.ty.toNat w (elemB f s.me i k))
            (elemInt f.ty.toNat w (elemC f s.me i k))
          (f.sat = false → elemOf y f.ty.toNat f.vd.toNat i k = (e % 2 ^ w).toNat)
          ∧ (f.sat = true → elemOf y f.ty.toNat f.vd.toNat i k
              = ((if e < lowOf f.ty.toNat then lowOf f.ty.toNat else if highOf f.ty.toNat < e then highOf f.ty.toNat else e)
                  % 2 ^ w).toNat))
      ∧ (f.sat = true → SomeClamped s b f r.2 → y.csr.vstat = s.me.csr.vstat ||| 1)
      ∧ ((f.sat = false ∨ ¬SomeClamped s b f r.2) → y.csr.vstat = s.me.csr.vstat)

/-- R26: an integer lane instruction behind one whose bits of VSTAT are not known yet completes, and its own bit waits for that one:
VSTAT keeps its value. -/
def Sys2Proof.Claims.FlagsInOrder : Prop :=
  ∀ r ∈ intRules, ∀ (f : LA) s b id rest, Issues (r.1 f) f.kq Need.plain s b →
    let l : List LateFlag := { id := id, bits := 0, known := false } :: rest
    let u := s.setMe { s.me with lateV := l }
    ∃ y, Completes (r.1 f) f.kq u b y ∧ y = { u.me with v := y.v, lateV := y.lateV }
      ∧ (f.sat = true → SomeClamped s b f r.2 → y.lateV = l ++ [{ id := 0, bits := 1, known := true }])
      ∧ ((f.sat = false ∨ ¬SomeClamped s b f r.2) → y.lateV = l)

/-- R127: VDIV gives all ones for a zero divisor and otherwise the quotient towards zero, wrapped or clamped; VMULH the
high half of the exact product, .sat or not. -/
def Sys2Proof.Claims.LaneDivideAndHigh : Prop :=
  (∀ (f : LA) s b, Issues (.vdiv f) f.kq Need.plain s b →
    ∃ y, Completes (.vdiv f) f.kq s b y ∧ VecOnly s.me y f.vd.toNat (wideOf f.ty.toNat) (Active s b f.kq)
      ∧ (∀ i k, Active s b f.kq i → k < elemCount f.ty.toNat →
          let w := elemBits f.ty.toNat
          let q := (elemInt f.ty.toNat w (elemA f s.me i k)).tdiv (elemInt f.ty.toNat w (elemB f s.me i k))
          (elemB f s.me i k = 0 → elemOf y f.ty.toNat f.vd.toNat i k = 2 ^ w - 1)
          ∧ (elemB f s.me i k ≠ 0 → f.sat = false → elemOf y f.ty.toNat f.vd.toNat i k = (q % 2 ^ w).toNat)
          ∧ (elemB f s.me i k ≠ 0 → f.sat = true → elemOf y f.ty.toNat f.vd.toNat i k
              = ((if highOf f.ty.toNat < q then highOf f.ty.toNat else q) % 2 ^ w).toNat)))
  ∧ (∀ (f : LA) s b, Issues (.vmulh f) f.kq Need.plain s b →
    ∃ y, Completes (.vmulh f) f.kq s b y ∧ VecOnly s.me y f.vd.toNat (wideOf f.ty.toNat) (Active s b f.kq)
      ∧ y.csr = s.me.csr
      ∧ (∀ i k, Active s b f.kq i → k < elemCount f.ty.toNat →
          let w := elemBits f.ty.toNat
          elemOf y f.ty.toNat f.vd.toNat i k
            = (elemInt f.ty.toNat w (elemA f s.me i k) * elemInt f.ty.toNat w (elemB f s.me i k) / 2 ^ w % 2 ^ w).toNat))

/-- R126 and R128: the bit instructions on each element; VSAR fills with the sign bit; VBFE takes a field, with its sign for
a signed type; VBFI replaces one; none raises a flag. -/
def Sys2Proof.Claims.LaneBitResults : Prop :=
  (∀ r ∈ bitRules, ∀ (f : LA) s b, Issues (r.1 f) f.kq Need.plain s b →
    ∃ y, Completes (r.1 f) f.kq s b y ∧ VecOnly s.me y f.vd.toNat (wideOf f.ty.toNat) (Active s b f.kq) ∧ y.csr = s.me.csr
      ∧ ∀ i k, Active s b f.kq i → k < elemCount f.ty.toNat →
          elemOf y f.ty.toNat f.vd.toNat i k = r.2 (elemBits f.ty.toNat) (elemA f s.me i k) (elemB f s.me i k))
  ∧ (∀ (f : LA) s b, Issues (.vsar f) f.kq Need.plain s b →
    ∃ y, Completes (.vsar f) f.kq s b y ∧ VecOnly s.me y f.vd.toNat (wideOf f.ty.toNat) (Active s b f.kq) ∧ y.csr = s.me.csr
      ∧ ∀ i k j, Active s b f.kq i → k < elemCount f.ty.toNat → j < elemBits f.ty.toNat →
          let w := elemBits f.ty.toNat
          let n := elemB f s.me i k % w
          (elemOf y f.ty.toNat f.vd.toNat i k).testBit j
            = (elemA f s.me i k).testBit (if j + n < w then j + n else w - 1))
  ∧ (∀ (f : LA) s b, Issues (.vbfe f) f.kq Need.plain s b →
    ∃ y, Completes (.vbfe f) f.kq s b y ∧ VecOnly s.me y f.vd.toNat (wideOf f.ty.toNat) (Active s b f.kq) ∧ y.csr = s.me.csr
      ∧ ∀ i k j, Active s b f.kq i → k < elemCount f.ty.toNat → j < elemBits f.ty.toNat →
          let n := fieldLen f (elemBits f.ty.toNat)
          (elemOf y f.ty.toNat f.vd.toNat i k).testBit j
            = (if j < n then (elemA f s.me i k).testBit (fieldPos f + j)
               else decide (0 < n) && isSigned f.ty.toNat && (elemA f s.me i k).testBit (fieldPos f + n - 1)))
  ∧ (∀ (f : LA) s b, Issues (.vbfi f) f.kq Need.plain s b →
    ∃ y, Completes (.vbfi f) f.kq s b y ∧ VecOnly s.me y f.vd.toNat (wideOf f.ty.toNat) (Active s b f.kq) ∧ y.csr = s.me.csr
      ∧ ∀ i k j, Active s b f.kq i → k < elemCount f.ty.toNat → j < elemBits f.ty.toNat →
          let n := fieldLen f (elemBits f.ty.toNat)
          (elemOf y f.ty.toNat f.vd.toNat i k).testBit j
            = (if fieldPos f ≤ j ∧ j < fieldPos f + n then (elemB f s.me i k).testBit (j - fieldPos f)
               else (elemA f s.me i k).testBit j))

namespace Sys2Proof.Claims

open Sys2Proof.Machine

/-- The integer conditions (R52). -/
def condInts (c : Nat) (a b : Int) : Prop :=
  (c = 0 ∧ a = b) ∨ (c = 1 ∧ a ≠ b) ∨ (c = 2 ∧ a < b) ∨ (c = 3 ∧ a ≤ b) ∨ (c = 4 ∧ b < a) ∨ (c = 5 ∧ b ≤ a)

/-- Only the bits of mask `k` that `which` tells differ between `x` and `y`. -/
def MaskOnly (x y : Machine.Group) (k : Nat) (which : Nat → Prop) : Prop :=
  y = { x with k := y.k } ∧ (∀ j, j ≠ k → y.rk j = x.rk j)
    ∧ ∀ l, l < 32 → ¬which l → (y.rk k).getLsbD l = (x.rk k).getLsbD l

/-- A captured argument: s48 to s63 as LRUN found them; s0 reads zero (R17). -/
def argRule (b : Block) (r : Nat) : Word := if 48 ≤ r then b.args.getD (r - 48) 0 else 0

end Sys2Proof.Claims

/-- R129 to R132: VCMP replaces the active lanes' bits of its mask; VSEL, VMOV, VMOVS and VLANE write the active lanes;
VRDX and VWRX use the registers that lanes name, each below the budget; VTOS writes the live scalar from one lane, which
reads zero when it has exited. -/
def Sys2Proof.Claims.LaneMoves : Prop :=
  (∀ (f : LA) s b, Issues (.vcmp f) f.kq Need.plain s b →
    ∃ y, Completes (.vcmp f) f.kq s b y ∧ MaskOnly s.me y (f.vd.toNat % 16) (Active s b f.kq)
      ∧ ∀ i, Active s b f.kq i → ((y.rk (f.vd.toNat % 16)).getLsbD i = true ↔ ∀ k, k < elemCount f.ty.toNat →
          condInts f.sub.toNat (elemInt f.ty.toNat (elemBits f.ty.toNat) (elemA f s.me i k))
            (elemInt f.ty.toNat (elemBits f.ty.toNat) (elemB f s.me i k))))
  ∧ (∀ (f : LA) s b, Issues (.vsel f) f.kq Need.plain s b →
    ∃ y, Completes (.vsel f) f.kq s b y ∧ VecOnly s.me y f.vd.toNat (wideOf f.ty.toNat) (Active s b f.kq) ∧ y.csr = s.me.csr
      ∧ ∀ i k, Active s b f.kq i → k < elemCount f.ty.toNat → elemOf y f.ty.toNat f.vd.toNat i k
          = if (s.me.rk (f.vc.toNat % 16)).getLsbD i then elemA f s.me i k else elemB f s.me i k)
  ∧ (∀ (f : LA) s b, Issues (.vmov f) f.kq Need.plain s b →
    ∃ y, Completes (.vmov f) f.kq s b y ∧ VecOnly s.me y f.vd.toNat (wideOf f.ty.toNat) (Active s b f.kq) ∧ y.csr = s.me.csr
      ∧ ∀ i k, Active s b f.kq i → k < elemCount f.ty.toNat → elemOf y f.ty.toNat f.vd.toNat i k
          = if f.imm? then elemB f s.me i k else elemA f s.me i k)
  ∧ (∀ (f : LA) s b, Issues (.vmovs f) f.kq Need.plain s b →
    ∃ y, Completes (.vmovs f) f.kq s b y ∧ VecOnly s.me y f.vd.toNat 1 (Active s b f.kq) ∧ y.csr = s.me.csr
      ∧ ∀ i, Active s b f.kq i → y.rv f.vd.toNat i = argRule b f.va.toNat)
  ∧ (∀ (f : LA) s b, Issues (.vlane f) f.kq Need.plain s b →
    ∃ y, Completes (.vlane f) f.kq s b y ∧ VecOnly s.me y f.vd.toNat 1 (Active s b f.kq) ∧ y.csr = s.me.csr
      ∧ ∀ i, Active s b f.kq i → y.rv f.vd.toNat i = BitVec.ofNat 32 i)
  ∧ (∀ (f : LA) s b, Issues (.vrdx f) f.kq Need.plain s b →
    (∀ i, Active s b f.kq i → (s.me.rv f.va.toNat i).toNat < 8 * s.me.csr.budget.toNat) →
    s.me.loads = [] → (s.coreOfGroup s.cur.g).engine = [] →
    ∃ y, Completes (.vrdx f) f.kq s b y ∧ VecOnly s.me y f.vd.toNat 1 (Active s b f.kq) ∧ y.csr = s.me.csr
      ∧ ∀ i, Active s b f.kq i → y.rv f.vd.toNat i = s.me.rv (s.me.rv f.va.toNat i).toNat i)
  ∧ (∀ (f : LA) s b, Issues (.vwrx f) f.kq Need.plain s b →
    (∀ i, Active s b f.kq i → (s.me.rv f.va.toNat i).toNat < 8 * s.me.csr.budget.toNat) →
    s.me.loads = [] → (s.coreOfGroup s.cur.g).engine = [] → s.me.locks = [] →
    ∃ y, Completes (.vwrx f) f.kq s b y ∧ y = { s.me with v := y.v }
      ∧ (∀ i, Active s b f.kq i → y.rv (s.me.rv f.va.toNat i).toNat i = s.me.rv f.vb.toNat i)
      ∧ (∀ r i, i < 32 → ¬(Active s b f.kq i ∧ r = (s.me.rv f.va.toNat i).toNat) → y.rv r i = s.me.rv r i))
  ∧ (∀ (f : LA) s b, Issues (.vtos f) f.kq Need.plain s b →
    ∃ y, Completes (.vtos f) f.kq s b y ∧ y = { s.me with s := y.s } ∧ (∀ r, r ≠ f.vd.toNat → y.rs r = s.me.rs r)
      ∧ ((∃ i, Active s b f.kq i) → y.rs f.vd.toNat
          = if s.me.exited.getLsbD (f.imm.toNat % 32) then 0 else s.me.rv f.va.toNat (f.imm.toNat % 32))
      ∧ ((¬∃ i, Active s b f.kq i) → y = s.me))

/-- R131 and R56: VRDX and VWRX with a lane that names a register at or above the budget raise ILLEGAL, with those lanes as
the mask, and write nothing: the context ends or the handler-less trap is taken at the instruction. -/
def Sys2Proof.Claims.IndexedRegistersTrap : Prop :=
  ∀ (f : LA) s b m, (∃ i, Active s b f.kq i ∧ 8 * s.me.csr.budget.toNat ≤ (s.me.rv f.va.toNat i).toNat) →
    (∀ i, i < 32 → (m.getLsbD i = true ↔ Active s b f.kq i ∧ 8 * s.me.csr.budget.toNat ≤ (s.me.rv f.va.toNat i).toNat)) →
    (Issues (.vrdx f) f.kq Need.plain s b →
      exec (.vrdx f) s = .next (s.laneTrap (s.me.laneAt b (laneWord (.vrdx f)) f.kq) causeIllegal m 0))
    ∧ (Issues (.vwrx f) f.kq Need.plain s b →
      exec (.vwrx f) s = .next (s.laneTrap (s.me.laneAt b (laneWord (.vwrx f)) f.kq) causeIllegal m 0))

/-- R12, R16 and R19: a completed lane instruction moves its block's lane pc 12 bytes on; with the E bit set the block's
entry is freed. No register, no byte of memory and no other group changes. -/
def Sys2Proof.Claims.LaneBlockAdvances : Prop :=
  ∀ (l : Lane) (s : State), ∃ y, s.laneDone l = s.setMe y
    ∧ y = { s.me with blocks := y.blocks, draining := y.draining, laneWait := none }
    ∧ (l.w.testBit 47 = true → y.blocks = s.me.blocks.filter (fun b => b.seq != l.b.seq))
    ∧ (l.w.testBit 47 = false → y.draining = s.me.draining
        ∧ y.blocks = s.me.blocks.map (fun b => if b.seq = l.b.seq then { b with next := b.next + 12 } else b))

/-- R23, R55, R56, R181 and R289: the checks of a lane instruction in order: fields and budget and the captured FRM raise
ILLEGAL, a missing lane of an instruction that needs all of them ILLCONV, a missing flame FLAME, a refused format record
ILLFMT; the trap writes no register. -/
def Sys2Proof.Claims.LaneIssueChecks : Prop :=
  ∀ (i : Instr) (kq : KReg) (need : Need) s b k, s.me.headBlock = some b →
    let bad1 := (formOf i).ok = false ∨ ¬(∀ r ∈ (formOf i).reads ++ (formOf i).writes, r.1 + r.2 ≤ 8 * s.me.csr.budget.toNat)
      ∨ (need.rnd = 6 ∧ 5 ≤ b.frm.toNat % 8)
    let bad2 := need.all = true ∧ ¬(kq = 0 ∧ b.mask = fullMask)
    let bad3 := need.flame = true ∧ s.holdsFlame s.cur.g = false
    let bad4 := need.badFormat s.me b = true
    let traps (c : Nat) := laneOp i kq need s k = .next (s.laneTrap (s.me.laneAt b (laneWord i) kq) c 0 0)
    (bad1 → traps 0x01) ∧ (¬bad1 → bad2 → traps 0x03) ∧ (¬bad1 → ¬bad2 → bad3 → traps 0x04)
      ∧ (¬bad1 → ¬bad2 → ¬bad3 → bad4 → traps 0x02)
      ∧ (¬bad1 → ¬bad2 → ¬bad3 → ¬bad4 → s.laneBusy (formOf i) = false →
          laneOp i kq need s k = k (s.me.laneAt b (laneWord i) kq) s)

/-! ### Floating-point lane instructions (R124, R133 to R137, R341) -/

namespace Sys2Proof.Claims

open Sys2Proof.Machine

/-- The floating instructions that write one element for each element of their operands: their format's operation on the
rounding mode, the dither value and the operands' encodings. -/
def floatRules : List ((LA → Instr) × (LA → FFmt → Nat → Nat → Nat → Nat → Nat → FRes)) :=
  [(.vfadd, fun _ t m d a b _ => t.add m d (t.val a) (t.val b)),
   (.vfsub, fun _ t m d a b _ => t.add m d (t.val a) (t.val b).negate),
   (.vfmul, fun _ t m d a b _ => t.mul m d (t.val a) (t.val b)),
   (.vfma, fun _ t m d a b c => t.fma m d (t.val a) (t.val b) (t.val c)),
   (.vfdiv, fun _ t m d a b _ => t.div m d (t.val a) (t.val b)), (.vfsqrt, fun _ t m d a _ _ => t.sqrt m d (t.val a)),
   (.vfmin, fun f t _ _ a b _ => t.minMax false (decide (f.sub = 1)) a b),
   (.vfmax, fun f t _ _ a b _ => t.minMax true (decide (f.sub = 1)) a b),
   (.vfabs, fun _ t _ _ a _ _ => { bits := a % 2 ^ t.low, flags := 0 }),
   (.vfneg, fun _ t _ _ a _ _ => { bits := a ^^^ 2 ^ t.low, flags := 0 }),
   (.vfrnd, fun f t m d a _ _ => t.toIntegral m d (decide (f.sub = 1)) (t.val a)),
   (.vrcp, fun _ t _ _ a _ _ => rcpOf (t.val a)), (.vrsq, fun _ t _ _ a _ _ => rsqOf (t.val a)),
   (.vexp2, fun _ t _ _ a _ _ => exp2Of (t.val a)), (.vlog2, fun _ t _ _ a _ _ => log2Of (t.val a)),
   (.vsinpi, fun _ t _ _ a _ _ => sinPiOf (t.val a)), (.vcospi, fun _ t _ _ a _ _ => cosPiOf (t.val a)),
   (.vtanh, fun _ t _ _ a _ _ => tanhOf (t.val a))]

/-- The rounding mode in force: the field's, or the captured FRM (R72, R74). -/
def modeRule (f : LA) (b : Block) : Nat := if f.rnd = 6 then b.frm.toNat % 8 else f.rnd.toNat

/-- The dither value of element `k` of lane `i` with rounding 5 (R73, R133). -/
def ditherRule (f : LA) (x : Machine.Group) (i k : Nat) : Nat :=
  if f.rnd = 5 then elemAt 16 k (x.rv f.vc.toNat i).toNat else 0

/-- The result of element `k` of lane `i`. -/
def floatElem (f : LA) (op : LA → FFmt → Nat → Nat → Nat → Nat → Nat → FRes) (s : State) (b : Block) (i k : Nat) : FRes :=
  op f (fmtOf f.ty.toNat) (modeRule f b) (ditherRule f s.me i k) (elemA f s.me i k) (elemB f s.me i k) (elemC f s.me i k)

/-- Bit `n` of the flags that lane `i`'s elements raise. -/
def LaneFlag (f : LA) (op : LA → FFmt → Nat → Nat → Nat → Nat → Nat → FRes) (s : State) (b : Block) (i n : Nat) : Prop :=
  ∃ k, k < elemCount f.ty.toNat ∧ (floatElem f op s b i k).flags.testBit n = true

/-- Only rounding value 6 asks for a captured mode. -/
def rounds (f : LA) : Need := { Need.plain with rnd := f.rnd.toNat }

end Sys2Proof.Claims

/-- R124, R133 and R136: with no trap enabled, a floating instruction gives each element of each active lane its rounded
result, and FSTAT gains every flag that an active lane raised and no other; nothing else of the group changes. -/
def Sys2Proof.Claims.LaneFloatResults : Prop :=
  ∀ r ∈ floatRules, ∀ (f : LA) s b, Issues (r.1 f) f.kq (rounds f) s b → b.fpe.toNat % 32 = 0 →
    ∃ y, Completes (r.1 f) f.kq s b y ∧ VecOnly s.me y f.vd.toNat (wideOf f.ty.toNat) (Active s b f.kq)
      ∧ y.csr.vstat = s.me.csr.vstat
      ∧ (∀ i k, Active s b f.kq i → k < elemCount f.ty.toNat →
          elemOf y f.ty.toNat f.vd.toNat i k = (floatElem f r.2 s b i k).bits % 2 ^ elemBits f.ty.toNat)
      ∧ (∀ n, n < 32 → (y.csr.fstat.getLsbD n = true ↔
          s.me.csr.fstat.getLsbD n = true ∨ ∃ i, Active s b f.kq i ∧ LaneFlag f r.2 s b i n))

/-- R124, R335 and R341: when a lane raises a flag that the block's captured FPE enables, the other active lanes write
their results, the faulting lanes write nothing, FSTAT gains every raised flag, and FPX is raised with the faulting lanes as
its mask. -/
def Sys2Proof.Claims.LaneFloatTraps : Prop :=
  ∀ r ∈ floatRules, ∀ (f : LA) s b m, Issues (r.1 f) f.kq (rounds f) s b → m ≠ 0 →
    (∀ i, i < 32 → (m.getLsbD i = true ↔
      Active s b f.kq i ∧ ∃ n, n < 5 ∧ b.fpe.getLsbD n = true ∧ LaneFlag f r.2 s b i n)) →
    ∃ y code, exec (r.1 f) s
        = .next (((s.setMe y).laneDone (s.me.laneAt b (laneWord (r.1 f)) f.kq)).laneTrap
            (s.me.laneAt b (laneWord (r.1 f)) f.kq) causeFpx m code)
      ∧ VecOnly s.me y f.vd.toNat (wideOf f.ty.toNat) (fun i => Active s b f.kq i ∧ m.getLsbD i = false)
      ∧ (∀ i k, Active s b f.kq i → m.getLsbD i = false → k < elemCount f.ty.toNat →
          elemOf y f.ty.toNat f.vd.toNat i k = (floatElem f r.2 s b i k).bits % 2 ^ elemBits f.ty.toNat)
      ∧ (∀ n, n < 32 → (y.csr.fstat.getLsbD n = true ↔
          s.me.csr.fstat.getLsbD n = true ∨ ∃ i, Active s b f.kq i ∧ LaneFlag f r.2 s b i n))

/-- R129, R134, R135 and R137: VFCMP replaces the active lanes' mask bits by a comparison of every element; VFCLASS writes
the class of each element in 16 bits; VFSCALE scales by a power of two; VCVT converts element by element, with SAT for a
clamped integer; with no trap enabled. -/
def Sys2Proof.Claims.LaneFloatOthers : Prop :=
  (∀ (f : LA) s b, Issues (.vfcmp f) f.kq Need.plain s b → b.fpe.toNat % 32 = 0 →
    ∃ y, Completes (.vfcmp f) f.kq s b y
      ∧ y = { s.me with k := y.k, csr := { s.me.csr with fstat := y.csr.fstat } }
      ∧ (∀ j, j ≠ f.vd.toNat % 16 → y.rk j = s.me.rk j)
      ∧ (∀ i, i < 32 → ((y.rk (f.vd.toNat % 16)).getLsbD i = true ↔
          (¬Active s b f.kq i ∧ (s.me.rk (f.vd.toNat % 16)).getLsbD i = true)
          ∨ (Active s b f.kq i ∧ ∀ k, k < elemCount f.ty.toNat →
              (fcompare f.sub.toNat ((fmtOf f.ty.toNat).val (elemA f s.me i k))
                ((fmtOf f.ty.toNat).val (elemB f s.me i k))).1 = true))))
  ∧ (∀ (f : LA) s b, Issues (.vfclass f) f.kq Need.plain s b → b.fpe.toNat % 32 = 0 →
    ∃ y, Completes (.vfclass f) f.kq s b y ∧ VecOnly s.me y f.vd.toNat 1 (Active s b f.kq) ∧ y.csr = s.me.csr
      ∧ ∀ i k, Active s b f.kq i → k < elemCount f.ty.toNat → elemAt 16 k (y.rv f.vd.toNat i).toNat
          = (fmtOf f.ty.toNat).classMask ((fmtOf f.ty.toNat).val (elemA f s.me i k)) % 2 ^ 16)
  ∧ (∀ (f : LA) s b, Issues (.vfscale f) f.kq (rounds f) s b → b.fpe.toNat % 32 = 0 →
    ∃ y, Completes (.vfscale f) f.kq s b y ∧ VecOnly s.me y f.vd.toNat (wideOf f.ty.toNat) (Active s b f.kq)
      ∧ ∀ i k, Active s b f.kq i → k < elemCount f.ty.toNat → elemOf y f.ty.toNat f.vd.toNat i k
          = ((fmtOf f.ty.toNat).scaleB (modeRule f b) (ditherRule f s.me i k)
              ((fmtOf f.ty.toNat).val (elemA f s.me i k)) (scaleCount f s.me i k)).bits % 2 ^ elemBits f.ty.toNat)
  ∧ (∀ (f : LA) s b, Issues (.vcvt f) f.kq (rounds f) s b → b.fpe.toNat % 32 = 0 →
    let dst := f.sub.toNat % 16
    let value (i e : Nat) : Cvt := convertElem f.ty.toNat dst (modeRule f b) (slotDither f s.me i e) f.sat
      (elemAt (elemBits f.ty.toNat) e (s.me.wideValue f.va.toNat (f.cvtRegs f.ty.toNat) i))
    ∃ y, Completes (.vcvt f) f.kq s b y ∧ VecOnly s.me y f.vd.toNat (f.cvtRegs dst) (Active s b f.kq)
      ∧ (∀ i e, Active s b f.kq i → e < f.cvtCount →
          elemAt (elemBits dst) e (y.wideValue f.vd.toNat (f.cvtRegs dst) i) = (value i e).bits % 2 ^ elemBits dst)
      ∧ ((∃ i e, Active s b f.kq i ∧ e < f.cvtCount ∧ (value i e).sat = true) → y.csr.vstat = s.me.csr.vstat ||| 1)
      ∧ (¬(∃ i e, Active s b f.kq i ∧ e < f.cvtCount ∧ (value i e).sat = true) → y.csr.vstat = s.me.csr.vstat))

/-! ### Conversions between block, aligned-integer and floating formats, and VRAND (R138 to R143) -/

/-- R89, R138, R140: VDQN gives each slot of each active lane its element's value, 2^X-scaled, converted; R142: VAIF gives
each lane the two decoded aligned integers; R143: VRAND the mix of the lane's counter with the captured key. -/
def Sys2Proof.Claims.LaneDecodes : Prop :=
  (∀ (f : LA) s b, Issues (.vdqn f) f.kq { rounds f with badFormat := frecRefused f } s b → b.fpe.toNat % 32 = 0 →
    ∃ y l, l = s.me.laneAt b (laneWord (.vdqn f)) f.kq ∧ Completes (.vdqn f) f.kq s b y
      ∧ VecOnly s.me y f.vd.toNat f.slotRegs (Active s b f.kq)
      ∧ ∀ i j, Active s b f.kq i → j < blockPer f.ty.toNat →
          elemAt (if f.sub = 0 then 32 else 16) j (y.wideValue f.vd.toNat f.slotRegs i)
            = (dequantOne f l s.me i j).bits % 2 ^ (if f.sub = 0 then 32 else 16))
  ∧ (∀ (f : LA) s b, Issues (.vaif f) f.kq Need.plain s b → b.fpe.toNat % 32 = 0 →
    ∃ y, Completes (.vaif f) f.kq s b y ∧ VecOnly s.me y f.vd.toNat 2 (Active s b f.kq)
      ∧ ∀ i j, Active s b f.kq i → j < 2 → y.rv (f.vd.toNat + j) i = BitVec.ofNat 32
          (aiDecode (f.imm.toNat % 64) (elemInt 8 16 ((s.me.rv f.vb.toNat 0).toNat % 2 ^ 16))
            (elemInt 2 64 (s.me.rv64 (f.va.toNat + 2 * j) i).toNat)).bits)
  ∧ (∀ (f : LA) s b, Issues (.vrand f) f.kq Need.plain s b →
    ∃ y, Completes (.vrand f) f.kq s b y ∧ VecOnly s.me y f.vd.toNat 1 (Active s b f.kq) ∧ y.csr = s.me.csr
      ∧ ∀ i, Active s b f.kq i → y.rv f.vd.toNat i
          = mix (s.me.rv f.va.toNat i) (argRule b f.vb.toNat) (argRule b (f.vb.toNat + 1)))

/-- R87, R88, R139 and R141: VQNT quantises each sub-block with an active lane and leaves every other lane; it raises AMAX
only where the format record asks; VAIC aligns the elements of the active lanes and writes the common exponent; the free
values of assumption 7 stand only in a NaN sub-block or chunk. The statement holds for every value of the free counter. -/
def Sys2Proof.Claims.LaneEncodes : Prop :=
  (∀ (f : LA) s b, Issues (.vqnt f) f.kq { Need.plain with badFormat := frecRefused f } s b →
    ∃ y t, exec (.vqnt f) s = .next t
      ∧ t = { (s.setMe y).laneDone (s.me.laneAt b (laneWord (.vqnt f)) f.kq) with free := s.free + 64 }
      ∧ y = { s.me with v := y.v, csr := { s.me.csr with vstat := y.csr.vstat, amax := y.csr.amax } }
      ∧ (f.vd ≠ f.vb → ∀ i, i < 32 → ¬Active s b f.kq i → y.rv f.vd.toNat i = s.me.rv f.vd.toNat i)
      ∧ (∀ r i, i < 32 → r ≠ f.vd.toNat → r ≠ f.vb.toNat → y.rv r i = s.me.rv r i)
      ∧ (frecAmax (s.me.rfmt (f.imm.toNat % 8)) = false → y.csr.amax = s.me.csr.amax))
  ∧ (∀ (f : LA) s b, Issues (.vaic f) f.kq Need.plain s b →
    let fc := f.imm.toNat % 64
    let want := (s.me.rv f.vb.toNat 0).toInt
    ∃ y t ec, exec (.vaic f) s = .next t
      ∧ t = { (s.setMe y).laneDone (s.me.laneAt b (laneWord (.vaic f)) f.kq) with free := s.free + 128 }
      ∧ y = { s.me with v := y.v, csr := { s.me.csr with vstat := y.csr.vstat } }
      ∧ (∀ i, Active s b f.kq i → y.rv f.vc.toNat i = BitVec.ofInt 32 ec)
      ∧ (∀ r i, i < 32 → ¬Active s b f.kq i → y.rv r i = s.me.rv r i)
      ∧ (∀ vs r, vs = (List.range 64).map (fun i =>
            if s.me.laneMask b f.kq |>.getLsbD (i % 32) then f32.val (s.me.pairElem f.va.toNat i).toNat else .fin false 0 0) →
          chunkOf fc (if -149 ≤ want ∧ want ≤ 127 then some want else none) vs = r → ec = r.1.ec
            ∧ (r.2 = true → y.csr.vstat = s.me.csr.vstat ||| 16) ∧ (r.2 = false → y.csr.vstat = s.me.csr.vstat)))

/-! ### Cross-lane instructions (R164, R165, R182 to R187) -/

namespace Sys2Proof.Claims

open Sys2Proof.Machine

/-- Lanes in a section: 2^(PART + 1) (R25, R165). -/
def sectionOf (b : Block) : Nat := 2 ^ (b.part.toNat % 8 + 1)

/-- A lane as a cross-lane instruction reads it: an inactive lane that has exited reads zero (R182). -/
def crossRead (s : State) (b : Block) (kq : KReg) (r j : Nat) : Word :=
  if s.me.exited.getLsbD j ∧ ¬((s.me.laneMask b kq).getLsbD j = true) then 0 else s.me.rv r j

/-- The source lane of each form of VSHFL (R183) for section size `n` and amount `a`. -/
def shuffleRules : List ((LA → Instr) × (Nat → Nat → Nat → Nat)) :=
  [(.vshflIdx, fun n a i => n * (i / n) + a % n),
   (.vshflUp, fun n a i => if n * (i / n) + a ≤ i then i - a else i),
   (.vshflDown, fun n a i => if i + a < n * (i / n) + n then i + a else i),
   (.vshflXor, fun n a i => i ^^^ (a % n))]

/-- An active lane of lane `i`'s section. -/
def Peer (s : State) (b : Block) (kq : KReg) (i j : Nat) : Prop := Active s b kq j ∧ j / sectionOf b = i / sectionOf b

/-- What each vote and match gives an active lane (R184, R185), from the lanes' values. -/
def voteRules : List ((LA → Instr) × ((Nat → Word) → (Nat → Prop) → Nat → Prop)) :=
  [(.vvoteAny, fun v peer _ => ∃ j, peer j ∧ v j ≠ 0), (.vvoteAll, fun v peer _ => ∀ j, peer j → v j ≠ 0),
   (.vvoteUni, fun v peer i => ∀ j, peer j → (v j ≠ 0 ↔ v i ≠ 0)),
   (.vmatchAny, fun v peer i => ∃ j, peer j ∧ j ≠ i ∧ v j = v i), (.vmatchAll, fun v peer i => ∀ j, peer j → v j = v i)]

/-- Some member lane is not active: VSTAT.ABSENT is set (R182). -/
def Absent (s : State) (b : Block) (kq : KReg) : Prop :=
  ∃ j, j < 32 ∧ kq ≠ 0 ∧ (s.me.rk kq.toNat).getLsbD j = true ∧ b.mask.getLsbD j = false

/-- The operations of VRED and VSCAN. -/
def reduceRules : List ((LA → Instr) × Nat) :=
  [(.vredAdd, 0), (.vredMin, 1), (.vredMax, 2), (.vredAnd, 3), (.vredOr, 4), (.vredXor, 5)]
def scanRules : List ((LA → Instr) × Nat) :=
  [(.vscanAdd, 0), (.vscanMin, 1), (.vscanMax, 2), (.vscanAnd, 3), (.vscanOr, 4), (.vscanXor, 5)]

/-- A lane's term of a reduction: its value where active, else the identity (R186). -/
def termOf (s : State) (b : Block) (f : LA) (op j : Nat) : Nat :=
  if (s.me.laneMask b f.kq).getLsbD j then srcA f s.me j else foldIdentity op f.ty.toNat

/-- The left-to-right fold of an integer operation over the lanes from `base`, `n` of them. -/
def foldFrom (op ty : Nat) (term : Nat → Nat) (base : Nat) : Nat → Nat
  | 0 => foldIdentity op ty
  | n + 1 => (foldStep op ty (foldFrom op ty term base n) (term (base + n))).bits

end Sys2Proof.Claims

/-- R183: each form of VSHFL gives every active lane the value of its source lane within its section. -/
def Sys2Proof.Claims.ShuffleResults : Prop :=
  ∀ r ∈ shuffleRules, ∀ (f : LA) s b, Issues (r.1 f) f.kq Need.plain s b →
    ∃ y, Completes (r.1 f) f.kq s b y ∧ VecOnly s.me y f.vd.toNat 1 (Active s b f.kq) ∧ y.csr.fstat = s.me.csr.fstat
      ∧ ∀ i, Active s b f.kq i → y.rv f.vd.toNat i = crossRead s b f.kq f.va.toNat
          (r.2 (sectionOf b) (if f.imm? then f.imm.toNat % 32 else (s.me.rv f.vb.toNat i).toNat) i)

/-- R184 and R185: votes and matches replace the active lanes' bits of the mask by a condition over the active lanes of each
lane's section; a ballot replaces every bit of a section with an active lane; VSTAT.ABSENT is set when a member is absent. -/
def Sys2Proof.Claims.VoteResults : Prop :=
  (∀ r ∈ voteRules, ∀ (f : LA) s b, Issues (r.1 f) f.kq Need.plain s b →
    ∃ y, Completes (r.1 f) f.kq s b y
      ∧ y = { s.me with k := y.k, csr := { s.me.csr with vstat := y.csr.vstat } }
      ∧ (∀ j, j ≠ f.vd.toNat % 16 → y.rk j = s.me.rk j)
      ∧ (∀ i, i < 32 → ¬Active s b f.kq i →
          (y.rk (f.vd.toNat % 16)).getLsbD i = (s.me.rk (f.vd.toNat % 16)).getLsbD i)
      ∧ (∀ i, Active s b f.kq i → ((y.rk (f.vd.toNat % 16)).getLsbD i = true ↔
          r.2 (s.me.rv f.va.toNat) (Peer s b f.kq i) i))
      ∧ (Absent s b f.kq → y.csr.vstat = s.me.csr.vstat ||| 2)
      ∧ (¬Absent s b f.kq → y.csr.vstat = s.me.csr.vstat))
  ∧ (∀ (f : LA) s b, Issues (.vvoteBallot f) f.kq Need.plain s b →
    ∃ y, Completes (.vvoteBallot f) f.kq s b y
      ∧ y = { s.me with k := y.k, csr := { s.me.csr with vstat := y.csr.vstat } }
      ∧ (∀ j, j ≠ f.vd.toNat % 16 → y.rk j = s.me.rk j)
      ∧ ∀ i, i < 32 → (y.rk (f.vd.toNat % 16)).getLsbD i
          = if (lanesOf (s.me.laneMask b f.kq)).any (fun j => j / sectionOf b == i / sectionOf b)
            then (s.me.laneMask b f.kq).getLsbD i && s.me.rv f.va.toNat i != 0
            else (s.me.rk (f.vd.toNat % 16)).getLsbD i)

/-- R95, R96 and R186, on the integer types: a reduction gives every active lane the fold of its section's terms, an
inclusive scan the fold up to and with the lane, an exclusive scan the fold before it; inactive lanes contribute the
identity. -/
def Sys2Proof.Claims.ReduceAndScanResults : Prop :=
  (∀ r ∈ reduceRules, ∀ (f : LA) s b, Issues (r.1 f) f.kq Need.plain s b → isFloat f.ty.toNat = false →
    b.part.toNat % 8 < 5 → b.fpe.toNat % 32 = 0 →
    ∃ y, Completes (r.1 f) f.kq s b y ∧ VecOnly s.me y f.vd.toNat (wideOf f.ty.toNat) (Active s b f.kq)
      ∧ y.csr.fstat = s.me.csr.fstat
      ∧ ∀ i, Active s b f.kq i → y.operand (decide (elemBits f.ty.toNat = 64)) f.vd.toNat i
          = foldFrom r.2 f.ty.toNat (termOf s b f r.2) (sectionOf b * (i / sectionOf b)) (sectionOf b))
  ∧ (∀ r ∈ scanRules, ∀ (f : LA) s b, Issues (r.1 f) f.kq Need.plain s b → isFloat f.ty.toNat = false →
    b.part.toNat % 8 < 5 → b.fpe.toNat % 32 = 0 →
    ∃ y, Completes (r.1 f) f.kq s b y ∧ VecOnly s.me y f.vd.toNat (wideOf f.ty.toNat) (Active s b f.kq)
      ∧ y.csr.fstat = s.me.csr.fstat
      ∧ ∀ i, Active s b f.kq i → y.operand (decide (elemBits f.ty.toNat = 64)) f.vd.toNat i
          = foldFrom r.2 f.ty.toNat (termOf s b f r.2) (sectionOf b * (i / sectionOf b))
              (i % sectionOf b + if f.m.getLsbD 1 then 0 else 1))

/-! ### Memory (R118, R148 to R163, R217 to R223, R250, R346) -/

namespace Sys2Proof.Claims

open Sys2Proof.Machine

/-- No row-line is given up by DISCARD (R228), and clean lines of the LLC hold what memory holds (R220, R223): what makes
dropping a clean sector invisible. -/
def LlcCoherent (s : State) : Prop :=
  s.llc.discards = [] ∧ ∀ n x, s.sector? n = some x → ∀ o, o < 1024 → x.valid.getLsbD (lineOf x.col o) = true →
    x.dirty.getLsbD (lineOf x.col o) = false → Sparse.get 0 x.bytes o = s.mem.read (n * 1024 + o)

/-- The checks of R153 for an access of `q.n` bytes at logical offsets, one for each lane, against a limit, and no range lock
in the way. -/
structure PermitsIn (s : State) (lim : Nat) (r : Rec) (q : Ask) (lanes : List (Nat × Int)) : Prop where
  cls : r.cls ∈ q.classes
  sound : r.refused = false
  reads : q.reads = true → r.rd = true
  writes : q.writes = true → r.wr = true
  inside : ∀ l ∈ lanes, 0 ≤ l.2 ∧ l.2 + q.n ≤ (lim : Int)
  based : r.base % r.unit = 0
  aligned : ∀ l ∈ lanes, (r.base + r.swizzle l.2.toNat) % q.n = 0
  unlocked : s.lockConflicts (hclOf s.cur.g) s.me.ident.ctx q.writes q.n (r.addrs (hclOf s.cur.g) lanes) = 0

/-- The same against the limit of R153. -/
abbrev Permits (s : State) (r : Rec) (q : Ask) (lanes : List (Nat × Int)) : Prop :=
  PermitsIn s (r.limit s (hclOf s.cur.g)) r q lanes

/-- The issuing slot's scalar stream, and the lane stream at a block, as those who ask for a translation. -/
abbrev scalarWho (s : State) : Asker := s.streamAsker s.cur.g s.cur.slotB false
abbrev laneWho (s : State) (b : Block) : Asker := s.streamAsker s.cur.g b.slotB true

/-- Each lane's address translates, to the place that `p` gives (R150, R239). -/
def Places (s : State) (q : Asker) (r : Rec) (k : Access) (lanes : List (Nat × Int)) (p : Nat × Int → Loc) : Prop :=
  ∀ l ∈ lanes, s.resolve q r.cls (r.addr (hclOf s.cur.g) l.2.toNat) k = .hit (p l)

/-- The accesses of the lanes at their places. -/
def accsOf (s : State) (r : Rec) (lanes : List (Nat × Int)) (p : Nat × Int → Loc) : List LaneAcc :=
  lanes.map (fun l => { lane := l.1, va := r.addr (hclOf s.cur.g) l.2.toNat, loc := some (p l) })

/-- What every memory instruction waits for beside its operands (R119, R258, R260). -/
abbrev MemFree (s : State) (b : BReg) : Prop := s.me.pendingB [b.toNat] = false ∧ s.me.acquiring = false

/-- The offset of a scalar access (R118). -/
abbrev offRule (s : State) (o : SReg) (imm : BitVec 8) (unit : Int) : Int := (s.me.rs o.toNat).toNat + unit * imm.toInt

/-- The record that a scalar access names. -/
abbrev recRule (s : State) (b : BReg) : Rec := recOf (s.me.rb b.toNat)

/-- Scalar accesses refuse tree and replicated records. -/
abbrev scalarAsk (n : Nat) (store : Bool) : Ask := { classes := [0, 1, 3], n := n, reads := !store, writes := store }

/-- The next state of a scalar load at issue: one load entry more, and nothing else but the pc. -/
def loadIssued (s : State) (i : Instr) (kind : LoadKind) (r : Rec) (o : Int) (p : Loc) : State :=
  (s.setMe (s.me.addLoad kind (accsOf s r [(0, o)] (fun _ => p)) 0 r.cls s.me.seq (s.scalarSite (wordOf i)))).advance

/-- The bytes that a scalar store writes. -/
def storeData (s : State) (a : SReg) (n : Nat) : List Byte :=
  natBytes 4 (s.me.rs a.toNat).toNat ++ (if n = 8 then natBytes 4 (s.me.rs (a.toNat + 1)).toNat else [])

/-- The next state of a scalar store at issue: one entry more in the store queue, charged to the team's credit. -/
def storeIssued (s : State) (r : Rec) (o : Int) (p : Loc) (data : List Byte) (charge : Nat) : State :=
  ((s.setMe (s.me.addStore (.bytes [⟨r.addr (hclOf s.cur.g) o.toNat, some p, data, r.ws, r.cls⟩]) 0 s.me.seq s.cur.slotB false)).payCredit s.cur.g charge).advance

end Sys2Proof.Claims

/-- R118 and R119: a scalar load whose checks pass and whose address translates enters the load class with its place, and
changes nothing else but the pc; the data return later. -/
def Sys2Proof.Claims.ScalarLoadsIssue : Prop :=
  ∀ (d : SReg) (bd b : BReg) (o : SReg) (imm : BitVec 8) s p, MemFree s b → s.me.loadCount < 63 →
    (Ready s [o.toNat, d.toNat] → PermitsIn s (recRule s b).extent (recRule s b) (scalarAsk 4 false) [(0, offRule s o imm 4)] →
      Places s (scalarWho s) (recRule s b) .load [(0, offRule s o imm 4)] (fun _ => p) →
      exec (.sld4 d b o imm) s = .next (loadIssued s (.sld4 d b o imm) (.scalar d.toNat 4) (recRule s b) (offRule s o imm 4) p))
    ∧ (EvenReg d → Ready s [o.toNat, d.toNat, d.toNat + 1] →
      PermitsIn s (recRule s b).extent (recRule s b) (scalarAsk 8 false) [(0, offRule s o imm 4)] →
      Places s (scalarWho s) (recRule s b) .load [(0, offRule s o imm 4)] (fun _ => p) →
      exec (.sld8 d b o imm) s = .next (loadIssued s (.sld8 d b o imm) (.scalar d.toNat 8) (recRule s b) (offRule s o imm 4) p))
    ∧ (Ready s [o.toNat] → s.me.pendingB [bd.toNat, b.toNat] = false →
      PermitsIn s (recRule s b).extent (recRule s b) (scalarAsk 16 false) [(0, offRule s o imm 16)] →
      Places s (scalarWho s) (recRule s b) .load [(0, offRule s o imm 16)] (fun _ => p) →
      exec (.brld bd b o imm) s
        = .next (loadIssued s (.brld bd b o imm) (.record bd.toNat) (recRule s b) (offRule s o imm 16) p))

/-- R118, R223 and R225: a scalar store whose checks pass, whose address translates and which credit covers enters the store
queue with the register's bytes, low word first; it changes no memory and nothing else but the credit and the pc. -/
def Sys2Proof.Claims.ScalarStoresIssue : Prop :=
  ∀ (a : SReg) (b : BReg) (o : SReg) (imm : BitVec 8) s p n, (n = 4 ∨ n = 8) → MemFree s b → s.me.storeFull = false →
    (n = 8 → EvenReg a) →
    PermitsIn s (recRule s b).extent (recRule s b) (scalarAsk n true) [(0, offRule s o imm 4)] →
    Places s (scalarWho s) (recRule s b) .store [(0, offRule s o imm 4)] (fun _ => p) →
    let charge := if (recRule s b).cls = 0 then storeCharge n [(recRule s b).addr (hclOf s.cur.g) (offRule s o imm 4).toNat] else 0
    ((recRule s b).cls = 0 → s.creditFor s.cur.g charge = true) →
    exec (if n = 4 then .sst4 a b o imm else .sst8 a b o imm) s
      = .next (storeIssued s (recRule s b) (offRule s o imm 4) p (storeData s a n) charge)

/-- R118: the checks of a scalar access in order, its offset against the extent alone, and what each raises; a failing check changes no register and no
memory but what the trap's delivery or the context's end does. -/
def Sys2Proof.Claims.ScalarAccessTraps : Prop :=
  ∀ (d : SReg) (b : BReg) (o : SReg) (imm : BitVec 8) s, MemFree s b → s.me.loadCount < 63 → Ready s [o.toNat, d.toNat] →
    let r := recRule s b
    let off := offRule s o imm 4
    let bad1 := r.cls = 2 ∨ r.cls = 4
    let bad2 := off < 0 ∨ (r.extent : Int) < off + 4 ∨ r.rd = false
    let bad3 := (r.base + r.swizzle off.toNat) % 4 ≠ 0
    let traps (c : Nat) := exec (.sld4 d b o imm) s = .next (s.trapWord (wordOf (.sld4 d b o imm)) c 0 0)
    (bad1 → traps 0x01) ∧ (¬bad1 → r.refused = false → r.cls < 5 → bad2 → traps 0x05)
      ∧ (¬bad1 → r.refused = false → r.cls < 5 → ¬bad2 → r.base % r.unit = 0 → bad3 → traps 0x15)

/-- R119, R158, R250 and R252: the data of a scalar load, all of whose access has its place and reads no poison, return: the
register or record gets the bytes that the load sees, the entry leaves the load class, and no byte of memory changes. A
record image that R119 refuses is not written (its rule has a statement of its own). -/
def Sys2Proof.Claims.ScalarLoadReturns : Prop :=
  ∀ g s (e : LoadEntry) (p : Nat × Loc), LlcCoherent s → (s.group g).loads = [e] → e.got = [] → e.accs = [{ lane := 0, va := p.1, loc := some p.2 }] →
    (s.logOf g) = [] → (s.group g).stores = [] → (∀ h ∈ s.hcls, h.2.packets = []) → s.ras.poison = [] →
    let bytes (n : Nat) : List Byte := (List.range n).map (fun i => s.loadByte g e.id e.cls false (p.2.plus i))
    (∀ rd n, e.kind = .scalar rd n → (n = 4 ∨ n = 8) →
      ∃ t, exec (.loadDataReturn g e.id) s = .next t ∧ (t.group g).loads = []
        ∧ (t.group g) = { s.group g with s := (t.group g).s, loads := [], replayLog := (t.group g).replayLog }
        ∧ (∀ r, ¬(rd ≤ r ∧ r < rd + n / 4) → (t.group g).rs r = (s.group g).rs r)
        ∧ (n = 4 → rd ≠ 0 → (t.group g).rs rd = BitVec.ofNat 32 (bytesNat (bytes 4)))
        ∧ (n = 8 → rd ≠ 0 → (t.group g).rs64 rd = BitVec.ofNat 64 (bytesNat (bytes 8)))
        ∧ (∀ a, t.devByte a = s.devByte a))
    ∧ (∀ bd, e.kind = .record bd → imageRefused (BitVec.ofNat 128 (bytesNat (bytes 16))) = false →
      ∃ t, exec (.loadDataReturn g e.id) s = .next t ∧ (t.group g).loads = []
        ∧ (t.group g).rb bd = BitVec.ofNat 128 (bytesNat (bytes 16))
        ∧ (∀ r, r ≠ bd → (t.group g).rb r = (s.group g).rb r) ∧ (∀ a, t.devByte a = s.devByte a))

namespace Sys2Proof.Claims

open Sys2Proof.Machine

/-- The byte that a list of writes leaves at device address `a`: the last write over it, else the old one. A class 3 write is
made in its window's working half (R264). -/
def afterWrites (s : State) (a : Nat) (ws : List Write) : Byte :=
  ws.foldl (fun v w => match w.loc.map (s.redirect w.cls) with
    | some (.dev d) => if d ≤ a ∧ a < d + w.data.length then w.data.getD (a - d) 0 else v
    | _ => v) (s.devByte a)

end Sys2Proof.Claims

/-- R223, R228, R250 and R251: when the entry at the head of a store queue leaves it, every device byte that its writes cover
reads at its home as written last, every other device byte reads as before, and the entry is gone; after a DISCARD the bytes
of the lines given up read as they stood or as memory held them, and the others as before; a dirty sector's write-back changes
no byte. -/
def Obligations.StoreDrains : Prop :=
  (∀ g s (e : StoreEntry) rest ws, LlcCoherent s → (s.group g).stores = e :: rest → e.kind = .bytes ws →
    (∀ w ∈ ws, ∃ d, w.loc = some (.dev d)) → s.logHeads g = [] → s.logOf g = [] → (s.group g).loads = [] →
    (s.group g).feStores = [] → (∀ h ∈ s.hcls, h.2.packets = []) →
    ∃ t, exec (.storeQueueDrain g) s = .next t ∧ (t.group g).stores = rest
      ∧ (∀ a, t.devByte a = afterWrites s a ws)
      ∧ t.host.mem = s.host.mem ∧ (∀ h, h ≠ g → t.group h = s.group h)
      ∧ (t.group g) = { s.group g with stores := rest, dirtySectors := (t.group g).dirtySectors })
  ∧ (∀ g s (e : StoreEntry) rest lines stream, LlcCoherent s → (s.group g).stores = e :: rest → e.kind = .discard lines stream →
    s.logHeads g = [] → (s.group g).loads = [] → (s.group g).feStores = [] → (∀ h ∈ s.hcls, h.2.packets = []) →
    ∃ t, exec (.storeQueueDrain g) s = .next t ∧ t.group g = { s.group g with stores := rest } ∧ t.mem = s.mem
      ∧ (∀ a, a / 32 ∉ lines → t.devByte a = s.devByte a)
      ∧ (∀ a, a / 32 ∈ lines → t.devByte a = s.devByte a ∨ t.devByte a = s.mem.read a))
  ∧ (∀ n s, ∃ t, exec (.sectorWriteBack n) s = .next t ∧ (∀ a, t.devByte a = s.devByte a)
      ∧ (∀ x, t.sector? n = some x → x.dirty = 0) ∧ t.groups = s.groups ∧ t.cores = s.cores)
  ∧ (∀ g s, ∃ t, exec (.pcieReadCompletion g) s = .next t ∧ t = s.setGroup g { s.group g with posted := false })

/-- R120 and R121: the narrowing forms of BRNAR and BRGET's fields. -/
def Sys2Proof.Claims.RecordNarrowing : Prop :=
  ∀ (d b : BReg) (o x : SReg) (sel : BitVec 8) s, s.me.pendingB [d.toNat, b.toNat] = false → s.me.pendingB [b.toNat] = false →
    Ready s [o.toNat] → Ready s [0] → Ready s [x.toNat] →
    let r := recRule s b
    let v := (s.me.rs o.toNat).toNat
    (v ≤ r.extent → ∃ t, exec (.brnarAdd d o b) s = .next t ∧ RegsOnly [] [] [d.toNat] s t
      ∧ recOf (t.me.rb d.toNat) = { r with base := (r.base + v) % 2 ^ 57, extent := r.extent - v })
    ∧ (r.extent < v → exec (.brnarAdd d o b) s = .next (s.trapWord (wordOf (.brnarAdd d o b)) causeBounds 0 0))
    ∧ (∃ t, exec (.brnarMin d o b) s = .next t ∧ RegsOnly [] [] [d.toNat] s t
      ∧ recOf (t.me.rb d.toNat) = { r with extent := Nat.min r.extent v })
    ∧ (∃ t, exec (.brnarRo d b) s = .next t ∧ RegsOnly [] [] [d.toNat] s t
      ∧ recOf (t.me.rb d.toNat) = { r with wr := false })
    ∧ (sel.toNat ≤ 9 → exec (.brget x b sel) s = .next (wrote s x (BitVec.ofNat 32
        (match sel.toNat with
          | 0 => r.base % 2 ^ 32 | 1 => r.base / 2 ^ 32 | 2 => r.cls | 3 => (if r.rd then 2 else 0) + (if r.wr then 1 else 0)
          | 4 => r.ws | 5 => r.extent % 2 ^ 32 | 6 => r.extent / 2 ^ 32 | 7 => r.pitch | 8 => r.swz | _ => r.fmt))))
    ∧ (10 ≤ sel.toNat → exec (.brget x b sel) s = .next (s.trapWord (wordOf (.brget x b sel)) causeIllegal 0 0))

/-! ### Lane loads and stores -/

namespace Sys2Proof.Claims

open Sys2Proof.Machine

/-- The record of a lane access, and its lanes' offsets (R151). -/
abbrev laneRec (s : State) (f : LM) : Rec := recOf (s.me.rb f.b.toNat)
def laneOffs (s : State) (b : Block) (f : LM) : List (Nat × Int) :=
  ((List.range 32).filter (s.me.laneMask b f.kq).getLsbD).map
    (fun i => (i, ((s.me.rv f.voff.toNat i).toNat : Int) + f.disp.toInt))

/-- The load entry that a lane load leaves (R158). -/
def laneEntry (i : Instr) (s : State) (b : Block) (kind : LoadKind) (accs : List LaneAcc) (hint cls : Nat) : Machine.Group :=
  s.me.addLoad kind accs hint cls b.seq (s.me.laneSite b (laneWord i))

/-- The bytes of a lane's data, low register first. -/
def laneData (s : State) (vd n i : Nat) : List Byte := s.me.laneBytes vd n i

/-- The write of one lane's access on the instruction's write stream. -/
def laneWrite (s : State) (f : LM) (a : LaneAcc) : Write :=
  ⟨a.va, a.loc, laneData s f.vd.toNat (2 ^ f.wc.toNat) a.lane, f.stream.toNat, (laneRec s f).cls⟩

/-- A lane store that enters the store queue whole (R156): the group, and the team's credit. -/
def StoreQueued (i : Instr) (f : LM) (s : State) (b : Block) (ws : List Write) (charge : Nat) : Prop :=
  exec i s = .next (((s.setMe (s.me.addStore (.bytes ws) f.hint.toNat b.seq b.slotB true)).payCredit s.cur.g charge).laneDone
    (s.me.laneAt b (laneWord i) f.kq))

/-- The offsets of VLDT's lanes (R221): lane l reads the element l rows below that of the lowest lane's column. -/
def columnOffs (s : State) (b : Block) (f : LM) : List (Nat × Int) :=
  let ls := (List.range 32).filter (s.me.laneMask b f.kq).getLsbD
  let low := ls.head?.getD 0
  let o0 : Int := ((s.me.rv f.voff.toNat low).toNat : Int) + f.disp.toInt - low * ((laneRec s f).width : Int)
  ls.map (fun i => (i, o0 + i * ((laneRec s f).width : Int)))

end Sys2Proof.Claims

/-- R151, R153, R155 and R221: VLD and VLDT whose lanes all pass the checks and translate enter the load class with one
access for each active lane, and complete for their block; no register and no memory changes until the data return. -/
def Sys2Proof.Claims.LaneLoadsIssue : Prop :=
  (∀ (f : LM) s b p, Issues (.vld f) f.kq Need.plain s b → MemFree s f.b → s.me.loadCount < 63 →
    Permits s (laneRec s f) { classes := [0, 1, 3], n := 2 ^ f.wc.toNat, reads := true, writes := false } (laneOffs s b f) →
    Places s (laneWho s b) (laneRec s f) .load (laneOffs s b f) p →
    Completes (.vld f) f.kq s b (laneEntry (.vld f) s b (.lanes f.vd.toNat (2 ^ f.wc.toNat))
      (accsOf s (laneRec s f) (laneOffs s b f) p) f.hint.toNat (laneRec s f).cls))
  ∧ (∀ (f : LM) s b p, Issues (.vldt f) f.kq Need.plain s b → MemFree s f.b → s.me.loadCount < 63 → (laneRec s f).swz = 1 →
    (∀ l ∈ columnOffs s b f, (l.2 - l.1 * ((laneRec s f).width : Int)) / ((laneRec s f).width : Int) % 32 = 0
      ∧ (l.2 - l.1 * ((laneRec s f).width : Int)) % ((laneRec s f).width : Int) % ((2 ^ f.wc.toNat : Nat) : Int) = 0) →
    Permits s (laneRec s f) { classes := [0], n := 2 ^ f.wc.toNat, reads := true, writes := false } (columnOffs s b f) →
    Places s (laneWho s b) (laneRec s f) .load (columnOffs s b f) p →
    Completes (.vldt f) f.kq s b (laneEntry (.vldt f) s b (.column f.vd.toNat (2 ^ f.wc.toNat))
      (accsOf s (laneRec s f) (columnOffs s b f) p) f.hint.toNat 0))

/-- R156, R157, R223 and R225: VST whose lanes pass the checks and translate, and which credit covers, enters the store queue
whole, each lane's bytes on the instruction's write stream; VSTNB never waits for credit: it enters what credit covers and
leaves in its mask the lanes that it did not accept. -/
def Sys2Proof.Claims.LaneStoresIssue : Prop :=
  (∀ (f : LM) s b p, Issues (.vst f) f.kq Need.plain s b → MemFree s f.b → s.me.storeFull = false →
    Permits s (laneRec s f) { classes := [0, 1, 3], n := 2 ^ f.wc.toNat, reads := false, writes := true } (laneOffs s b f) →
    Places s (laneWho s b) (laneRec s f) .store (laneOffs s b f) p →
    let accs := accsOf s (laneRec s f) (laneOffs s b f) p
    let charge := if (laneRec s f).cls = 0 then storeCharge (2 ^ f.wc.toNat) (accs.map (·.va)) else 0
    s.creditFor s.cur.g charge = true →
    StoreQueued (.vst f) f s b (accs.map (laneWrite s f)) charge)
  ∧ (∀ (f : LM) s b p, Issues (.vstnb f) f.kq Need.plain s b → MemFree s f.b → s.me.storeFull = true →
    Permits s (laneRec s f) { classes := [0, 1, 3], n := 2 ^ f.wc.toNat, reads := false, writes := true } (laneOffs s b f) →
    Places s (laneWho s b) (laneRec s f) .store (laneOffs s b f) p →
    ∃ y, Completes (.vstnb f) f.kq s b y ∧ MaskOnly s.me y (f.second.toNat % 16) (Active s b f.kq)
      ∧ ∀ i, Active s b f.kq i → (y.rk (f.second.toNat % 16)).getLsbD i = true)
  ∧ (∀ (f : LM) s b p, Issues (.vstnb f) f.kq Need.plain s b → MemFree s f.b → s.me.storeFull = false →
    s.teamOf s.cur.g = none → laneOffs s b f ≠ [] →
    Permits s (laneRec s f) { classes := [0, 1, 3], n := 2 ^ f.wc.toNat, reads := false, writes := true } (laneOffs s b f) →
    Places s (laneWho s b) (laneRec s f) .store (laneOffs s b f) p →
    ∃ t, exec (.vstnb f) s = .next t ∧ (∀ i, Active s b f.kq i → (t.me.rk (f.second.toNat % 16)).getLsbD i = false)
      ∧ t.me.stores = s.me.stores ++ [⟨s.me.seq, b.seq,
          .bytes ((accsOf s (laneRec s f) (laneOffs s b f) p).map (laneWrite s f)), f.hint.toNat, b.slotB, true⟩])

/-- R85, R161 to R163: VLDB reads for each live slot its 64-byte block at the lowest active lane's offset; VSTB, when every
granule it names is named whole, stores one block for each granule. -/
def Sys2Proof.Claims.BlockAccessIssue : Prop :=
  (∀ (f : LM) s b p, Issues (.vldb f) f.kq (blockNeed f) s b → MemFree s f.b → s.me.loadCount < 63 → (laneRec s f).swz = 0 →
    (laneRec s f).base % 64 = 0 →
    let w := s.me.frecOf f.b.toNat
    let vs := liveSlots f (widest w) (s.me.laneAt b (laneWord (.vldb f)) f.kq) s.me
    Permits s (laneRec s f) { classes := [0, 1, 3], n := 64, reads := true, writes := false } (slotLanes w vs) →
    Places s (laneWho s b) (laneRec s f) .load (slotLanes w vs) p →
    ∃ y e, Completes (.vldb f) f.kq s b y ∧ y = { s.me with loads := s.me.loads ++ [e], seq := s.me.seq + 1 }
      ∧ e.kind = .blocks f.vd.toNat f.second.toNat (s.me.laneMask b f.kq) w (vs.map (fun v => (v.low, v.slot, v.sub)))
      ∧ ∀ v ∈ vs, ∃ a ∈ e.accs, a.lane = v.low ∧ a.loc = some (p (v.low, v.base w)))
  ∧ (∀ (f : LM) s b p, Issues (.vstb f) f.kq (blockNeed f) s b → MemFree s f.b → s.me.storeFull = false →
    (laneRec s f).swz = 0 → (laneRec s f).base % 64 = 0 → s.teamOf s.cur.g = none →
    let w := s.me.frecOf f.b.toNat
    let vs := liveSlots f (widest w) (s.me.laneAt b (laneWord (.vstb f)) f.kq) s.me
    (∀ g ∈ blockGroups w vs, granuleWhole w g.2 = true) →
    Permits s (laneRec s f) { classes := [0, 1, 3], n := 64, reads := false, writes := true } (slotLanes w vs) →
    Places s (laneWho s b) (laneRec s f) .store (slotLanes w vs) p →
    ∃ t e, exec (.vstb f) s = .next t ∧ t.me.stores = s.me.stores ++ [e]
      ∧ (∃ ws, e.kind = .bytes ws ∧ ws.length = (blockGroups w vs).length) ∧ (∀ a, t.devByte a = s.devByte a))

/-- R158 and R250: the data of a VLD return: each lane's registers get the bytes that the load sees at the lane's place, the
entry leaves the load class, every other register and every byte of memory is as before. -/
def Sys2Proof.Claims.LaneLoadReturns : Prop :=
  ∀ g s (e : LoadEntry) vd n, LlcCoherent s → (s.group g).loads = [e] → e.got = [] → e.accs ≠ [] → e.kind = .lanes vd n →
    n ∈ [1, 2, 4, 8, 16] → (∀ a ∈ e.accs, a.lane < 32 ∧ a.loc ≠ none) → (e.accs.map (·.lane)).Nodup →
    (s.logOf g) = [] → (s.group g).stores = [] → (∀ h ∈ s.hcls, h.2.packets = []) → s.ras.poison = [] →
    ∃ t, exec (.loadDataReturn g e.id) s = .next t ∧ (t.group g).loads = []
      ∧ (∀ a ∈ e.accs, ∀ p, a.loc = some p → ∀ k, k < (n + 3) / 4 → (t.group g).rv (vd + k) a.lane
          = BitVec.ofNat 32 (bytesNat (((List.range n).map (fun i => s.loadByte g e.id e.cls false (p.plus i))).drop (4 * k))))
      ∧ (∀ r i, i < 32 → ¬(vd ≤ r ∧ r < vd + (n + 3) / 4 ∧ i ∈ e.accs.map (·.lane)) → (t.group g).rv r i = (s.group g).rv r i)
      ∧ (∀ r, (t.group g).rs r = (s.group g).rs r) ∧ (∀ a, t.devByte a = s.devByte a)

namespace Sys2Proof.Claims

open Sys2Proof.Machine

/-! ### Divergence (R166 to R180) -/

/-- The issuing part's top join entry is `e`, number `n`. -/
abbrev TopIs (s : State) (n : Nat) (e : JoinEntry) : Prop := s.sl.top = some n ∧ Sparse.find s.me.joins n = some e

/-- The issuing slot holds a part whose lane blocks have completed, outside a trap handler (R169, R338). -/
abbrev PartReady (s : State) : Prop :=
  s.me.inHandler = false ∧ s.sl.live = true ∧ (∀ b ∈ s.me.blocks, b.slotB ≠ s.cur.slotB) ∧ s.me.draining = []

/-- Entry `e` after the part in the issuing slot arrives (R172): the loop registers kept are those of the part with the
lowest lane. -/
def arrivedIn (s : State) (e : JoinEntry) : JoinEntry :=
  { e with count := e.count - 1, arrived := e.arrived ||| s.sl.lanes,
           loops := if e.arrived = 0 ∨ lowLane s.sl.lanes < lowLane e.arrived then s.sl.loops else e.loops }

/-- The parts of a group: the pc and the lanes that execute (XM) of each slot in use and each continuation. -/
def partsOf (x : Machine.Group) : List (Dword × Word) :=
  (if x.slotA.live then [(x.slotA.pc, x.slotA.xm)] else []) ++ (if x.slotB.live then [(x.slotB.pc, x.slotB.xm)] else [])
    ++ x.conts.map (fun c => (c.pc, c.lanes))

/-- The slot that the issuing slot is not. -/
abbrev otherSlot (s : State) (t : State) : Slot := t.me.slot (!s.cur.slotB)

/-- The sides of BRD: the lanes of XM in the mask and those outside it. -/
abbrev takenSide (s : State) (k : KReg) : Word := s.sl.xm &&& s.me.rk k.toNat
abbrev fallSide (s : State) (k : KReg) : Word := s.sl.xm &&& ~~~s.me.rk k.toNat

/-- The lanes that EXIT names. -/
abbrev exitSide (s : State) (k : KReg) : Word := if k = 0 then s.sl.xm else s.sl.xm &&& s.me.rk k.toNat

/-- Nothing of the group is in flight (R19, R31): no lane block, load, store, copy or batch, no logged store, no packet. -/
abbrev Quiet (s : State) : Prop :=
  s.me.blocks = [] ∧ s.me.draining = [] ∧ s.me.loads = [] ∧ s.me.stores = [] ∧ s.me.feStores = [] ∧ s.me.storesOther = []
    ∧ s.me.copies = 0 ∧ s.me.inFlight = [] ∧ s.me.locks = [] ∧ s.logOf s.cur.g = [] ∧ s.packetsOf s.cur.g = false

/-- Some other live group of the issuing group's team, where it is in one, waits at no barrier and at no phase end. -/
def TeamBusy (s : State) : Prop :=
  ∀ tm, s.teamOf s.cur.g = some tm → ∃ i h, i ≠ s.me.ident.index ∧ i ∈ tm.live ∧ tm.members[i]? = some h ∧ h ≠ s.cur.g
    ∧ (s.group h).slotWaiting .bar = none ∧ (s.group h).slotWaiting .phend = none

end Sys2Proof.Claims

/-- R171 to R174, R178 and R179: JSET opens a join region in the lowest free entry; at the JOIN of a region a part arrives,
and the last one goes on as the merged part at the next word; BRD whose lanes agree only goes on or branches, and
otherwise divides the part, the taken side going to a free slot, or, with both slots in use, the side with more lanes (the fall-through side on a
tie is the one that stays) to a continuation record; RETX goes to its region's JOIN; EXIT of some lanes retires them. -/
def Sys2Proof.Claims.DivisionAndJoin : Prop :=
  (∀ (d : BitVec 15) s n, s.me.inHandler = false → n < 16 → Sparse.find s.me.joins n = none →
    (∀ m, m < n → Sparse.find s.me.joins m ≠ none) →
    ∃ t, exec (.jset d) s = .next t ∧ OnlyGroup s.cur.g s t ∧ t.sl = ({ s.sl with top := some n }).advance
      ∧ Sparse.find t.me.joins n = some ⟨pcPlus s.sl.pc d.toInt, 1, 0, s.sl.depth, false, loopsZero, s.sl.top⟩
      ∧ (∀ m, m ≠ n → Sparse.find t.me.joins m = Sparse.find s.me.joins m))
  ∧ (∀ s n e, PartReady s → TopIs s n e → e.joinPc = s.sl.pc → e.depth = s.sl.depth → 2 ≤ e.count → (otherSlot s s).live = true →
    ∃ t, exec .join s = .next t ∧ OnlyGroup s.cur.g s t ∧ Sparse.find t.me.joins n = some (arrivedIn s e)
      ∧ otherSlot s t = otherSlot s s
      ∧ (s.me.conts = [] → t.sl = Slot.free)
      ∧ (∀ c rest, s.me.conts = c :: rest → t.me.conts = rest ∧ t.sl = Slot.ofCont c))
  ∧ (∀ s n e, PartReady s → TopIs s n e → e.joinPc = s.sl.pc → e.depth = s.sl.depth → e.count = 1 →
    ∃ t, exec .join s = .next t ∧ OnlyGroup s.cur.g s t ∧ Sparse.find t.me.joins n = none
      ∧ t.me.slot (s.cur.slotB && s.me.slotA.live) = { Slot.free with
          live := true, pc := e.joinPc + 4, xm := (arrivedIn s e).arrived, lanes := (arrivedIn s e).arrived,
          depth := e.depth, loops := (arrivedIn s e).loops, top := e.parent })
  ∧ (∀ s n e, s.me.inHandler = false → TopIs s n e → e.call = true → e.depth = s.sl.depth →
    exec .retx s = .next (s.setSl { s.sl with pc := e.joinPc, wait := .none }))
  ∧ (∀ (k : KReg) (d : BitVec 15) s n e, k ≠ 0 → PartReady s → TopIs s n e →
    (takenSide s k = 0 → exec (.brd k d) s = .next s.advance)
    ∧ (takenSide s k ≠ 0 → fallSide s k = 0 →
        exec (.brd k d) s = .next (s.setSl { s.sl with pc := pcPlus s.sl.pc d.toInt, wait := .none }))
    ∧ (takenSide s k ≠ 0 → fallSide s k ≠ 0 → (otherSlot s s).live = false →
        ∃ t, exec (.brd k d) s = .next t ∧ OnlyGroup s.cur.g s t
          ∧ t.sl.pc = s.sl.advance.pc ∧ t.sl.xm = fallSide s k ∧ t.sl.lanes = fallSide s k ||| (s.sl.lanes &&& ~~~s.sl.xm)
          ∧ (otherSlot s t).live = true ∧ (otherSlot s t).pc = pcPlus s.sl.pc d.toInt ∧ (otherSlot s t).xm = takenSide s k
          ∧ (otherSlot s t).lanes = takenSide s k ∧ t.me.conts = s.me.conts
          ∧ Sparse.find t.me.joins n = some { e with count := e.count + 1 })
    ∧ (takenSide s k ≠ 0 → fallSide s k ≠ 0 → (otherSlot s s).live = true → s.me.conts.length < 4 →
        ∃ t c, exec (.brd k d) s = .next t ∧ OnlyGroup s.cur.g s t ∧ t.me.conts = s.me.conts ++ [c]
          ∧ otherSlot s t = otherSlot s s ∧ Sparse.find t.me.joins n = some { e with count := e.count + 1 }
          ∧ (popNat 32 (takenSide s k).toNat ≤ popNat 32 (fallSide s k).toNat →
              t.sl.pc = s.sl.advance.pc ∧ t.sl.xm = fallSide s k ∧ c.pc = pcPlus s.sl.pc d.toInt ∧ c.lanes = takenSide s k)
          ∧ (popNat 32 (fallSide s k).toNat < popNat 32 (takenSide s k).toNat →
              t.sl.pc = pcPlus s.sl.pc d.toInt ∧ t.sl.xm = takenSide s k ∧ c.pc = s.sl.advance.pc ∧ c.lanes = fallSide s k)))
  ∧ (∀ (k : KReg) s, PartReady s → s.sl.lanes &&& ~~~exitSide s k ≠ 0 →
    ∃ t, exec (.exit k) s = .next t ∧ OnlyGroup s.cur.g s t ∧ t.me.exited = s.me.exited ||| exitSide s k
      ∧ t.sl = ({ s.sl with lanes := s.sl.lanes &&& ~~~exitSide s k, xm := s.sl.xm &&& ~~~exitSide s k }).advance)

/-- R31, R179 and R180: the EXIT of a group's last lanes, with no part, join entry or continuation left and nothing in
flight, ends the group: its entry is free, its flame is free, and its registers pass to the team's pool. -/
def Obligations.ExitEndsGroup : Prop :=
  ∀ (k : KReg) s, PartReady s → s.sl.lanes &&& ~~~exitSide s k = 0 → (otherSlot s s).live = false → s.me.conts = [] →
    s.me.joins = [] → s.sl.top = none → Quiet s → TeamBusy s → s.me.ident.shade = none → s.me.reservations = [] →
    ∃ t, exec (.exit k) s = .next t ∧ (t.group s.cur.g).resident = false
      ∧ t.holdsFlame s.cur.g = false ∧ (∀ a, t.mem.read a = s.mem.read a) ∧ (∀ h, h ≠ s.cur.g → t.group h = s.group h)
      ∧ ∀ tm, s.teamOf s.cur.g = some tm → ∃ tn, t.team? s.me.ident.team = some tn
          ∧ tn.live = tm.live.filter (· != s.me.ident.index) ∧ tn.pool = tm.pool + 8 * s.me.csr.budget.toNat

namespace Sys2Proof.Claims

open Sys2Proof.Machine

/-- The active lanes of a scalar instruction and the table address that each one reads (R175). -/
def xmLanes (s : State) : List Nat := (List.range 32).filter s.sl.xm.getLsbD
def tableSlots (s : State) (v : VReg) (p : SReg) : List Nat :=
  (xmLanes s).map (fun l => ((s.me.rs64 p.toNat).toNat + 4 * (s.me.rv v.toNat l).toNat) % 2 ^ 64)

/-- Every other group and every device byte is as before: what an instruction that reads memory at once leaves. -/
def GroupAndCaches (s t : State) : Prop :=
  (∀ h, h ≠ s.cur.g → t.group h = s.group h) ∧ (LlcCoherent s → ∀ a, t.devByte a = s.devByte a)

/-- The target that a table word names. -/
def tableTarget (s : State) (w : Word) : Int := s.sl.pc.toNat + 4 * w.toInt

/-- BRX or CALLX reads its table: a register below the budget and ready, an aligned table, every lane's index below the
length; `ws` are the words that the group's loads see there. -/
structure ReadsTable (s : State) (v : VReg) (p : SReg) (len : BitVec 12) (n : Nat) (e : JoinEntry) (ws : List Word) : Prop where
  part : PartReady s
  top : TopIs s n e
  fields : p.toNat % 2 = 0 ∧ len ≠ 0
  budget : v.toNat < 8 * s.me.csr.budget.toNat
  ready : s.pendingV s.cur.g [(v.toNat, 1)] = false ∧ Ready s [p.toNat, p.toNat + 1]
  lanes : xmLanes s ≠ []
  within : ∀ l ∈ xmLanes s, (s.me.rv v.toNat l).toNat < len.toNat
  aligned : (s.me.rs64 p.toNat).toNat % 4 = 0
  read : ∃ u, s.readWords (tableSlots s v p) = .words ws u
  legal : ∀ w ∈ ws, 0 ≤ tableTarget s w ∧ tableTarget s w < 2 ^ 57

end Sys2Proof.Claims

/-- R175 to R177: after BRX every lane of XM is in a part at the target that its table entry names, and the region's count
rises by one for each part beyond the first; with one target nothing divides. CALLX of lanes with one target whose
procedure header is well-formed and within the budget goes there and marks its region as called. An index at or beyond the
length raises TABLE with those lanes, a misaligned table ALIGN. -/
def Sys2Proof.Claims.TableBranches : Prop :=
  (∀ (v : VReg) (p : SReg) (len : BitVec 12) s n e ws, ReadsTable s v p len n e ws → s.me.conts = [] →
    (distinct (ws.map (tableTarget s))).length ≤ 5 →
    ∃ t, exec (.brx v p len) s = .next t ∧ GroupAndCaches s t
      ∧ (∀ l w, (l, w) ∈ (xmLanes s).zip ws →
          ∃ q ∈ partsOf t.me, q.1 = BitVec.ofInt 64 (tableTarget s w) ∧ q.2.getLsbD l = true)
      ∧ Sparse.find t.me.joins n = some { e with count := e.count + ((distinct (ws.map (tableTarget s))).length - 1) })
  ∧ (∀ (v : VReg) (p : SReg) (len : BitVec 12) s n e ws tg h, ReadsTable s v p len n e ws → (∀ w ∈ ws, tableTarget s w = tg) → s.me.conts.length ≤ 31 →
    (∀ u, s.readWords (tableSlots s v p) = .words ws u →
      ∃ z, u.readWords [(tg.toNat + 2 ^ 64 - 4) % 2 ^ 64] = .words [h] z) →
    h.toNat / 2 ^ 16 = 0xF7C0 → h.toNat / 64 % 1024 = 0 → 1 ≤ h.toNat % 64 → h.toNat % 64 ≤ 32 →
    h.toNat % 64 ≤ s.me.csr.budget.toNat →
    ∃ t, exec (.callx v p len) s = .next t ∧ GroupAndCaches s t ∧ t.sl.pc = BitVec.ofInt 64 tg ∧ t.sl.xm = s.sl.xm
      ∧ t.sl.depth = s.sl.depth ∧ t.sl.loops = s.sl.loops ∧ Sparse.find t.me.joins n = some { e with call := true })
  ∧ (∀ (v : VReg) (p : SReg) (len : BitVec 12) s n e m, PartReady s → TopIs s n e → p.toNat % 2 = 0 → len ≠ 0 →
    v.toNat < 8 * s.me.csr.budget.toNat → s.pendingV s.cur.g [(v.toNat, 1)] = false → Ready s [p.toNat, p.toNat + 1] →
    (∀ l, l < 32 → (m.getLsbD l = true ↔ l ∈ xmLanes s ∧ len.toNat ≤ (s.me.rv v.toNat l).toNat)) →
    (m ≠ 0 → exec (.brx v p len) s = .next (s.trapWord (wordOf (.brx v p len)) causeTable m 0))
    ∧ (m = 0 → xmLanes s ≠ [] → (s.me.rs64 p.toNat).toNat % 4 ≠ 0 →
        exec (.brx v p len) s = .next (s.trapWord (wordOf (.brx v p len)) causeAlign s.sl.xm 0)))

/-! ### Fences and publication (R254 to R257, R264, R265) -/

namespace Sys2Proof.Claims

open Sys2Proof.Machine

/-- Every other field of the issuing group's slot than its pc and loops is as before, and it goes on. -/
def WentOn (s t : State) : Prop := t.sl = s.sl.advance ∧ t.me.slot (!s.cur.slotB) = s.me.slot (!s.cur.slotB)

/-- What a release of the group leaves at system or pod scope (R255): the sectors it stored to are clean, and every byte is
as before. -/
def WrittenBack (s t : State) : Prop :=
  (∀ n ∈ s.me.dirtySectors, ∀ x, t.sector? n = some x → x.dirty = 0) ∧ t.me.dirtySectors = []
    ∧ ∀ a, t.devByte a = s.devByte a

/-- Window `w` of R264 with its version, its working half and its user. -/
abbrev windowAt (s : State) (w : Nat) : Window := s.window w

/-- The eight bytes of a version in host memory. -/
def VersionPosted (t : State) (x : Window) : Prop :=
  ∀ i, i < 8 → t.hostByte (x.vera + i) = (natBytes 8 x.ver).getD i 0

end Sys2Proof.Claims

/-- R254 to R257 and R218: with nothing of the group in flight, and at system scope no posted write outstanding, a fence goes
on; an acquire from cluster scope up empties the L1; a release from system scope up writes back every sector that the group
stored to; FENCE.S waits for its streams alone. With a load in flight an acquire waits. -/
def Sys2Proof.Claims.FencesOrder : Prop :=
  (∀ (sc : BitVec 3) s, sc.toNat < 7 → s.sl.wait = .none → s.me.blocks = [] → s.me.loads = [] →
    ∃ t, exec (.fenceAcquire sc) s = .next t ∧ WentOn s t ∧ t.llc = s.llc ∧ t.mem = s.mem
      ∧ (2 ≤ sc.toNat → (t.core (coreOf s.cur.g)).l1 = []) ∧ (sc.toNat < 2 → t = s.advance))
  ∧ (∀ (sc : BitVec 3) s, sc.toNat < 7 → s.sl.wait = .none → s.me.blocks = [] →
    (∃ e ∈ s.me.loads, e.seq < s.me.seq) →
    exec (.fenceAcquire sc) s = .next (s.setSl { s.sl with wait := .fence s.me.seq }))
  ∧ (∀ (sc : BitVec 3) s, sc.toNat < 7 → s.sl.wait = .none → Quiet s → (5 ≤ sc.toNat → s.me.posted = false) →
    (∃ t, exec (.fenceRelease sc) s = .next t ∧ WentOn s t ∧ (5 ≤ sc.toNat → WrittenBack s t) ∧ (sc.toNat < 5 → t = s.advance))
    ∧ (∃ t, exec (.fenceFull sc) s = .next t ∧ WentOn s t ∧ (5 ≤ sc.toNat → WrittenBack s t)
      ∧ (2 ≤ sc.toNat → (t.core (coreOf s.cur.g)).l1 = [])))
  ∧ (∀ (sc : BitVec 3) (w : BitVec 4) s, sc.toNat < 7 → w ≠ 0 → s.sl.wait = .none → s.me.blocks = [] → s.logOf s.cur.g = [] →
    (∀ e ∈ s.me.stores, ∀ i ∈ e.kind.streams, w.getLsbD i = false) → (5 ≤ sc.toNat → s.me.posted = false) →
    ∃ t, exec (.fenceS sc w) s = .next t ∧ WentOn s t ∧ (sc.toNat < 5 → t = s.advance))

/-- R264 and R265: PUBLISH of an enabled window of the group's context queues for the window in the order of arrival; the
first of the queue posts the odd version; after the PCIe read that follows it, the halves change places, the even version is
posted, and the next of the queue is served. A window above 63, disabled or of another context raises ILLEGAL. -/
def Sys2Proof.Claims.PublishTurnsWindow : Prop :=
  (∀ (a : SReg) s, Ready s [a.toNat] → (s.me.rs a.toNat).toNat < 64 → (windowAt s (s.me.rs a.toNat).toNat).flags % 2 = 1 →
    (windowAt s (s.me.rs a.toNat).toNat).ctx = s.me.ident.ctx →
    let w := (s.me.rs a.toNat).toNat
    ((windowAt s w).busy = [] → (windowAt s w).ver % 2 = 0 → Quiet s → s.sl.wait = .none → s.me.heldWait = .none →
      ∃ t, exec (.publish a) s = .next t
        ∧ windowAt t w = { windowAt s w with ver := (windowAt s w).ver + 1, busy := [(s.cur.g, s.cur.slotB)] }
        ∧ t.me.posted = true ∧ t.me.storeCount = 1 ∧ t.sl = { s.sl with wait := .publish w } ∧ VersionPosted t (windowAt t w))
    ∧ ((windowAt s w).busy ≠ [] → (s.cur.g, s.cur.slotB) ∉ (windowAt s w).busy → Quiet s → s.sl.wait = .none →
        s.me.heldWait = .none →
      ∃ t, exec (.publish a) s = .next t
        ∧ windowAt t w = { windowAt s w with busy := (windowAt s w).busy ++ [(s.cur.g, s.cur.slotB)] }
        ∧ t.sl.pc = s.sl.pc ∧ t.host.mem = s.host.mem ∧ t.me.posted = s.me.posted)
    ∧ (s.sl.wait = .publish w → s.me.posted = false →
      ∃ t, exec (.publish a) s = .next t ∧ WentOn s t
        ∧ windowAt t w = { windowAt s w with p := !(windowAt s w).p, ver := (windowAt s w).ver + 1,
                                             busy := (windowAt s w).busy.drop 1 }
        ∧ t.me.posted = true ∧ VersionPosted t (windowAt t w)))
  ∧ (∀ (a : SReg) s, Ready s [a.toNat] → 64 ≤ (s.me.rs a.toNat).toNat ∨ (windowAt s (s.me.rs a.toNat).toNat).flags % 2 = 0
      ∨ (windowAt s (s.me.rs a.toNat).toNat).ctx ≠ s.me.ident.ctx →
    exec (.publish a) s = .next (s.trapWord (wordOf (.publish a)) causeIllegal 0 0))

/-! ### Teams (R195, R196, R202, R290, R304 to R306) -/

namespace Sys2Proof.Claims

open Sys2Proof.Machine

/-- The group is convergent in its issuing slot, outside a handler and waiting for nothing (R181). -/
abbrev Alone (s : State) : Prop :=
  s.me.inHandler = false ∧ s.sl.live = true ∧ s.sl.xm = fullMask ∧ s.me.conts = [] ∧ (otherSlot s s).live = false
    ∧ s.sl.wait = .none

/-- The issuing group is a live member of team `tm`, whose phase runs. -/
abbrev MemberOf (s : State) (tm : Team) : Prop :=
  s.teamOf s.cur.g = some tm ∧ tm.stage = .running ∧ s.me.ident.index ∈ tm.live ∧ tm.members[s.me.ident.index]? = some s.cur.g
    ∧ tm.live.Nodup ∧ tm.members.Nodup

/-- Group `h` is another live member of team `tm`. -/
abbrev OtherMember (s : State) (tm : Team) (h : Nat) : Prop := h ≠ s.cur.g ∧ ∃ i ∈ tm.live, tm.members[i]? = some h

/-- The flame of the issuing group's core is with `h`, and the accumulator store is as before. -/
def FlameWith (s t : State) (h : Option Nat) : Prop :=
  (t.coreOfGroup s.cur.g).flame = h ∧ (t.coreOfGroup s.cur.g).acc = (s.coreOfGroup s.cur.g).acc
    ∧ (t.coreOfGroup s.cur.g).accEpoch = (s.coreOfGroup s.cur.g).accEpoch

end Sys2Proof.Claims

/-- R202: a group that arrives at BAR waits until the team's other live groups have; the last one to arrive lets all of them
go on, each past its BAR once what its side log holds has replayed. -/
def Sys2Proof.Claims.BarrierMeets : Prop :=
  (∀ s tm, Alone s → Quiet s → MemberOf s tm →
    ((∀ h, OtherMember s tm h → (s.group h).slotWaiting .bar ≠ none) →
      ∃ t, exec .bar s = .next t ∧ WentOn s t
        ∧ ∀ h b, OtherMember s tm h → (s.group h).slotWaiting .bar = some b →
            t.group h = (s.group h).setSlot b (if s.barDone h then ((s.group h).slot b).advance
              else { (s.group h).slot b with wait := .barFence }))
    ∧ (TeamBusy s → exec .bar s = .next (s.setSl { s.sl with wait := .bar })))
  ∧ (∀ s, Alone s → Quiet s → s.teamOf s.cur.g = none → ∃ t, exec .bar s = .next t ∧ WentOn s t ∧ OnlyGroup s.cur.g s t)

/-- R196 and R212: PHEND leaves the group's phase record with its team, in the core's region or, where it does not fit,
spilled, frees its flame and waits; when the last live group of the
team arrives, their entries are free and the team's next phase is queued. -/
def Sys2Proof.Claims.PhaseEnds : Prop :=
  ∀ s tm, Alone s → Quiet s → MemberOf s tm → s.me.joins = [] →
    (TeamBusy s → ∃ t tn, exec .phend s = .next t ∧ t.sl = { s.sl with wait := .phend } ∧ t.holdsFlame s.cur.g = false
        ∧ t.team? s.me.ident.team = some tn ∧ tn.records = tm.records ++ [⟨s.me.ident.index, s.me.record s.cur.slotB, s.recordSpills s.cur.g⟩])
    ∧ (∀ l, (∀ h, OtherMember s tm h → (s.group h).slotWaiting .phend ≠ none) → s.launch? s.me.ident.team.ticket = some l →
        s.preemptState l.ctx ≠ 1 →
        ∃ t tn, exec .phend s = .next t ∧ t.team? s.me.ident.team = some tn ∧ tn.phase = tm.phase + 1
          ∧ tn.records = tm.records ++ [⟨s.me.ident.index, s.me.record s.cur.slotB, s.recordSpills s.cur.g⟩]
          ∧ (l.gated s.me.ident.team (tm.phase + 1) = false → tn.stage = .queued)
          ∧ (t.group s.cur.g).resident = false ∧ ∀ h, OtherMember s tm h → (t.group h).resident = false)

/-- R195 and R290: GIVE lowers the budget and passes the registers to the team's pool; CLAIM takes them from it, holding
0, or waits in the team's order; a free flame with no takers is taken; the holder passes it to a live group of its team, and any other
group raises FLAME. -/
def Sys2Proof.Claims.PoolAndFlame : Prop :=
  (∀ (n : BitVec 6) s tm, 1 ≤ n.toNat → n.toNat < s.me.csr.budget.toNat → s.me.csr.budget.toNat ≤ 32 → Alone s → Quiet s → s.teamOf s.cur.g = some tm →
    ∃ t tn, exec (.give n) s = .next t ∧ t.sl = s.sl.advance
      ∧ t.me.csr = { s.me.csr with budget := BitVec.ofNat 32 (s.me.csr.budget.toNat - n.toNat) }
      ∧ (∀ r l, l < 32 → r < 8 * (s.me.csr.budget.toNat - n.toNat) → t.me.rv r l = s.me.rv r l)
      ∧ (∀ r, t.me.rs r = s.me.rs r) ∧ t.team? s.me.ident.team = some tn ∧ tn.pool = tm.pool + 8 * n.toNat)
  ∧ (∀ (n : BitVec 6) s tm, 1 ≤ n.toNat → s.me.csr.budget.toNat + n.toNat ≤ 32 → Alone s → s.teamOf s.cur.g = some tm →
    8 * n.toNat ≤ tm.total - 8 * (tm.live.length - 1) →
    (8 * n.toNat ≤ tm.pool → tm.claimants = [] → ∃ t tn, exec (.claim n) s = .next t ∧ t.sl = s.sl.advance
      ∧ t.me.csr = { s.me.csr with budget := BitVec.ofNat 32 (s.me.csr.budget.toNat + n.toNat) }
      ∧ (∀ r l, l < 32 → t.me.rv r l = if 8 * s.me.csr.budget.toNat ≤ r ∧ r < 8 * (s.me.csr.budget.toNat + n.toNat) then 0
            else s.me.rv r l)
      ∧ t.team? s.me.ident.team = some tn ∧ tn.pool = tm.pool - 8 * n.toNat)
    ∧ (tm.pool < 8 * n.toNat → s.cur.g ∉ tm.claimants → ∃ t tn, exec (.claim n) s = .next t ∧ t.sl.pc = s.sl.pc
      ∧ t.team? s.me.ident.team = some tn ∧ tn.claimants = tm.claimants ++ [s.cur.g] ∧ tn.pool = tm.pool))
  ∧ (∀ (n : BitVec 6) s, Alone s → n = 0 ∨ s.me.csr.budget.toNat ≤ n.toNat →
    exec (.give n) s = .next (s.trapWord (wordOf (.give n)) causeIllegal 0 0))
  ∧ (∀ (n : BitVec 6) s, Alone s → n = 0 ∨ 32 < s.me.csr.budget.toNat + n.toNat →
    exec (.claim n) s = .next (s.trapWord (wordOf (.claim n)) causeIllegal 0 0))
  ∧ (∀ s, Alone s → (s.coreOfGroup s.cur.g).flame = none → (s.coreOfGroup s.cur.g).takers = [] →
    ∃ t, exec .flameTake s = .next t ∧ WentOn s t ∧ FlameWith s t (some s.cur.g))
  ∧ (∀ s, Alone s → s.holdsFlame s.cur.g = true → ∃ t, exec .flameTake s = .next t ∧ WentOn s t ∧ FlameWith s t (some s.cur.g))
  ∧ (∀ s h, Alone s → (s.coreOfGroup s.cur.g).flame = some h → h ≠ s.cur.g → s.cur.g ∉ (s.coreOfGroup s.cur.g).takers →
    ∃ t, exec .flameTake s = .next t ∧ t.sl.pc = s.sl.pc ∧ FlameWith s t (some h)
      ∧ (t.coreOfGroup s.cur.g).takers = (s.coreOfGroup s.cur.g).takers ++ [s.cur.g])
  ∧ (∀ (a : SReg) s h, Alone s → Ready s [a.toNat] → (s.me.rs a.toNat).toNat < 16 → s.member? (s.me.rs a.toNat).toNat = some h →
    coreOf h = coreOf s.cur.g →
    (s.holdsFlame s.cur.g = true → Quiet s → ∃ t, exec (.flamePass a) s = .next t ∧ WentOn s t ∧ FlameWith s t (some h))
    ∧ (s.holdsFlame s.cur.g = false →
        exec (.flamePass a) s = .next (s.trapWord (wordOf (.flamePass a)) causeFlame 0 0)))

/-- R304 to R306: TBATCH closes a batch under the next number, which skips 0, and writes the number; the oldest batch whose
blocks have issued and whose instructions have executed retires, with its read locks; WAITB goes on once its batch is no
longer in flight, and raises ILLEGAL for 0. -/
def Sys2Proof.Claims.BatchesRetire : Prop :=
  (∀ (d : SReg) s, Ready s [d.toNat] → s.me.inFlight.length < 63 →
    let nb : Word := if s.me.nb = 0xFFFFFFFF then 1 else s.me.nb + 1
    ∃ t, exec (.tbatch d) s = .next t ∧ OnlyGroup s.cur.g s t ∧ t.sl = s.sl.advance ∧ t.me.nb = nb
      ∧ t.me.inFlight = s.me.inFlight ++ [(nb, s.me.seq)] ∧ (d ≠ 0 → t.me.rs d.toNat = nb)
      ∧ (∀ r, r ≠ d.toNat → t.me.rs r = s.me.rs r))
  ∧ (∀ (a : SReg) s, Ready s [a.toNat] →
    (s.me.rs a.toNat ≠ 0 → (∀ b ∈ s.me.inFlight, b.1 ≠ s.me.rs a.toNat) → exec (.waitb a) s = .next s.advance)
    ∧ (s.me.rs a.toNat ≠ 0 → (∃ b ∈ s.me.inFlight, b.1 = s.me.rs a.toNat) → exec (.waitb a) s = .next s)
    ∧ (s.me.rs a.toNat = 0 → exec (.waitb a) s = .next (s.trapWord (wordOf (.waitb a)) causeIllegal 0 0)))
  ∧ (∀ g s b rest, (s.group g).inFlight = b :: rest → (∀ x ∈ (s.group g).blocks, b.2 ≤ x.seq) →
    (∀ e ∈ (s.coreOfGroup g).engine, e.g = g → b.2 ≤ e.block) →
    exec (.batchRetire g) s = .next (s.setGroup g { s.group g with
      inFlight := rest, locks := (s.group g).locks.filter (fun l => decide (b.2 ≤ l.2.1)) }))

/-! ### The matrix engine (R288 to R308) -/

namespace Sys2Proof.Claims

open Sys2Proof.Machine

/-- Matrix instruction `i` enters the engine's queue (R303, R307): one operation more, its source registers locked, no
register and no accumulator word changed; the block goes on. `late` is what of VSTAT is still to come. -/
def MatrixQueued (i : Instr) (s : State) (b : Block) (core off : Nat) (late : List LateFlag) : Prop :=
  exec i s = .next (((s.setMe { s.me.bump with lateV := late, locks := s.me.locks ++ [(s.me.seq, b.seq, runRegs (formOf i).reads)] }).setCore
      (coreOf s.cur.g) { s.coreOfGroup s.cur.g with engine := (s.coreOfGroup s.cur.g).engine
        ++ [⟨s.cur.g, s.me.seq, i, s.me.ident.ctx, core, off, b.slotB, b.seq⟩] }).laneDone (s.me.laneAt b (laneWord i) 0))

/-- The record of an MCPY and the offset in lane 0 (R302). -/
abbrev mcpyRec (s : State) (f : LT) : Rec := recOf (s.me.rb (f.a.toNat / 16))
abbrev mcpyOff (s : State) (f : LT) : Nat := (s.me.rv f.b.toNat 0).toNat

/-- The checks of MCPY pass and nothing of the group is in the way. -/
abbrev McpyOk (s : State) (f : LT) (store : Bool) : Prop :=
  (mcpyRec s f).cls = 1 ∧ (mcpyRec s f).swz = 0 ∧ (mcpyRec s f).pitch = 0 ∧ (mcpyRec s f).refused = false
    ∧ mcpyOff s f + 16384 ≤ (mcpyRec s f).limit s (hclOf s.cur.g) ∧ (if store then (mcpyRec s f).wr else (mcpyRec s f).rd) = true
    ∧ ((mcpyRec s f).base + mcpyOff s f) % 4 = 0 ∧ s.me.loads = [] ∧ s.me.stores = []

/-- The accumulator words of `c` and `d` are the same outside the n × n block at the origin of `f`. -/
def OutsideTile (f : LT) (n : Nat) (c d : Core) : Prop :=
  ∀ i j, i < 256 → j < 256 →
    ¬(16 * f.row0.toNat ≤ i ∧ i < 16 * f.row0.toNat + n ∧ 16 * f.col0.toNat ≤ j ∧ j < 16 * f.col0.toNat + n) →
    d.accWord i j = c.accWord i j

/-- The element of row `i` and column `j` of a product of shape `f` with the accumulator's old word (R297): sixteen products
at a time are summed exactly, rounded, and added to the sum so far, rounded again. -/
def productRule (f : LT) (x : Machine.Group) (i j : Nat) (old : Nat) : Nat :=
  ((List.range ((shapeDepth f.shape.toNat + 15) / 16)).foldl (fun c g => accStep (f.flags.getLsbD 1) c (exactSum
      (((List.zipWith FVal.times (x.fragLine f.shape.toNat f.a.toNat f.ea.toNat i)
        (x.fragLine f.shape.toNat f.b.toNat f.eb.toNat j)).drop (16 * g)).take 16)))
    (if f.flags.getLsbD 0 then 0x80000000 else old))

/-- The oldest operation of a core's engine executes without a residue failure: `t` follows. -/
def Executed (k : Nat) (s t : State) (e : EngineOp) (rest : List EngineOp) : Prop :=
  (s.core k).engine = e :: rest ∧ exec (.matrixExecute k 0) s = .next t

end Sys2Proof.Claims

/-- R289, R294, R295, R302, R303 and R307: a matrix instruction whose checks pass, with room among the engine's eight
entries, is queued. -/
def Sys2Proof.Claims.MatrixIssues : Prop :=
  ∀ (f : LT) s b, (s.coreOfGroup s.cur.g).engine.length < 8 →
    (Issues (.mma f) 0 { matrixNeed with badFormat := matrixFormatBad f } s b → MatrixQueued (.mma f) s b 0 0 [])
    ∧ (Issues (.mmas f) 0 { matrixNeed with badFormat := matrixFormatBad f } s b → bitmapBad f s.me = false →
        MatrixQueued (.mmas f) s b 0 0 [])
    ∧ (Issues (.mperm f) 0 matrixNeed s b → MatrixQueued (.mperm f) s b 0 0 [{ id := s.me.seq, bits := 0, known := false }])
    ∧ (Issues (.mzero f) 0 matrixNeed s b → MatrixQueued (.mzero f) s b 0 0 [])
    ∧ (Issues (.mlda f) 0 matrixNeed s b → MatrixQueued (.mlda f) s b 0 0 [])
    ∧ (Issues (.msta f) 0 matrixNeed s b → MatrixQueued (.msta f) s b 0 0 [])
    ∧ (Issues (.mcpySt f) 0 matrixNeed s b → s.me.pendingB [f.a.toNat / 16] = false → McpyOk s f true →
        MatrixQueued (.mcpySt f) s b ((mcpyRec s f).scrCore (hclOf s.cur.g)) ((mcpyRec s f).base % 2 ^ 21 + mcpyOff s f) [])
    ∧ (Issues (.mcpyLd f) 0 matrixNeed s b → s.me.pendingB [f.a.toNat / 16] = false → McpyOk s f false →
        MatrixQueued (.mcpyLd f) s b ((mcpyRec s f).scrCore (hclOf s.cur.g)) ((mcpyRec s f).base % 2 ^ 21 + mcpyOff s f) [])

/-- R296 to R303 and R308: what an executed matrix instruction writes: a 64 × 64 block of the accumulator, for MLDA a 16 ×
16 one, for MSTA eight registers, for MCPY.st scratchpad words, whose full/empty bits stay; every other accumulator word is
as before, and a second failed residue check ends the context. -/
def Sys2Proof.Claims.MatrixResults : Prop :=
  (∀ k s t e rest f, Executed k s t e rest → f.row0.toNat ≤ 12 → f.col0.toNat ≤ 12 →
    let c := s.core k
    let d := t.core k
    let x := s.group e.g
    let at_ (i j : Nat) : Word := d.accWord (16 * f.row0.toNat + i) (16 * f.col0.toNat + j)
    let was (i j : Nat) : Word := c.accWord (16 * f.row0.toNat + i) (16 * f.col0.toNat + j)
    d.engine = rest
    ∧ (e.instr = .mma f → OutsideTile f 64 c d
        ∧ ∀ i j, i < 64 → j < 64 → at_ i j = BitVec.ofNat 32 (productRule f x i j (was i j).toNat))
    ∧ (e.instr = .mmas f → OutsideTile f 64 c d ∧ (liveSlices f x = [] → f.flags.getLsbD 0 = true →
        ∀ i j, i < 64 → j < 64 → at_ i j = 0))
    ∧ (e.instr = .mmas f → liveSlices f x = [] → f.flags.getLsbD 0 = false → ∀ i j, i < 64 → j < 64 → at_ i j = was i j)
    ∧ (e.instr = .mzero f → OutsideTile f 64 c d ∧ ∀ i j, i < 64 → j < 64 → at_ i j = 0)
    ∧ (e.instr = .mperm f → OutsideTile f 64 c d ∧ ∀ i j, i < 64 → j < 64 →
        (∀ q, q < shapeDepth f.shape.toNat → x.fragBits f.shape.toNat f.a.toNat i q = 0) → at_ i j = 0)
    ∧ (e.instr = .mperm f → ∀ i j q, i < 64 → j < 64 → q < shapeDepth f.shape.toNat →
        (∀ r, r < shapeDepth f.shape.toNat → (x.fragBits f.shape.toNat f.a.toNat i r ≠ 0 ↔ r = q)) →
        at_ i j = BitVec.ofNat 32 (x.fragBits f.shape.toNat f.b.toNat j q))
    ∧ (e.instr = .mlda f → OutsideTile f 16 c d
        ∧ ∀ i j, i < 16 → j < 16 → at_ i j = x.rv (f.a.toNat + i / 2) (16 * (i % 2) + j))
    ∧ (e.instr = .mcpyLd f → OutsideTile f 64 c d
        ∧ ∀ i j, i < 64 → j < 64 → at_ i j = ((s.core e.core).scrWord (e.off / 4 + 64 * i + j)).data)
    ∧ (e.instr = .msta f → d.acc = c.acc ∧ (∀ u l, u < 8 → l < 32 →
          (t.group e.g).rv (f.a.toNat + u) l = was (2 * u + l / 16) (l % 16))
        ∧ (∀ r l, l < 32 → ¬(f.a.toNat ≤ r ∧ r < f.a.toNat + 8) → (t.group e.g).rv r l = x.rv r l))
    ∧ (e.instr = .mcpySt f → d.acc = c.acc ∧ ∀ i j, i < 64 → j < 64 →
        (t.core e.core).scrWord (e.off / 4 + 64 * i + j)
          = { (s.core e.core).scrWord (e.off / 4 + 64 * i + j) with data := was i j }))
  ∧ (∀ k n s e rest f, (s.core k).engine = e :: rest → e.instr = .mma f → 2 ≤ n →
    ∃ t, exec (.matrixExecute k n) s = .next t ∧ Sparse.get 0 t.sched.preempt e.ctx = 3)
  ∧ (∀ k s e rest, (s.core k).engine = e :: rest → ∃ t, exec (.matrixExecute k 0) s = .next t)

/-! ### Full/empty words (R213 to R216, R260) -/

namespace Sys2Proof.Claims

open Sys2Proof.Machine

/-- Full/empty instruction `i` with one active lane, which names word `w` of the scratchpad of core `c`; its checks pass and
nothing of the group, and no other lane, is in the way. -/
structure NamesWord (i : Instr) (f : LM) (store : Bool) (s : State) (b : Block) (lane c w : Nat) : Prop where
  issues : Issues i f.kq Need.plain s b
  free : MemFree s f.b
  one : ∃ o, laneOffs s b f = [(lane, o)] ∧ 4 * w = (laneRec s f).base % 2 ^ 21 + (laneRec s f).swizzle o.toNat
    ∧ Permits s (laneRec s f) { classes := [1], n := 4, reads := !store, writes := store } [(lane, o)]
  inside : 4 * w + 16 ≤ 2 ^ 21
  core : c = (laneRec s f).scrCore (hclOf s.cur.g)
  quiet : s.me.loads = [] ∧ s.me.stores = [] ∧ s.me.storeCount = 0 ∧ s.logOf s.cur.g = [] ∧ s.packetsOf s.cur.g = false
  nobody : (s.core c).waiters = []

/-- The word of a core. -/
abbrev wordAt (s : State) (c w : Nat) : ScrWord := (s.core c).scrWord w

/-- Every register but lane `lane` of vector register `vd` is as before. -/
def OnlyLane (s t : State) (vd lane : Nat) : Prop :=
  (∀ r l, l < 32 → ¬(r = vd ∧ l = lane) → t.me.rv r l = s.me.rv r l) ∧ (∀ r, t.me.rs r = s.me.rs r)
    ∧ (∀ r, t.me.rk r = s.me.rk r) ∧ (∀ r, t.me.rb r = s.me.rb r)

/-- The lane waits at the word's home. -/
def LaneWaits (s t : State) (c w lane : Nat) : Prop :=
  wordAt t c w = wordAt s c w ∧ (∀ r l, t.me.rv r l = s.me.rv r l)
    ∧ ∃ y, (t.core c).waiters = [y] ∧ y.g = s.cur.g ∧ y.lane = lane ∧ y.word = w ∧ y.since = s.ck

end Sys2Proof.Claims

/-- R213 to R216: VLDF takes a full word and leaves it empty, VLDFK leaves it full, each waits for an empty one; VSTE fills an
empty word and waits for a full one; VSTF fills any; VFEC sets the bit and keeps the data. A wait longer than the limit
raises FETMO, which ends the context. -/
def Obligations.FullEmptyWords : Prop :=
  (∀ (f : LM) s b lane c w,
    (NamesWord (.vldf f) f false s b lane c w → (wordAt s c w).full = true →
      ∃ t, exec (.vldf f) s = .next t ∧ wordAt t c w = { wordAt s c w with full := false }
        ∧ t.me.rv f.vd.toNat lane = (wordAt s c w).data ∧ OnlyLane s t f.vd.toNat lane ∧ t.me.loads = []
        ∧ (t.core (coreOf s.cur.g)).l1 = [])
    ∧ (NamesWord (.vldf f) f false s b lane c w → (wordAt s c w).full = false →
      ∃ t, exec (.vldf f) s = .next t ∧ LaneWaits s t c w lane ∧ t.me.loadCount = 1)
    ∧ (NamesWord (.vldfk f) f false s b lane c w → (wordAt s c w).full = true →
      ∃ t, exec (.vldfk f) s = .next t ∧ wordAt t c w = wordAt s c w ∧ t.me.rv f.vd.toNat lane = (wordAt s c w).data
        ∧ OnlyLane s t f.vd.toNat lane ∧ t.me.loads = [])
    ∧ (NamesWord (.vste f) f true s b lane c w → (wordAt s c w).full = false →
      ∃ t, exec (.vste f) s = .next t ∧ wordAt t c w = ⟨s.me.rv f.vd.toNat lane, true⟩
        ∧ (∀ r l, t.me.rv r l = s.me.rv r l) ∧ t.me.storeCount = 0)
    ∧ (NamesWord (.vste f) f true s b lane c w → (wordAt s c w).full = true →
      ∃ t, exec (.vste f) s = .next t ∧ LaneWaits s t c w lane ∧ t.me.storeCount = 1)
    ∧ (NamesWord (.vstf f) f true s b lane c w →
      ∃ t, exec (.vstf f) s = .next t ∧ wordAt t c w = ⟨s.me.rv f.vd.toNat lane, true⟩
        ∧ (∀ r l, t.me.rv r l = s.me.rv r l) ∧ t.me.storeCount = 0)
    ∧ (NamesWord (.vfecEmpty f) f true s b lane c w →
      ∃ t, exec (.vfecEmpty f) s = .next t ∧ wordAt t c w = ⟨(wordAt s c w).data, false⟩
        ∧ (∀ r l, t.me.rv r l = s.me.rv r l) ∧ t.me.storeCount = 0)
    ∧ (NamesWord (.vfecFull f) f true s b lane c w →
      ∃ t, exec (.vfecFull f) s = .next t ∧ wordAt t c w = ⟨(wordAt s c w).data, true⟩
        ∧ (∀ r l, t.me.rv r l = s.me.rv r l) ∧ t.me.storeCount = 0))
  ∧ (∀ g s, s.vm.fetmocfg ≠ 0 → (s.group g).inHandler = false →
    ((∃ e ∈ s.cores, ∃ w ∈ e.2.waiters, w.g = g ∧ w.since + s.vm.fetmocfg.toNat < s.ck) →
      ∃ t, exec (.fetmoTimeout g) s = .next t ∧ Sparse.get 0 t.sched.preempt (s.group g).ident.ctx = 3)
    ∧ ((∀ e ∈ s.cores, ∀ w ∈ e.2.waiters, w.g = g → s.ck ≤ w.since + s.vm.fetmocfg.toNat) →
      exec (.fetmoTimeout g) s = .next s))

/-! ### Atomics (R258, R323 to R327) -/

namespace Sys2Proof.Claims

open Sys2Proof.Machine

/-- The operations of R326 on the current value, the operand and the compare value of a lane. -/
def atomRule (op ty cur x c : Nat) : Nat :=
  let w := elemBits ty
  match op with
  | 0 => (cur + x) % 2 ^ w
  | 1 => if elemInt ty w cur ≤ elemInt ty w x then cur else x
  | 2 => if elemInt ty w cur ≤ elemInt ty w x then x else cur
  | 3 => cur &&& x
  | 4 => cur ||| x
  | 5 => cur ^^^ x
  | 6 => x
  | 7 => if cur = c then x else cur
  | 8 => (f32.add 0 0 (f32.val cur) (f32.val x)).bits
  | _ => intBits 64 (aiClamp (elemInt 2 64 cur + elemInt 2 64 x)).1

/-- The value after the listed lanes' steps in turn. -/
def atomAfter (op ty cur : Nat) (ls : List (Nat × Nat × Nat × Nat)) : Nat :=
  ls.foldl (fun v l => atomRule op ty v l.2.2.1 l.2.2.2) cur

/-- Some lane's aligned-integer sum is clamped. -/
abbrev SomeLaneClamps (p : Packet) (cur : Nat) : Prop :=
  ∃ k, k < p.lanes.length ∧ (aiClamp (elemInt 2 64 (atomAfter p.op p.ty cur (p.lanes.take k))
    + elemInt 2 64 (p.lanes.getD k (0, 0, 0, 0)).2.2.1)).2 = true

/-- The instructions with their operation. -/
def atomInstrs : List ((LM → Instr) × Nat) :=
  [(.vatomAdd, 0), (.vatomMin, 1), (.vatomMax, 2), (.vatomAnd, 3), (.vatomOr, 4), (.vatomXor, 5), (.vatomXchg, 6),
   (.vatomCas, 7), (.vatomFadd, 8), (.vatomAiadd, 9)]
def ReduceInstr (i : LM → Instr) (op : Nat) : Prop :=
  (i = .vredmAdd ∧ op = 0) ∨ (i = .vredmMin ∧ op = 1) ∨ (i = .vredmMax ∧ op = 2) ∨ (i = .vredmAnd ∧ op = 3)
    ∨ (i = .vredmOr ∧ op = 4) ∨ (i = .vredmXor ∧ op = 5) ∨ (i = .vredmFadd ∧ op = 8) ∨ (i = .vredmAiadd ∧ op = 9)

/-- An atomic of the group may issue: its checks pass, its lanes lie at the device addresses `pa`, and nothing is in the
way. -/
structure MayAtom (i : Instr) (f : LM) (op : Nat) (returns : Bool) (s : State) (b : Block) (pa : Nat × Int → Nat) : Prop where
  issues : Issues i f.kq Need.plain s b
  free : MemFree s f.b
  some : laneOffs s b f ≠ []
  permits : Permits s (laneRec s f) { classes := [0], n := elemBits f.ty.toNat / 8, reads := returns, writes := true } (laneOffs s b f)
  places : Places s (laneWho s b) (laneRec s f) .store (laneOffs s b f) (fun l => .dev (pa l))
  fixed : op = 8 → s.me.ident.deterministic = false
  full : s.me.storeFull = false
  quiet : s.me.loads = [] ∧ s.me.stores = [] ∧ s.me.storeCount = 0 ∧ s.logOf s.cur.g = [] ∧ s.packetsOf s.cur.g = false
  room : s.packetsFull ((laneOffs s b f).map pa) = false

/-- The group once an aligned-integer add is on its way: VSTAT waits for its clamp (R26, R326). -/
def clampDue (s : State) (op : Nat) : Machine.Group :=
  if op = 9 then { s.me with lateV := [{ id := s.me.seq, bits := 0, known := false }] } else s.me

/-- The lanes of its packets: lane, address, operand, compare value. -/
def atomLanesOf (f : LM) (op : Nat) (s : State) (b : Block) (pa : Nat × Int → Nat) : List (Nat × Nat × Nat × Nat) :=
  (laneOffs s b f).map (fun l => (l.1, pa l, atomOperand f s.me f.vd.toNat l.1,
    if op = 7 then atomOperand f s.me f.second.toNat l.1 else 0))

end Sys2Proof.Claims

/-- R323 to R325: VATOM at issue sends each lane to the service group of its granule and stays in the load class; VREDM takes
its place in the store queue, and from its head sends its lanes in the same way unless a queue of theirs is full, and stays in
the store class; no byte of memory and no register changes yet. -/
def Sys2Proof.Claims.AtomicsIssue : Prop :=
  (∀ r ∈ atomInstrs, ∀ (f : LM) s b pa, MayAtom (r.1 f) f r.2 true s b pa →
    exec (r.1 f) s = .next (((s.setMe ((clampDue s r.2).addLoad (.atomic f.vd.toNat r.2 f.ty.toNat
        ((atomLanesOf f r.2 s b pa).map (fun l => (l.1, l.2.2.1, l.2.2.2))) [] (f.m.getLsbD 1) (f.m.getLsbD 0) false) [] 0 0 b.seq
        (s.me.laneSite b (laneWord (r.1 f))))).sendPackets
          (s.packetOf s.cur.g s.me.seq r.2 f.ty.toNat true (atomLanesOf f r.2 s b pa))).laneDone
      (s.me.laneAt b (laneWord (r.1 f)) f.kq)))
  ∧ (∀ i op, ReduceInstr i op → ∀ (f : LM) s b pa, MayAtom (i f) f op false s b pa →
    exec (i f) s = .next ((s.setMe ((clampDue s op).addStore (.reduce op f.ty.toNat (f.m.getLsbD 0)
        ((accsOf s (laneRec s f) (laneOffs s b f) (fun l => .dev (pa l))).map (fun a => (a, atomOperand f s.me f.vd.toNat a.lane))))
        0 b.seq b.slotB true)).laneDone (s.me.laneAt b (laneWord (i f)) f.kq)))
  ∧ (∀ g s (e : StoreEntry) rest op ty rel ls, (s.group g).stores = e :: rest → e.kind = .reduce op ty rel ls →
    (∀ l ∈ ls, ∃ d, l.1.loc = some (.dev d)) → s.logHeads g = [] → s.logOf g = [] → (s.group g).loads = [] →
    (s.group g).feStores = [] → (s.group g).storesOther = [] → s.packetsOf g = false →
    (∀ x ∈ rest, e.id ≤ x.id) →
    let lanes := ls.filterMap (fun l => match l.1.loc with
      | some (.dev d) => some (l.1.lane, d, l.2, 0)
      | _ => none)
    (s.packetsFull (lanes.map (·.2.1)) = true → exec (.storeQueueDrain g) s = .next s)
    ∧ (s.packetsFull (lanes.map (·.2.1)) = false → exec (.storeQueueDrain g) s
        = .next ((s.setGroup g { s.group g with stores := rest, storesOther := [(e.id, e.seq, 1)] }).sendPackets
            (s.packetOf g e.id op ty false lanes))))

/-- R326: a packet whose lanes name one address executes them in ascending order as one step: the address holds the value
after the last lane, every other byte of memory is as before; a VATOM whose lanes all came writes each lane's value from
before its own step and leaves the load class; a VREDM acknowledged for the last time leaves the store class; a clamped
aligned-integer sum sets VSTAT.AIOVF then, and with it the bits of later instructions that waited for it take effect (R26). -/
def Sys2Proof.Claims.AtomicsExecute : Prop :=
  ∀ h s (p : Packet) rest pa, (s.hcl h).packets = p :: rest → p.lanes ≠ [] → (∀ l ∈ p.lanes, l.2.1 = pa ∧ l.1 < 32) →
    (p.lanes.map (·.1)).Nodup → p.ty < 5 → pa % (elemBits p.ty / 8) = 0 →
    s.poisoned pa = false → LlcCoherent s → p.g < 2 ^ 20 → s.preemptState p.ctx ≠ 1 →
    let n := elemBits p.ty / 8
    let cur := bytesNat (s.devBytes pa n)
    ∃ t, exec (.atomicPacket h) s = .next t ∧ (t.hcl h).packets = rest
      ∧ t.devBytes pa n = natBytes n (atomAfter p.op p.ty cur p.lanes)
      ∧ (∀ a, ¬(pa ≤ a ∧ a < pa + n) → t.devByte a = s.devByte a)
      ∧ (∀ e vd args acq rel cl, p.returns = true → (s.group p.g).loads = [e] → e.id = p.id →
          e.kind = .atomic vd p.op p.ty args [] acq rel cl → args.length = p.lanes.length →
          (t.group p.g).loads = []
          ∧ (p.op = 9 → ∀ tail, (s.group p.g).lateV = { id := p.id, bits := 0, known := false } :: tail → (∀ u ∈ tail, u.known = true) →
              (t.group p.g).csr.vstat = (s.group p.g).csr.vstat
                ||| ((if cl = true ∨ SomeLaneClamps p cur then 16 else 0) ||| tail.foldr (fun u v => u.bits ||| v) 0))
          ∧ ∀ k l, p.lanes[k]? = some l → (t.group p.g).operand (decide (elemBits p.ty = 64)) vd l.1
              = atomAfter p.op p.ty cur (p.lanes.take k) % 2 ^ Nat.max 32 (elemBits p.ty))
      ∧ (p.returns = false →
          (∀ x ∈ (s.setHcl h { s.hcl h with packets := rest }).hcls, ∀ q ∈ x.2.packets, ¬(q.g = p.g ∧ q.id = p.id)) →
          (t.group p.g).storesOther = (s.group p.g).storesOther.filter (fun e => e.1 != p.id)
            ∧ (p.op = 9 → ∀ tail, (s.group p.g).lateV = { id := p.id, bits := 0, known := false } :: tail → (∀ u ∈ tail, u.known = true) →
                (t.group p.g).csr.vstat = (s.group p.g).csr.vstat
                  ||| ((if SomeLaneClamps p cur then 16 else 0) ||| tail.foldr (fun u v => u.bits ||| v) 0)))

/-! ### VOPT, VRLD and the content-addressed class (R144 to R147, R267 to R278, R396, R397) -/

namespace Sys2Proof.Claims

open Sys2Proof.Machine

/-- All lanes and no mask. -/
def allLanes : Need := { Need.plain with all := true }

def optInstrs : List ((LA → Instr) × Nat) := [(.voptAdamw, 0), (.voptAdam, 1), (.voptLion, 2), (.voptSgd, 3)]

/-- Record `k` of VOPT: weight, gradient, first and second moment (R144). -/
def optRecord (f : LA) (s : State) (k : Nat) : Rec := recOf (s.me.rb ((optRecs f).getD k 0))

/-- Each lane's offset. -/
def optOffs (f : LA) (s : State) : List (Nat × Int) := (List.range 32).map (fun i => (i, ((s.me.rv f.va.toNat i).toNat : Int)))

/-- What record `k` of `n` holds for a lane whose place is `p`, as the group's loads see it; nothing beyond the last record. -/
def optValue (f : LA) (s : State) (n : Nat) (p : Loc) (k : Nat) : OptVal :=
  if k < n then Machine.optOf (bytesNat ((List.range 4).map (fun j => s.loadByte s.cur.g s.me.seq (optRecord f s k).cls false (p.plus j))))
  else Machine.optOf 0

/-- A hyper-parameter (R144). -/
def optHyper (f : LA) (b : Block) (k : Nat) : OptVal := Machine.optOf (argRule b (f.vc.toNat + k)).toNat

/-- VOPT may run: its checks pass (R145), every lane of each record has its place, nothing of the group is in flight, no
range lock and no poison is in the way. -/
structure OptReady (i : Instr) (f : LA) (n : Nat) (s : State) (b : Block) (p : Nat → Nat × Int → Loc) : Prop where
  issues : Issues i f.kq allLanes s b
  count : (optRecs f).length = n
  free : s.me.pendingB (optRecs f) = false
  quiet : s.me.loads = [] ∧ s.me.stores = [] ∧ s.me.storeCount = 0 ∧ s.logOf s.cur.g = [] ∧ ∀ h ∈ s.hcls, h.2.packets = [] ∧ h.2.locks = []
  unlocked : (s.hcl (hclOf s.cur.g)).locks = []
  clean : s.ras.poison = []
  unbudgeted : s.teamOf s.cur.g = none
  classes : ∀ k, k < n → (optRecord f s k).cls ∈ [0, 1, 3] ∧ (optRecord f s k).refused = false
  readable : ∀ k, k < n → (optRecord f s k).rd = true
  writable : ∀ k, k < n → k ≠ 1 → (optRecord f s k).wr = true
  inside : ∀ k, k < n → ∀ l ∈ optOffs f s, l.2 + 4 ≤ ((optRecord f s k).limit s (hclOf s.cur.g) : Int)
  aligned : ∀ k, k < n → (optRecord f s k).base % (optRecord f s k).unit = 0
    ∧ ∀ l ∈ optOffs f s, ((optRecord f s k).base + (optRecord f s k).swizzle l.2.toNat) % 4 = 0
  loads : ∀ k, k < n → Places s (laneWho s b) (optRecord f s k) .load (optOffs f s) (p k)
  stores : ∀ k, k < n → k ≠ 1 → Places s (laneWho s b) (optRecord f s k) .store (optOffs f s) (p k)

/-- The write of a lane's new value through record `k`. -/
def optWrite (f : LA) (s : State) (k : Nat) (p : Loc) (l : Nat × Int) (v : Nat) : Write :=
  ⟨(optRecord f s k).addr (hclOf s.cur.g) l.2.toNat, some p, natBytes 4 v, (optRecord f s k).ws, (optRecord f s k).cls⟩

/-- A content instruction of the lane stream may act on region `k` (R269, R270). -/
def InRegion (i : Instr) (f : LA) (write : Bool) (s : State) (b : Block) (k : Nat) : Prop :=
  Issues i f.kq allLanes s b ∧ s.me.pendingB [f.imm.toNat % 16] = false ∧ s.me.loads = [] ∧ s.me.storeCount = 0
    ∧ s.treeRegion s.me.ident.ctx (recOf (s.me.rb (f.imm.toNat % 16)))
        (if write then (recOf (s.me.rb (f.imm.toNat % 16))).wr else (recOf (s.me.rb (f.imm.toNat % 16))).rd) = some k

/-- The name quad and the status register of VLAL do not meet, and neither is s0. -/
abbrev QuadApart (f : LA) : Prop :=
  4 ≤ f.vd.toNat ∧ f.vc ≠ 0 ∧ ¬(f.vd.toNat ≤ f.vc.toNat ∧ f.vc.toNat < f.vd.toNat + 4)

/-- VLAL ends with a status and no name: the quad and memory are unchanged. -/
def VlalStatus (f : LA) (s t : State) (st : Nat) : Prop :=
  t.me.rs f.vc.toNat = BitVec.ofNat 32 st ∧ (∀ r, r ≠ f.vc.toNat → t.me.rs r = s.me.rs r) ∧ (∀ r l, t.me.rv r l = s.me.rv r l)

/-- VLAL ends with a status and a name. -/
def VlalNamed (f : LA) (s t : State) (st : Nat) (n : LineName) : Prop :=
  t.me.rs f.vc.toNat = BitVec.ofNat 32 st ∧ t.me.rs128 f.vd.toNat = n
    ∧ (∀ r, r ≠ f.vc.toNat → ¬(f.vd.toNat ≤ r ∧ r < f.vd.toNat + 4) → t.me.rs r = s.me.rs r)
    ∧ (∀ r l, t.me.rv r l = s.me.rv r l)

/-- A visible entry of a name, and its count. -/
def countOf (s : State) (n : LineName) : Option Nat := (s.dir.known n).map (·.count)

/-- No region's mapping is being changed (R231). -/
abbrev Settled (s : State) : Prop := ∀ e ∈ s.vm.regions, e.2.status ≠ 1

/-- What a new node's children gain: each name one reference for each slot that holds it (R275). -/
def ChildrenGain (u t : State) (bs : List Byte) : Prop :=
  ∀ m, (∃ e, u.dir.known m = some e) →
    countOf t m = (countOf u m).map (fun c => if (childNames bs).count m = 0 ∨ m = 0 then c
      else Nat.min (c + (childNames bs).count m) 0xFFFFFFFF)

end Sys2Proof.Claims

/-- R144 to R147: VOPT enters the load class and takes a place in the store queue; with its records' data it computes each lane
by the formulas of its mode, and its entry in the store queue gets the new weight, first moment and, for Adam, second moment
of every lane; FSTAT gains the flags of every lane; it changes no other register and no byte of memory. (No lane faults here:
the captured FPE is 0.) -/
def Obligations.OptimiserSteps : Prop :=
  ∀ r ∈ optInstrs, ∀ (f : LA) s b p, f.sub.toNat = r.2 → OptReady (r.1 f) f (if r.2 < 2 then 4 else 3) s b p → b.fpe.toNat % 32 = 0 →
    let n := if r.2 < 2 then 4 else 3
    let v (l : Nat × Int) (k : Nat) : OptVal := optValue f s n (p k l) k
    let out (l : Nat × Int) : Nat × Nat × Nat × Nat := optLane r.2 (optHyper f b) (v l 0) (v l 1) (v l 2) (v l 3)
    ∃ t u e ws, exec (r.1 f) s = .next t ∧ t.me.loadCount = 1 ∧ t.me.storeCount = 1
      ∧ exec (.loadDataReturn s.cur.g s.me.seq) t = .next u
      ∧ (∀ q l, u.me.rv q l = s.me.rv q l) ∧ (∀ q, u.me.rs q = s.me.rs q)
      ∧ u.me.loads = [] ∧ u.me.stores = [e] ∧ e.kind = .bytes ws ∧ ws.length = 32 * (n - 1)
      ∧ (∀ j, j < 32 → (u.me.csr.fstat.getLsbD j = true ↔
          s.me.csr.fstat.getLsbD j = true ∨ ∃ l ∈ optOffs f s, (out l).2.2.2.testBit j = true))
      ∧ (LlcCoherent s → ∀ a, u.devByte a = s.devByte a)
      ∧ ∀ l ∈ optOffs f s,
          let o := out l
          optWrite f s 0 (p 0 l) l o.1 ∈ ws ∧ optWrite f s 2 (p 2 l) l o.2.1 ∈ ws
            ∧ (r.2 < 2 → optWrite f s 3 (p 3 l) l o.2.2.1 ∈ ws)

/-- R268, R271 to R275: VLAL of content that the region holds visibly returns its name, and counts it once more; of new
content with room, it writes the line into its slot, counts each child of a node once more and returns the new name; without
a free ordinal, room or a known child it returns COLLIDE, FULL or BADCHILD and changes no register but its status. The
reclaimer's queue counts as served first (R272). -/
def Sys2Proof.Claims.LinesAllocated : Prop :=
  ∀ (f : LA) s b k, QuadApart f → s.ownPending (s.me.laneAt b (laneWord (.vlalLeaf f)) f.kq) = none → s.teamOf s.cur.g = none →
    Settled s →
    let bs := s.me.pairBytes f.va.toNat
    let u := s.reclaimed
    (InRegion (.vlalLeaf f) f true s b k →
      (∀ n, u.bucketStep k false bs = .found n →
        ∃ t, exec (.vlalLeaf f) s = .next t ∧ VlalNamed f s t 0 n ∧ t.dir = u.dir.incr n ∧ t.mem = u.mem)
      ∧ (∀ n slot, u.bucketStep k false bs = .free n slot → LlcCoherent u →
        ∃ t, exec (.vlalLeaf f) s = .next t ∧ VlalNamed f s t 1 n ∧ t.lineBytes slot = bs ∧ countOf t n = some 1)
      ∧ (u.bucketStep k false bs = .collide → ∃ t, exec (.vlalLeaf f) s = .next t ∧ VlalStatus f s t 2 ∧ t.dir = u.dir)
      ∧ (u.bucketStep k false bs = .full → ∃ t, exec (.vlalLeaf f) s = .next t ∧ VlalStatus f s t 4 ∧ t.dir = u.dir))
    ∧ (InRegion (.vlalNode f) f true s b k →
      (∀ n, u.bucketStep k true bs = .found n →
        ∃ t, exec (.vlalNode f) s = .next t ∧ VlalNamed f s t 0 n ∧ t.dir = u.dir.incr n ∧ t.mem = u.mem)
      ∧ (∀ n slot, u.bucketStep k true bs = .free n slot → LlcCoherent u →
        (∀ c ∈ childNames bs, c ≠ 0 → (u.dir.knownIn k c).isSome = true) →
        ∃ t, exec (.vlalNode f) s = .next t ∧ VlalNamed f s t 1 n ∧ t.lineBytes slot = bs ∧ countOf t n = some 1
          ∧ ChildrenGain u t bs)
      ∧ (∀ n slot c, u.bucketStep k true bs = .free n slot → c ∈ childNames bs → c ≠ 0 → u.dir.knownIn k c = none →
        ∃ t, exec (.vlalNode f) s = .next t ∧ VlalStatus f s t 5 ∧ t.dir = u.dir)
      ∧ (u.bucketStep k true bs = .collide → ∃ t, exec (.vlalNode f) s = .next t ∧ VlalStatus f s t 2 ∧ t.dir = u.dir)
      ∧ (u.bucketStep k true bs = .full → ∃ t, exec (.vlalNode f) s = .next t ∧ VlalStatus f s t 4 ∧ t.dir = u.dir))

/-- R276: VLKP of the null name gives zeros, of a name that the record's region does not know NONAME, of a line whose bytes
hash to another name CORRUPT, and otherwise the line's 256 bytes; the pair is unchanged but for OK. -/
def Sys2Proof.Claims.LinesLookedUp : Prop :=
  ∀ (f : LA) s b k, InRegion (.vlkp f) f false s b k → f.vc ≠ 0 → f.vd.toNat % 2 = 0 → Settled s →
    let q := f.va.toNat
    let u := s.reclaimed
    let n : LineName := argRule b (q + 3) ++ argRule b (q + 2) ++ argRule b (q + 1) ++ argRule b q
    ∃ t, exec (.vlkp f) s = .next t
      ∧ (∀ r, r ≠ f.vc.toNat → t.me.rs r = s.me.rs r)
      ∧ (∀ r l, l < 32 → r ≠ f.vd.toNat → r ≠ f.vd.toNat + 1 → t.me.rv r l = s.me.rv r l)
      ∧ (n = 0 → t.me.rs f.vc.toNat = 0 ∧ t.me.pairBytes f.vd.toNat = List.replicate 256 0)
      ∧ (n ≠ 0 → u.dir.knownIn k n = none → t.me.rs f.vc.toNat = 3 ∧ t.me.pairBytes f.vd.toNat = s.me.pairBytes f.vd.toNat)
      ∧ (∀ e, n ≠ 0 → u.dir.knownIn k n = some e → u.lineCorrupt e = false →
          t.me.rs f.vc.toNat = 0 ∧ t.me.pairBytes f.vd.toNat = u.lineBytes e.slot)
      ∧ (∀ e, n ≠ 0 → u.dir.knownIn k n = some e → u.lineCorrupt e = true →
          t.me.rs f.vc.toNat = 8 ∧ t.me.pairBytes f.vd.toNat = s.me.pairBytes f.vd.toNat)

namespace Sys2Proof.Claims

open Sys2Proof.Machine

/-- SWAPROOT reaches its cell, the bytes `pas` of device memory, in region `k`: its checks pass and nothing of the group is
in flight. -/
structure ReachesCell (d e w : SReg) (b : BReg) (s : State) (k : Nat) (pas : List Nat) : Prop where
  fields : e.toNat % 4 = 0 ∧ 4 ≤ e.toNat ∧ w.toNat % 4 = 0 ∧ 4 ≤ w.toNat
  ready : Ready s (d.toNat :: (span e.toNat 4 ++ span w.toNat 4))
  free : MemFree s b
  region : s.treeRegion s.me.ident.ctx (recRule s b) (recRule s b).wr = some k
  sound : (recRule s b).refused = false
  aligned : (s.me.rs d.toNat).toNat % 16 = 0 ∧ (recRule s b).base % (recRule s b).unit = 0
  inside : (s.me.rs d.toNat).toNat + 16 ≤ (recRule s b).extent
  unlocked : (s.hcl (hclOf s.cur.g)).locks = []
  quiet : Quiet s ∧ s.sl.wait = .none
  places : ∃ ps, s.resolveAll (scalarWho s) 2 .store
        ((pagePieces ((recRule s b).base + (s.me.rs d.toNat).toNat) 16).map (·.1)) = .places ps
      ∧ cellBytes (pagePieces ((recRule s b).base + (s.me.rs d.toNat).toNat) 16) ps = some pas
  clean : ∀ a ∈ pas, s.poisoned a = false
  apart : pas.Nodup ∧ d ≠ 0

/-- The sixteen bytes of a cell. -/
def cellAt (s : State) (pas : List Nat) : LineName := BitVec.ofNat 128 (bytesNat (pas.map s.devByte))

/-- The issuing group's status register holds a status, its other registers and the other slot are as before, and it goes
on. -/
def StatusOnly (s t : State) (d : SReg) (st : Nat) : Prop :=
  t.me.rs d.toNat = BitVec.ofNat 32 st ∧ (∀ r, r ≠ d.toNat → t.me.rs r = s.me.rs r) ∧ (∀ r l, t.me.rv r l = s.me.rv r l)
    ∧ t.sl = s.sl.advance

end Sys2Proof.Claims

/-- R272, R277 and R278: SWAPROOT writes the new name where the cell holds the expected one, counting the new name once more
and the old one once less; otherwise it answers STALE, or NONAME for an unknown new name, and writes nothing. RCADJ adds to a
known name's count, and the name leaves the directory at 0; a turn of the reclaimer frees the first line of its queue, each
child of a node losing a reference. How far the reclaimer has got shows in no status: its queue counts as served first.
GENR returns the generation (R418). -/
def Obligations.RootsAndCounts : Prop :=
  (∀ (d e w : SReg) (b : BReg) s k pas, ReachesCell d e w b s k pas →
    let u := (s.unwait (scalarWho s).who).reclaimed
    let old := s.me.rs128 e.toNat
    let new := s.me.rs128 w.toNat
    LlcCoherent u →
    (cellAt u pas ≠ old → ∃ t, exec (.swaproot d e w b) s = .next t ∧ StatusOnly s t d 6 ∧ t.dir = u.dir
        ∧ ∀ a, t.devByte a = u.devByte a)
    ∧ (cellAt u pas = old → new ≠ 0 → u.dir.knownIn k new = none →
        ∃ t, exec (.swaproot d e w b) s = .next t ∧ StatusOnly s t d 3 ∧ t.dir = u.dir ∧ ∀ a, t.devByte a = u.devByte a)
    ∧ (cellAt u pas = old → new = 0 ∨ (u.dir.knownIn k new).isSome = true →
        ∃ t, exec (.swaproot d e w b) s = .next t ∧ StatusOnly s t d 0 ∧ cellAt t pas = new
          ∧ (∀ a, a ∉ pas → t.devByte a = u.devByte a)
          ∧ t.dir = (let v := if new = 0 then u.dir else u.dir.incr new
                     if old = 0 then v else v.decr old)))
  ∧ (∀ (d q v : SReg) s, q.toNat % 4 = 0 → 4 ≤ q.toNat → Ready s (d.toNat :: v.toNat :: span q.toNat 4) → d ≠ 0 → Quiet s →
    s.sl.wait = .none →
    let u := s.reclaimed
    let n : LineName := s.me.rs128 q.toNat
    (u.dir.known n = none → ∃ t, exec (.rcadj d q v) s = .next t ∧ StatusOnly s t d 3 ∧ t.dir = u.dir)
    ∧ (∀ e, u.dir.known n = some e → n = 0 ∨ (u.lineRegion e.region).ctx ≠ s.me.ident.ctx →
        ∃ t, exec (.rcadj d q v) s = .next t ∧ StatusOnly s t d 3 ∧ t.dir = u.dir)
    ∧ (∀ e, u.dir.known n = some e → n ≠ 0 → (u.lineRegion e.region).ctx = s.me.ident.ctx → e.count = 2 ^ 32 - 1 →
        ∃ t, exec (.rcadj d q v) s = .next t ∧ StatusOnly s t d 0 ∧ t.dir = u.dir)
    ∧ (∀ e, u.dir.known n = some e → n ≠ 0 → (u.lineRegion e.region).ctx = s.me.ident.ctx → e.count < 2 ^ 32 - 1 →
        let c := (e.count : Int) + (s.me.rs v.toNat).toInt
        (c < 0 → ∃ t, exec (.rcadj d q v) s = .next t ∧ StatusOnly s t d 7 ∧ t.dir = u.dir)
        ∧ (0 < c → ∃ t, exec (.rcadj d q v) s = .next t ∧ StatusOnly s t d 0
            ∧ countOf t n = some (if c < 2 ^ 32 - 1 then c.toNat else 2 ^ 32 - 1))
        ∧ (c = 0 → ∃ t, exec (.rcadj d q v) s = .next t ∧ StatusOnly s t d 0 ∧ t.dir.known n = none
            ∧ t.dir.reclaim = u.dir.reclaim ++ [{ e with count := 0 }])))
  ∧ (∀ s e rest, s.dir.reclaim = e :: rest → LlcCoherent s → s.poisoned (s.dir.slotAddr e.slot) = false →
    ∃ t, exec .reclaimLine s = .next t ∧ (∀ a, t.devByte a = s.devByte a)
      ∧ t.dir = (if e.node then (childNames (s.lineBytes e.slot)).filter (· != 0) else []).foldl Dir.decr
          { s.dir with reclaim := rest })
  ∧ (∀ (d : SReg) s, EvenReg d → d ≠ 0 → Ready s [d.toNat, d.toNat + 1] →
    exec (.genr d) s = .next (wrotePair s d s.member.gen))

/-- R396 and R397: VRLD through a replicated record of an enabled communicator that is not stale asks the other ranks and
enters the load class with one term for each of them, which is theirs to give; a device that is a rank reads its own replica
too, and one that is none reads nothing; a stale communicator raises MEMBER; when the generation changed meanwhile, the lanes
get the fixed value and the communicator goes stale. -/
def Sys2Proof.Claims.ReplicaLoads : Prop :=
  (∀ (f : LM) s b p c, Issues (.vrld f) f.kq Need.plain s b → MemFree s f.b → s.me.loads = [] → (laneRec s f).cls = 4 →
    s.replicaOf s.me.ident.ctx (laneRec s f).base (laneRec s f).extent = some c → s.commOk c = true → s.commHeld c = false →
    Permits s (laneRec s f) { classes := [4], n := if f.ty = 2 then 8 else 4, reads := true, writes := false } (laneOffs s b f) →
    ((s.comm c).stale = false → s.tableLost c = false → s.me.loadCount < 63 →
      (s.member.devId ∈ s.rankIds c → Places s (laneWho s b) (laneRec s f) .load (laneOffs s b f) p) →
      ∃ t e, exec (.vrld f) s = .next t ∧ t.me.loads = [e]
        ∧ e.accs = (if s.member.devId ∈ s.rankIds c then accsOf s (laneRec s f) (laneOffs s b f) p else [])
        ∧ (∃ terms, e.kind = .replica f.vd.toNat (decide (f.ty = 2)) c s.member.gen terms
            ∧ terms.map (·.1) = (laneOffs s b f).map (·.1)
            ∧ ∀ x ∈ terms, x.2.length = ((s.rankIds c).filter (fun d => d != s.member.devId)).length)
        ∧ (∀ r l, t.me.rv r l = s.me.rv r l) ∧ (∀ r, t.me.rs r = s.me.rs r) ∧ t.mem = s.mem ∧ t.llc = s.llc)
    ∧ ((s.comm c).stale = true → exec (.vrld f) s = .next ((s.laneDone (s.me.laneAt b (laneWord (.vrld f)) f.kq)).laneTrap
        (s.me.laneAt b (laneWord (.vrld f)) f.kq) causeMember (s.me.laneMask b f.kq) 0)))
  ∧ (∀ g s (e : LoadEntry) vd wide c was terms, (s.group g).loads = [e] → e.kind = .replica vd wide c was terms →
    was ≠ s.member.gen → (∀ x ∈ terms, x.1 < 32) →
    ∃ t, exec (.loadDataReturn g e.id) s = .next t ∧ (t.comm c).stale = true ∧ (t.group g).loads = []
      ∧ ∀ x ∈ terms, (wide = false → (t.group g).rv vd x.1 = 0x7FC00000)
          ∧ (wide = true → (t.group g).rv64 vd x.1 = 0x8000000000000000))

/-! ### Launches, copies, graphs and collectives (R191 to R194, R280, R281, R312 to R320, R393, R394) -/

namespace Sys2Proof.Claims

open Sys2Proof.Machine

/-- A command instruction may submit: its pair holds an aligned address, nothing of the group is in flight, and the record
there reads as `bs`, which leaves the caches as in `u`. -/
structure Submits (d a : SReg) (align n : Nat) (s u : State) (bs : List Byte) : Prop where
  fields : EvenReg a
  ready : Ready s [d.toNat, a.toNat, a.toNat + 1]
  aligned : (s.me.rs64 a.toNat).toNat % align = 0
  quiet : Quiet s ∧ s.sl.wait = .none
  record : s.readRecord (s.me.rs64 a.toNat).toNat n = .bytes bs u

/-- The hardware core cluster of the issuing group. -/
abbrev myHcl (s : State) : Hcl := s.hcl (hclOf s.cur.g)

/-- Its copy engine takes one more command under a ticket that no queued command has. -/
abbrev HasRoom (s : State) : Prop := (myHcl s).copyRoom = true ∧ ∀ c ∈ (myHcl s).copyQueue, c.ticket ≠ (myHcl s).nextCopy

/-- A command has been accepted: the last of the queue, under the engine's next ticket, counted for the group; the register
has the ticket. Memory is as in `u`. -/
def Accepted (s u t : State) (d : SReg) (kind : CopyKind) (bs : List Byte) (status : Option Nat) (locks : Nat) : Prop :=
  ∃ c, (myHcl t).copyQueue = (myHcl s).copyQueue ++ [c] ∧ c.ticket = (myHcl s).nextCopy ∧ c.kind = kind ∧ c.bytes = bs
    ∧ c.g = some s.cur.g ∧ c.ctx = s.me.ident.ctx ∧ c.status = status ∧ (c.started = true ↔ status ≠ none)
    ∧ (myHcl t).locks.length = (myHcl s).locks.length + locks ∧ t.me.copies = s.me.copies + 1
    ∧ (d ≠ 0 → t.me.rs d.toNat = BitVec.ofNat 32 (myHcl s).nextCopy) ∧ (∀ r, r ≠ d.toNat → t.me.rs r = s.me.rs r)
    ∧ t.mem = u.mem ∧ t.llc = u.llc

/-- No memory is poisoned or retired, and no access has met such memory (R366). -/
abbrev NoErrors (s : State) : Prop := s.ras.poison = [] ∧ s.ras.retire = [] ∧ ∀ w ∈ s.vm.waiters, w.reason ≠ 256

/-- The ticket that LAUNCH gets. -/
abbrev launchTicket (s : State) : Nat := s.sched.nextTicket

/-- The COLL instructions with their operation and mode. -/
def collInstrs : List ((SReg → SReg → BReg → BReg → Instr) × Nat × Nat) :=
  [(.collSumAi, 0, 0), (.collSumFix, 0, 1), (.collMax, 1, 2), (.collMin, 2, 2), (.collGather, 3, 2), (.collRscatAi, 4, 0),
   (.collRscatFix, 4, 1), (.collBcast, 5, 2), (.collA2a, 6, 2)]

/-- COLL may start (R393): an enabled communicator of the group's context, buffers of the right class, size and permission. -/
structure MayCollect (op mode : Nat) (d a : SReg) (bs br : BReg) (s : State) (c : Nat) : Prop where
  comm : c = (s.me.rs a.toNat).toNat ∧ s.commOk c = true ∧ s.commHeld c = false
  ready : Ready s [d.toNat, a.toNat] ∧ s.me.pendingB [bs.toNat, br.toNat] = false
  elem : (s.comm c).elem < 4 ∧ ¬(mode = 0 ∧ (s.comm c).elem = 1) ∧ ((s.comm c).rank < (s.comm c).p ∨ op = 0 ∨ op = 5)
  classes : (recRule s bs).cls = 0 ∧ (recRule s br).cls = 0 ∧ (recRule s bs).refused = false ∧ (recRule s br).refused = false
  based : (recRule s bs).base % (recRule s bs).unit = 0 ∧ (recRule s br).base % (recRule s br).unit = 0
  table : s.tableLost c = false
  sizes : collSizeOk op (collWidth (s.comm c).elem) (s.comm c).p (recRule s bs).extent (recRule s br).extent = true
  allowed : (recRule s bs).rd = true ∧ (recRule s br).wr = true
  quiet : Quiet s ∧ s.sl.wait = .none
  room : (s.coll.flying.filter (fun x => x.comm == c)).length < 64 ∧ (myHcl s).locks.length + 2 ≤ 256

end Sys2Proof.Claims

/-- R280 to R282, R312, R315, R316 and R321: CPY and CAOUT read their 64 bytes, take the engine's next ticket and enter its
queue; an accepted command registers its range locks (two for CPY, one for CAOUT) and the stream goes on; a CAOUT's root then
has one reference more, which pins its tree; a refused command holds the stream with its status until it retires, and pins
and locks nothing. -/
def Obligations.CommandsAccepted : Prop :=
  ∀ (d a : SReg) s u bs, Submits d a 64 64 s u bs → HasRoom s →
    let v := u.reclaimed
    let root := (caoutOf bs).root
    (s.badCpy (hclOf s.cur.g) (cpyOf bs) = false → (cpyOf bs).empty = false →
      ∃ t, exec (.cpy d a) s = .next t ∧ Accepted s u t d .cpy bs none 2 ∧ t.sl = s.sl.advance ∧ t.dir = u.dir)
    ∧ (s.badCpy (hclOf s.cur.g) (cpyOf bs) = true →
      ∃ t, exec (.cpy d a) s = .next t ∧ Accepted s u t d .cpy bs (some 1) 0 ∧ t.sl.pc = s.sl.pc ∧ t.dir = u.dir)
    ∧ (s.badCpy (hclOf s.cur.g) (cpyOf bs) = false → (cpyOf bs).empty = true →
      ∃ t, exec (.cpy d a) s = .next t ∧ Accepted s u t d .cpy bs (some 0) 0 ∧ t.sl.pc = s.sl.pc ∧ t.dir = u.dir)
    ∧ (v.caoutCheck s.me.ident.ctx (caoutOf bs) = none →
      ∃ t, exec (.caout d a) s = .next t ∧ Accepted s v t d .caout bs none 1 ∧ t.sl = s.sl.advance
        ∧ t.dir = if root = 0 then v.dir else v.dir.incr root)
    ∧ (∀ st, v.caoutCheck s.me.ident.ctx (caoutOf bs) = some st →
      ∃ t, exec (.caout d a) s = .next t ∧ Accepted s v t d .caout bs (some st) 0 ∧ t.sl.pc = s.sl.pc ∧ t.dir = v.dir)

/-- R192, R193 and R319: LAUNCH submits the record at its address under the distributor's next ticket, with the statuses of
its checks for a disabled context, an empty grid, a bad shape and a misaligned header; GRAPH takes the walker's next ticket,
counts as a copy and gives the walker its table to load; one of no nodes is held until it completes. A misaligned record or
table raises ALIGN. -/
def Obligations.LaunchesSubmitted : Prop :=
  (∀ (d a : SReg) s u bs, Submits d a 128 128 s u bs → (∀ l ∈ s.sched.launches, l.ticket ≠ launchTicket s) → NoErrors s →
    let r := launchRecOf bs
    let on := (s.ctxEntry s.me.ident.ctx).flags % 2 = 1
    ∃ t l, exec (.launch d a) s = .next t ∧ t.sl = s.sl.advance ∧ t.sched.nextTicket = nextTicket (launchTicket s)
      ∧ (d ≠ 0 → t.me.rs d.toNat = BitVec.ofNat 32 (launchTicket s)) ∧ (∀ q, q ≠ d.toNat → t.me.rs q = s.me.rs q)
      ∧ l ∈ t.sched.launches ∧ l.ticket = launchTicket s ∧ l.record = r ∧ l.ctx = s.me.ident.ctx ∧ l.launcher = .group s.cur.g
      ∧ (¬on → l.status = some 4) ∧ (on → r.size = 0 → l.status = some 0)
      ∧ (on → r.size ≠ 0 → r.ok = false → l.status = some 2)
      ∧ (on → r.size ≠ 0 → r.ok = true → r.hdr % 64 ≠ 0 → l.status = some 1))
  ∧ (∀ (d a : SReg) s, EvenReg a → Ready s [d.toNat, a.toNat, a.toNat + 1] → (s.me.rs64 a.toNat).toNat % 128 ≠ 0 →
    exec (.launch d a) s = .next (s.trapWord (wordOf (.launch d a)) causeAlign 0 0))
  ∧ (∀ (d a b : SReg) s, EvenReg a → Ready s [d.toNat, a.toNat, a.toNat + 1, b.toNat] →
    ((s.me.rs64 a.toNat).toNat % 64 ≠ 0 → exec (.graph d a b) s = .next (s.trapWord (wordOf (.graph d a b)) causeAlign 0 0))
    ∧ ((s.me.rs64 a.toNat).toNat % 64 = 0 → s.me.rs b.toNat = 0 → Quiet s → s.sl.wait = .none → NoErrors s →
        (s.die (dieOfHcl (hclOf s.cur.g))).graphs = [] →
        let w := s.die (dieOfHcl (hclOf s.cur.g))
        ∃ t x, exec (.graph d a b) s = .next t ∧ t.sl = s.sl.advance ∧ t.me.copies = 1
          ∧ (d ≠ 0 → t.me.rs d.toNat = BitVec.ofNat 32 (nextTicket w.graphTicket))
          ∧ (t.die (dieOfHcl (hclOf s.cur.g))).graphs = [x] ∧ x.ticket = nextTicket w.graphTicket
          ∧ x.table = (s.me.rs64 a.toNat).toNat ∧ x.ctx = s.me.ident.ctx ∧ x.n = 0 ∧ x.nodes = [])
    ∧ ((s.me.rs64 a.toNat).toNat % 64 = 0 → Quiet s → s.sl.wait = .none →
        let die := dieOfHcl (hclOf s.cur.g)
        (s.die die).graphs.length < 16 →
        ∃ (v : State) (x : Graph), exec (.graph d a b) s = .next (v.loadGraph die x).advance ∧ x.ticket = nextTicket (s.die die).graphTicket
          ∧ x.table = (s.me.rs64 a.toNat).toNat ∧ x.n = (s.me.rs b.toNat).toNat ∧ x.loaded = false ∧ x.ctx = s.me.ident.ctx
          ∧ x.g = some s.cur.g ∧ (v.die die).graphs = (s.die die).graphs ++ [x] ∧ (v.die die).graphTicket = x.ticket
          ∧ v.me = { s.me.ws d.toNat (BitVec.ofNat 32 x.ticket) with copies := s.me.copies + 1 }
          ∧ v.mem = s.mem ∧ v.llc = s.llc ∧ ∀ h, h ≠ s.cur.g → v.group h = s.group h))

/-- R393: COLL takes its communicator's next ticket and sequence number, locks both buffers, joins the collectives in flight
and counts as a copy; a stale communicator raises MEMBER, a missing permission BOUNDS, one that is not enabled or not the
context's ILLEGAL. -/
def Sys2Proof.Claims.CollectivesStart : Prop :=
  ∀ r ∈ collInstrs, ∀ (d a : SReg) (bs br : BReg) s c, c = (s.me.rs a.toNat).toNat →
    (MayCollect r.2.1 r.2.2 d a bs br s c → (s.comm c).stale = false →
      ∃ t x, exec (r.1 d a bs br) s = .next t ∧ t.sl = s.sl.advance ∧ t.coll.flying = s.coll.flying ++ [x]
        ∧ x.comm = c ∧ x.op = r.2.1 ∧ x.mode = r.2.2 ∧ x.ticket = nextTicket (s.comm c).ticket ∧ x.seq = (s.comm c).seq
        ∧ x.sendVa = (recRule s bs).base ∧ x.sendSize = (recRule s bs).extent ∧ x.recvVa = (recRule s br).base
        ∧ x.recvSize = (recRule s br).extent ∧ x.stream = (recRule s br).ws ∧ x.status = none
        ∧ (t.comm c).ticket = nextTicket (s.comm c).ticket ∧ (t.comm c).seq = (s.comm c).seq + 1
        ∧ (myHcl t).locks.length = (myHcl s).locks.length + 2 ∧ t.me.copies = s.me.copies + 1
        ∧ (d ≠ 0 → t.me.rs d.toNat = BitVec.ofNat 32 x.ticket) ∧ t.mem = s.mem ∧ t.llc = s.llc)
    ∧ (MayCollect r.2.1 r.2.2 d a bs br s c → (s.comm c).stale = true →
        exec (r.1 d a bs br) s = .next (s.trapWord (wordOf (r.1 d a bs br)) causeMember 0 0))
    ∧ (Ready s [d.toNat, a.toNat] → s.me.pendingB [bs.toNat, br.toNat] = false → s.commOk c = false →
        exec (r.1 d a bs br) s = .next (s.trapWord (wordOf (r.1 d a bs br)) causeIllegal 0 0))

namespace Sys2Proof.Claims

open Sys2Proof.Machine

/-- Command `c` of hardware core cluster `h` moves one row of `n` bytes, inside one page each, from device address `a` to
device address `b`; the bytes that its start has written are there. -/
def MovesRow (s : State) (h : Nat) (c : CopyCmd) (a b n : Nat) : Prop :=
  let q := cpyOf c.bytes
  (s.hcl h).command c.ticket = some c ∧ c.kind = .cpy ∧ c.started = true ∧ c.status = none
    ∧ (∀ use, c.early = some use → ∀ i, i < n → Config.freeChoice use i = true → s.devByte (b + i) = s.devByte (a + i))
    ∧ q.op = 0 ∧ q.nx = n ∧ q.ny = 1 ∧ q.nz = 1 ∧ q.flags = 0 ∧ q.statA = 0 ∧ 0 < n
    ∧ q.src % 65536 + n ≤ 65536 ∧ q.dst % 65536 + n ≤ 65536
    ∧ s.lookup (c.asker h s) q.src .load = .hit (.dev a) ∧ s.lookup (c.asker h s) q.dst .store = .hit (.dev b)
    ∧ (a + n ≤ b ∨ b + n ≤ a)

end Sys2Proof.Claims

/-- R312, R314, R317, R281, R320 and R194: a command starts in its turn; a started copy retires with every byte of its
destination as its source held it, its locks released, its entry gone and its group's count lowered; the walk of a tree with
a line of the wrong kind ends with BADTREE, and one with a line that fails its re-hash with CORRUPT; a graph whose nodes are all done, and a launch whose clusters have all retired,
leave with their completion. -/
def Obligations.EnginesFinish : Prop :=
  (∀ h s c, (s.hcl h).copyQueue.find? (fun x => !x.started && !(s.hcl h).blocked x.op) = some c →
    (∀ x ∈ (s.hcl h).copyQueue, x.ticket = c.ticket → x = c) → ((s.hcl h).copyQueue.filter CopyCmd.working).length < 8 →
    ∃ t x, exec (.cpyStart h c.ticket) s = .next t ∧ (t.hcl h).command c.ticket = some x ∧ x.started = true)
  ∧ (∀ h s c a b n g, MovesRow s h c a b n → c.g = some g → c.node = none → s.ras.poison = [] → LlcCoherent s →
    ∃ t, exec (.cpyRetire h c.ticket) s = .next t ∧ (∀ i, i < n → t.devByte (b + i) = s.devByte (a + i))
      ∧ (∀ x, ¬(b ≤ x ∧ x < b + n) → t.devByte x = s.devByte x)
      ∧ (t.hcl h).command c.ticket = none ∧ (∀ e ∈ (t.hcl h).locks, e.op ≠ c.op)
      ∧ (t.group g).copies = (s.group g).copies - 1)
  ∧ (∀ h s c g st, (s.hcl h).command c.ticket = some c → c.status = some st → c.statA = 0 → c.node = none → c.g = some g →
    ∃ t, exec (.cpyRetire h c.ticket) s = .next t ∧ (t.hcl h).command c.ticket = none ∧ t.mem = s.mem ∧ t.llc = s.llc
      ∧ (t.group g).copies = (s.group g).copies - 1)
  ∧ (∀ h s c, (s.hcl h).command c.ticket = some c → c.kind = .caout → c.started = true → c.status = none → c.early = none →
    Settled s →
    let u := (s.caoutLines c).foldl (fun s e => s.readLine e.slot) s
    (s.caoutWalk c = .badTree →
      ∃ t x, exec (.caoutWalk h c.ticket) s = .next t ∧ (t.hcl h).command c.ticket = some x ∧ x.early = some 3)
    ∧ (∀ e, s.caoutWalk c = .corrupt e →
      ∃ t x, exec (.caoutWalk h c.ticket) s = .next t ∧ (t.hcl h).command c.ticket = some x ∧ x.early = some 5)
    ∧ (∀ bs b, s.caoutWalk c = .bytes bs →
        u.engineRange (c.asker h s) (caoutOf c.bytes).dst (caoutOf c.bytes).bytes .store = (u, .at_ [(.dev b, bs.length)]) →
        LlcCoherent u →
        ∃ t x, exec (.caoutWalk h c.ticket) s = .next t ∧ t.devBytes b bs.length = bs
          ∧ (t.hcl h).command c.ticket = some x ∧ x.early = some 0))
  ∧ (∀ die ticket node s x, s.graph? die ticket = some x → x.loaded = true → x.isOver = true → x.nodes[node]? = none →
    x.statA = 0 → x.sigA = 0 → x.scope < 5 →
    ∃ t, exec (.graphNodeFinish die ticket node) s = .next t ∧ t.graph? die ticket = none ∧ t.mem = s.mem
      ∧ (∀ g, x.g = some g → (t.group g).copies = (s.group g).copies - 1))
  ∧ (∀ die ticket node s, s.graph? die ticket = none → exec (.graphNodeFinish die ticket node) s = .next s)
  ∧ (∀ ticket s l g, s.launch? ticket = some l → l.checked = true → l.status = none → l.retired = l.record.size →
    l.record.scope < 5 → l.record.statA = 0 → l.record.sigA = 0 → l.record.node = 0xFFFFFFFF → l.launcher = .group g → l.step = 0 →
    s.gridDone l = true →
    ∃ t, exec (.launchComplete ticket) s = .next t ∧ t.launch? ticket = none ∧ t.groups = s.groups ∧ t.mem = s.mem)

/-! ### Remote invocation (R399 to R410) -/

namespace Sys2Proof.Claims

open Sys2Proof.Machine

/-- A packet of class `cls` for a device leaves at once: a port on the way is not DOWN, and none is held for want of a route
(R385, R386). -/
abbrev Leaves (s : State) (dev : Word) (cls : Nat) : Prop := (s.route dev cls).isSome = true ∧ s.fabric.waiting = []

/-- Another member that a packet of class `cls` reaches (R385, R412). -/
abbrev Reaches (s : State) (cls : Nat) (dev : Word) : Prop :=
  dev ≠ s.member.devId ∧ s.member.isMember dev = true ∧ Leaves s dev cls

/-- Between two states the part has sent these messages, in order. -/
def Sent (s t : State) (ms : List Msg) : Prop := t.fabric.sent = s.fabric.sent ++ ms

/-- RINV may send (R404): its fields, its target and handler, its registers, and a ticket slot to come. -/
structure MayInvoke (d a f : SReg) (n : BitVec 4) (s : State) : Prop where
  fields : EvenReg a ∧ n.toNat ≤ 12 ∧ (n = 0 → f = 0) ∧ f.toNat + n.toNat ≤ 64
  ready : Ready s ([d.toNat, a.toNat, a.toNat + 1] ++ span f.toNat n.toNat)
  target : deviceIdOk (s.me.rs a.toNat) = true ∧ (s.me.rs (a.toNat + 1)).toNat < 4096
  quiet : Quiet s ∧ s.sl.wait = .none
  room : (s.me.tickets.filter TicketSlot.awaits).length < 64

/-- The record of an RINV (R399, R404); its arguments are read after the ticket is in `d`. -/
structure InvokeRecord (s : State) (d : SReg) (ticket h f n p : Nat) (r m : Bool) (bs : List Byte) : Prop where
  size : bs.length = 64
  src : fieldAt bs 0 4 = s.member.devId.toNat
  tag : fieldAt bs 4 4 = ticket % 2 ^ 32
  hidx : fieldAt bs 8 2 = h
  flags : fieldAt bs 10 1 = p + (if r then 4 else 0) + (if m then 8 else 0)
  narg : fieldAt bs 11 1 = n ∧ fieldAt bs 12 4 = 0
  args : ∀ i, i < 12 → fieldAt bs (16 + 4 * i) 4 =
    if i < n then (if f + i = d.toNat ∧ d ≠ 0 then ticket % 2 ^ 32 else (s.me.rs (f + i)).toNat) else 0

/-- The group has taken the device's next ticket into `d` and gone on; `x` is the ticket's slot. -/
def Ticketed (s t : State) (d : SReg) (x : TicketSlot) : Prop :=
  t.sl = s.sl.advance ∧ t.inv.nextTicket = nextTicket s.inv.nextTicket ∧ x ∈ t.me.tickets
    ∧ x.ticket = BitVec.ofNat 32 s.inv.nextTicket ∧ (d ≠ 0 → t.me.rs d.toNat = BitVec.ofNat 32 s.inv.nextTicket)
    ∧ ∀ q, q ≠ d.toNat → t.me.rs q = s.me.rs q

/-- The flags of the handler that a record names (R400). -/
abbrev handlerFlags (s : State) (r : List Byte) : Nat := fieldAt (s.handler (recHidx r)) 17 1

/-- The handler is enabled and takes records of the source (R400), the journal is on (R409), the queue has room (R402). -/
abbrev Accepts (s : State) (src : Word) (r : List Byte) : Prop :=
  (src ≠ hostSrc → s.member.state ≠ 3) ∧ recBad r = false ∧ handlerFlags s r / 8 % 2 = 1
    ∧ handlerFlags s r / (if src = hostSrc then 32 else 16) % 2 = 1 ∧ s.inv.jcfg.getLsbD 31 = true
    ∧ (s.inv.queue (recPrio r)).length < 1024

/-- A record has entered the queue of its priority and the journal, and nothing the other queues. -/
def Enqueued (s t : State) (src : Word) (r : List Byte) (member : Option Nat) : Prop :=
  (∃ i, t.inv.queue (recPrio r) = s.inv.queue (recPrio r) ++ [i] ∧ i.src = src ∧ i.record = r ∧ i.held = false
      ∧ i.member = member ∧ i.seq = s.inv.jnext ∧ i.bypassed = 0)
    ∧ (∀ p, p < 4 → p ≠ recPrio r → t.inv.queue p = s.inv.queue p) ∧ t.inv.jnext = s.inv.jnext + 1

/-- The queues and the journal are as before. -/
def QueuesKept (s t : State) : Prop := (∀ p, t.inv.queue p = s.inv.queue p) ∧ t.inv.jnext = s.inv.jnext

/-- Every member of communicator `c` is another device that packets reach. -/
def AllOthers (s : State) (ms : List Word) : Prop := ms ≠ [] ∧ ∀ d ∈ ms, Reaches s 0 d

/-- LAUNCHX.cmt and .abt with the code of the request and the kind of the ticket slot. -/
def useInstrs : List ((SReg → SReg → Instr) × Nat × Nat) := [(.launchxCmt, 1, 2), (.launchxAbt, 2, 3)]

end Sys2Proof.Claims

/-- R399, R404 and R405: RINV takes the next ticket, builds its record from the live registers and sends it toward its
target; this device receives its own directly, and an accept is final where no reply is wanted; a target that is no member is
answered UNREACHABLE, which a must-deliver record tries again 4 µs later. Bad fields raise ILLEGAL. -/
def Sys2Proof.Claims.InvocationsSent : Prop :=
  (∀ d a f n p r m s, MayInvoke d a f n s →
    let dev := s.me.rs a.toNat
    let h := (s.me.rs (a.toNat + 1)).toNat
    let rec_ (x : TicketSlot) : Prop := InvokeRecord s d s.inv.nextTicket h f.toNat n.toNat p.toNat r m x.record
    (Reaches s p.toNat dev →
      ∃ t x, exec (.rinv d a f n p r m) s = .next t ∧ Ticketed s t d x ∧ rec_ x ∧ x.final = none
        ∧ Sent s t [.invocation dev x.record] ∧ QueuesKept s t)
    ∧ (dev = s.member.devId →
        (∀ bs, InvokeRecord s d s.inv.nextTicket h f.toNat n.toNat p.toNat r m bs → Accepts s s.member.devId bs) →
        s.member.devId ≠ hostSrc →
        ∃ t x, exec (.rinv d a f n p r m) s = .next t ∧ Ticketed s t d x ∧ rec_ x
          ∧ x.final = (if r then none else some 0x01) ∧ Enqueued s t s.member.devId x.record none)
    ∧ (s.member.isMember dev = false →
        ∃ t x, exec (.rinv d a f n p r m) s = .next t ∧ Ticketed s t d x ∧ rec_ x ∧ Sent s t []
          ∧ (m = false → x.final = some 0x13) ∧ (m = true → x.final = none ∧ x.retryAt = some (s.ck + 8000))))
  ∧ (∀ d a f n p r m s, Ready s ([d.toNat, a.toNat, a.toNat + 1] ++ span f.toNat n.toNat) →
      (¬EvenReg a ∨ 12 < n.toNat ∨ (n = 0 ∧ f ≠ 0) ∨ 64 < f.toNat + n.toNat ∨ deviceIdOk (s.me.rs a.toNat) = false
        ∨ 4096 ≤ (s.me.rs (a.toNat + 1)).toNat) →
      exec (.rinv d a f n p r m) s = .next (s.trapWord (wordOf (.rinv d a f n p r m)) causeIllegal 0 0))

/-- R406 and R407: RINVW of a ticket that names no slot returns NOTICKET; one with a final answer returns it and frees the
slot; one whose must-deliver record failed frees the slot and raises INVOKE with the NAK code; one without an answer waits. -/
def Sys2Proof.Claims.InvocationsAwaited : Prop :=
  ∀ (d a : SReg) s, Ready s [d.toNat, a.toNat] →
    ((∀ x ∈ s.me.tickets, x.ticket ≠ s.me.rs a.toNat) → exec (.rinvw d a) s = .next (wrote s d 0xFF))
    ∧ (∀ x w, s.me.tickets.find? (fun x => x.ticket == s.me.rs a.toNat) = some x → x.final = some w →
        (x.must = true → x.failed = false) →
        ∃ t, exec (.rinvw d a) s = .next t ∧ t.sl = s.sl.advance ∧ (d ≠ 0 → t.me.rs d.toNat = w)
          ∧ (∀ q, q ≠ d.toNat → t.me.rs q = s.me.rs q)
          ∧ t.me.tickets = s.me.tickets.filter (fun x => x.ticket != s.me.rs a.toNat) ∧ t.mem = s.mem)
    ∧ (∀ x w, s.me.tickets.find? (fun x => x.ticket == s.me.rs a.toNat) = some x → x.final = some w → x.must = true →
        x.failed = true →
        exec (.rinvw d a) s
          = .next ((s.setMe { s.me with tickets := s.me.tickets.filter (fun x => x.ticket != s.me.rs a.toNat) }).trapWord
              (wordOf (.rinvw d a)) causeInvoke 0 (w.toNat % 65536)))
    ∧ (∀ x, s.me.tickets.find? (fun x => x.ticket == s.me.rs a.toNat) = some x → x.final = none →
        exec (.rinvw d a) s = .next s)

/-- R402, R408 and R419: a record received from another device, or from a host slot, is answered once: with the first reason
to refuse it, or, once it stands in its queue and in the journal, with an accept. DOORBELL submits a slot that is not BUSY. -/
def Sys2Proof.Claims.InvocationsReceived : Prop :=
  (∀ src bs s, src ≠ hostSrc → Reaches s 0 src →
    let r := recStamp src (recTicket bs) bs
    let answers (a : InvAnswer) (t : State) : Prop := Sent s t [.answer src (BitVec.ofNat 32 (recTicket bs)) a]
    (Accepts s src r → ∃ t, exec (.invocationReceive src bs) s = .next t ∧ Enqueued s t src r none ∧ answers .accept t)
    ∧ (∀ code,
        (s.member.state = 3 ∧ code = 0x14)
          ∨ (s.member.state ≠ 3 ∧ recBad r = true ∧ code = 0x12)
          ∨ (s.member.state ≠ 3 ∧ recBad r = false
              ∧ (handlerFlags s r / 8 % 2 = 0 ∨ handlerFlags s r / 16 % 2 = 0 ∨ s.inv.jcfg.getLsbD 31 = false) ∧ code = 0x11)
          ∨ (s.member.state ≠ 3 ∧ recBad r = false ∧ handlerFlags s r / 8 % 2 = 1 ∧ handlerFlags s r / 16 % 2 = 1
              ∧ s.inv.jcfg.getLsbD 31 = true ∧ 1024 ≤ (s.inv.queue (recPrio r)).length ∧ code = 0x10) →
        ∃ t, exec (.invocationReceive src bs) s = .next t ∧ QueuesKept s t ∧ answers (.nak code) t))
  ∧ (∀ k bs s, s.inv.submitted = [(k, bs)] →
      let r := recStamp hostSrc (recTicket bs) bs
      (Accepts s hostSrc r → ∃ t, exec (.invocationReceive hostSrc bs) s = .next t ∧ Enqueued s t hostSrc r none
        ∧ Sparse.get 0 t.inv.slotStat k = 0 ∧ t.inv.submitted = [] ∧ Sent s t [.msix 6])
      ∧ (recBad r = true → ∃ t, exec (.invocationReceive hostSrc bs) s = .next t ∧ QueuesKept s t
        ∧ Sparse.get 0 t.inv.slotStat k = 0x12 ∧ t.inv.submitted = [] ∧ Sent s t [.msix 6]))
  ∧ (∀ (v : Word) s, s.boot.stage = 6 →
      let k := v.toNat % 256
      ((Sparse.get 0 s.inv.slotStat k).getLsbD 31 = true → exec (.doorbell v) s = .next s)
      ∧ ((Sparse.get 0 s.inv.slotStat k).getLsbD 31 = false →
          ∃ t, exec (.doorbell v) s = .next t ∧ Sparse.get 0 t.inv.slotStat k = 0x80000000
            ∧ (∀ j, j ≠ k → Sparse.get 0 t.inv.slotStat j = Sparse.get 0 s.inv.slotStat j)
            ∧ t.inv.submitted = s.inv.submitted ++ [(k, (List.range 64).map (fun o => Sparse.get 0 s.inv.slots (64 * k + o)))]))

/-- R401, R403 and R405: the head of the highest-priority queue is launched in its handler's context and leaves its queue; an
answer reaches its ticket: an accept is final without a reply, a reply of 0 is DONE, a NAK without must-deliver is final, a
QFULL with it is tried again, after the time of its number; a retry that is due is sent. -/
def Sys2Proof.Claims.InvocationsRun : Prop :=
  (∀ s p i, p < 4 → (∀ q, p < q → q < 4 → s.inv.head q = none) → s.inv.head p = some i →
    (∀ q j, q < 4 → s.inv.head q = some j → j.bypassed < 16) →
    (∀ l ∈ s.sched.launches, l.ticket ≠ launchTicket s) → NoErrors s →
    ∃ t l, exec .invocationDispatch s = .next t ∧ l ∈ t.sched.launches ∧ l.ticket = launchTicket s
      ∧ l.ctx = fieldAt (s.handler (recHidx i.record)) 18 2 % 4096
      ∧ l.launcher = .handler i.seq i.src (BitVec.ofNat 32 (recTicket i.record)) (recReply i.record) i.member
      ∧ l.record.prio = 4 + recPrio i.record ∧ l.record.scope = 6 ∧ l.record.argX = 64
      ∧ t.inv.copies = s.inv.copies ++ [(l.ticket, l.ctx, i.record)]
      ∧ (t.inv.queue p).length + 1 = (s.inv.queue p).length)
  ∧ (∀ g ticket s x, x ∈ (s.group g).tickets → x.ticket = ticket → x.launchx = 0 → x.final = none → x.retryAt = none →
      let comes (a : InvAnswer) (y : TicketSlot) : Prop :=
        ∃ t, exec (.invocationAnswer ticket a) s = .next t ∧ y ∈ (t.group g).tickets
      (x.reply = false → comes .accept { x with final := some 1 })
      ∧ (x.reply = true → comes (.reply 0) { x with final := some 0 })
      ∧ (∀ code, code < 65536 → x.must = false → comes (.nak code) { x with final := some (BitVec.ofNat 32 code), failed := false })
      ∧ (x.must = true → x.retries < 8 → comes (.nak 0x10) { x with retryAt := some (s.ck + 2 ^ (x.retries + 2) * 2000) })
      ∧ (x.must = true → 8 ≤ x.retries → comes (.nak 0x10) { x with final := some 0x10, failed := true }))
  ∧ (∀ g ticket s x due, (s.group g).tickets.find? (fun x => x.ticket == ticket) = some x → x.retryAt = some due →
      (s.ck < due → exec (.rinvRetryTimer g ticket) s = .next s)
      ∧ (due ≤ s.ck → Reaches s (recPrio x.record) x.target →
          ∃ t, exec (.rinvRetryTimer g ticket) s = .next t ∧ Sent s t [.invocation x.target x.record]
            ∧ { x with retries := x.retries + 1, retryAt := none } ∈ (t.group g).tickets))

/-- R410: LAUNCHX.rsv asks every member to hold an entry and remembers the reservation by its address; .cmt and .abt use a held
reservation up, and raise ILLEGAL without one; a member that receives a request holds, accepts, or drops an entry and
answers. A misaligned record raises ALIGN. -/
def Obligations.LaunchesTogether : Prop :=
  (∀ (d a : SReg) s u bs c, Submits d a 64 64 s u bs → c = recComm bs → c < 256 → (s.comm c).on = true →
      (s.comm c).ctx = s.me.ident.ctx → (s.me.tickets.filter TicketSlot.awaits).length < 64 →
    ((s.comm c).stale = true →
      exec (.launchxRsv d a) s = .next (u.trapWord (wordOf (.launchxRsv d a)) causeMember 0 0))
    ∧ ((s.comm c).stale = false → s.tableLost c = false → AllOthers s (u.rankIds c) →
      ∃ t x r, exec (.launchxRsv d a) s = .next t ∧ Ticketed s t d x ∧ x.launchx = 1 ∧ x.members = u.rankIds c ∧ x.final = none
        ∧ r ∈ t.me.reservations ∧ r.addr = (s.me.rs64 a.toNat).toNat ∧ r.ticket = x.ticket ∧ r.held = false
        ∧ Sent s t ((u.rankIds c).map (fun m => .launchx m (s.launchxReq 0 x.ticket r.record)))
        ∧ fieldAt r.record 0 4 = c ∧ fieldAt r.record 4 4 = s.inv.nextTicket % 2 ^ 32 ∧ r.record.drop 8 = bs.drop 8))
  ∧ (∀ k ∈ useInstrs, ∀ (d a : SReg) s u bs, Submits d a 64 64 s u bs → (s.me.tickets.filter TicketSlot.awaits).length < 64 →
      let mine (r : Reservation) : Bool := r.addr == (s.me.rs64 a.toNat).toNat && r.held
      (s.me.reservations.find? mine = none →
        exec (k.1 d a) s = .next (u.trapWord (wordOf (k.1 d a)) causeIllegal 0 0))
      ∧ (∀ r, s.me.reservations.find? mine = some r → AllOthers s r.members →
        ∃ t x, exec (k.1 d a) s = .next t ∧ Ticketed s t d x ∧ x.launchx = k.2.2 ∧ x.members = r.members ∧ x.final = none
          ∧ t.me.reservations = s.me.reservations.filter (fun y => y.ticket != r.ticket)
          ∧ Sent s t (r.members.map (fun m => .launchx m (s.launchxReq k.2.1 x.ticket r.record)))))
  ∧ (∀ i : SReg → SReg → Instr, i = .launchxRsv ∨ i = .launchxCmt ∨ i = .launchxAbt → ∀ d a s, EvenReg a →
      Ready s [d.toNat, a.toNat, a.toNat + 1] → (s.me.rs64 a.toNat).toNat % 64 ≠ 0 →
      exec (i d a) s = .next (s.trapWord (wordOf (i d a)) causeAlign 0 0))
  ∧ (∀ (q : LaunchxReq) s, Reaches s 0 q.src → q.src ≠ hostSrc →
      let rank := ((s.comm (recComm q.record % 256)).active.map (·.rank)).getD 0
      let r := recStamp q.src (recTicket q.record) q.record
      let answers (st : Nat) (t : State) : Prop := Sent s t [.answer q.src q.ticket (.fromMember rank st 0)]
      (q.op = 0 → q.gen ≠ s.member.gen → ∃ t, exec (.launchxMemberRequest q) s = .next t ∧ QueuesKept s t ∧ answers 0x14 t)
      ∧ (q.op = 0 → q.gen = s.member.gen → Accepts s q.src r →
          ∃ t i, exec (.launchxMemberRequest q) s = .next t ∧ answers 0x02 t ∧ t.inv.jnext = s.inv.jnext
            ∧ t.inv.queue (recPrio r) = s.inv.queue (recPrio r) ++ [i] ∧ i.held = true ∧ i.src = q.src ∧ i.record = r)
      ∧ (∀ i, q.op = 1 → [0, 1, 2, 3].findSome? (fun p => (s.inv.queue p).find? (InvItem.heldBy q.src (recTicket q.record))) = some i →
          let bs := recStamp q.src q.ticket.toNat i.record
          ∃ t j, exec (.launchxMemberRequest q) s = .next t ∧ Sent s t [] ∧ j ∈ t.inv.queue (recPrio bs) ∧ j.held = false
            ∧ j.src = q.src ∧ j.record = bs ∧ j.seq = s.inv.jnext ∧ j.member = some rank ∧ t.inv.jnext = s.inv.jnext + 1)
      ∧ (q.op = 2 → ∃ t, exec (.launchxMemberRequest q) s = .next t ∧ answers 0x03 t
          ∧ ∀ p i, p < 4 → i ∈ t.inv.queue p → i.heldBy q.src (recTicket q.record) = false))

/-! ### Collectives and replicas arriving and ending (R389, R392, R394 to R397, R421), DISCARD (R228) -/

namespace Sys2Proof.Claims

open Sys2Proof.Machine

/-- A contribution like another: the same communicator, table, sequence number, sender, kind and number. -/
def SameChunk (k c : CollChunk) : Prop :=
  k.comm = c.comm ∧ k.tableId = c.tableId ∧ k.seq = c.seq ∧ k.src = c.src ∧ k.kind = c.kind ∧ k.index = c.index

/-- A collective that knows the sizes of every rank, whose units have all gone out and whose locks are not held back. -/
abbrev ReadyToRetire (s : State) (x : Coll) : Prop :=
  s.coll.flying.find? (fun y => y.comm == x.comm && y.ticket == x.ticket) = some x ∧ s.collBlocked x = false
    ∧ s.collSized x = true ∧ s.collSent x = true

/-- RTSWAP names an enabled communicator of the group's context that no other RTSWAP holds. -/
abbrev MaySwap (a : SReg) (s : State) (c : Nat) : Prop :=
  c = (s.me.rs a.toNat).toNat ∧ Ready s [a.toNat] ∧ s.commOk c = true ∧ s.commHeld c = false ∧ Quiet s ∧ s.sl.wait = .none

end Sys2Proof.Claims

/-- R389, R391, R392, R394, R395 and R422: a contribution of this generation is kept in place of an earlier copy; one of another
generation is answered by STALEGEN, and the communicator goes stale with its collectives; ranks that disagree end with
BADCOLL; a result that is known is written, and the collective then writes its status and ends. A sum of words is the sum of
all ranks' words. -/
def Sys2Proof.Claims.CollectivesEnd : Prop :=
  (∀ (k : CollChunk) s, k.gen = s.member.gen.setWidth 16 → k.kind ≠ 3 →
    ∃ t, exec (.collChunkReceive k) s = .next t ∧ k ∈ t.coll.inbox
      ∧ (∀ x ∈ t.coll.inbox, SameChunk x k → x = k) ∧ (∀ x ∈ s.coll.inbox, ¬SameChunk x k → x ∈ t.coll.inbox))
  ∧ (∀ (k : CollChunk) s, k.gen ≠ s.member.gen.setWidth 16 → Leaves s k.src 0 →
    ∃ t, exec (.collChunkReceive k) s = .next t ∧ .staleGen k.src k.comm ∈ t.fabric.sent ∧ (t.comm k.comm).stale = true)
  ∧ (∀ c s, ∃ t, exec (.stalegenControl c) s = .next t ∧ (t.comm c).stale = true
    ∧ ∀ x ∈ t.coll.flying, x.comm = c → x.status ≠ none)
  ∧ (∀ x s, ReadyToRetire s x → x.status = none →
      (s.collBad x = true →
        ∃ t, exec (.collRetire x.comm x.ticket) s = .next t ∧ { x with status := some 1 } ∈ t.coll.flying
          ∧ ∀ e ∈ (t.hcl x.hcl).locks, e.op ≠ x.lockOp)
      ∧ (∀ bs b use, s.collBad x = false → s.collResult x = (s, .bytes bs) → s.collAcked x = true → x.early = some use →
          s.engineRange (s.collAsker x) x.recvVa bs.length .store = (s, .at_ [(.dev b, bs.length)]) →
          s.lookup (s.collAsker x) x.recvVa .store = .hit (.dev b) → x.recvVa % 65536 + x.recvSize ≤ 65536 →
          LlcCoherent s → (∀ i, i < bs.length → Config.freeChoice use i = true → s.devByte (b + i) = bs.getD i 0) →
          ∃ t, exec (.collRetire x.comm x.ticket) s = .next t ∧ t.devBytes b bs.length = bs
            ∧ ∃ y ∈ t.coll.flying, y.comm = x.comm ∧ y.ticket = x.ticket ∧ y.status = some 0))
  ∧ (∀ c ticket s, s.coll.flying.find? (fun y => y.comm == c && y.ticket == ticket) = none →
      exec (.collRetire c ticket) s = .next s)
  ∧ (∀ port s, (s.port port).isUp = false → exec (.collChunkSend port) s = .next s)
  ∧ (∀ port s, (s.port port).isUp = true → s.collReady port = [] → exec (.collChunkSend port) s = .next s)
  ∧ (∀ port s u x k, (s.port port).isUp = true → s.collReady port = [x] →
      s.collUnit x.coll x.dest x.unit = (u, .got k) → u.fabric = s.fabric →
      let n := (s.port port).queue.length + ((Msg.chunk x.dest.dst k).flits 0 k.gen).length
      (s.port port).replay.length + n ≤ 2048 →
      ∃ t, exec (.collChunkSend port) s = .next t ∧ t.fabric.sent = s.fabric.sent ++ [.chunk x.dest.dst k]
        ∧ (t.port port).replay.length = (s.port port).replay.length + n ∧ (t.port port).queue = []
        ∧ (t.port port).nextSeq = (s.port port).nextSeq + BitVec.ofNat 32 n)
  ∧ (∀ (ds : List (List Byte)) n, ds ≠ [] → (∀ d ∈ ds, d.length = 4 * n) → ∀ i, i < n →
      fieldAt (collReduce 0 2 ds) (4 * i) 4 = (ds.map (fun d => fieldAt d (4 * i) 4)).sum % 2 ^ 32)

/-- R421: RTSWAP whose active table is of this generation, with nothing staged, only goes on; one without a staged table of
this generation raises MEMBER; otherwise it holds the communicator, waits for what is in flight, and makes the staged table
active, with P, the rank and the sequence number of the new table and STALE clear. -/
def Obligations.RankTablesSwap : Prop :=
  (∀ (a : SReg) s c, MaySwap a s c →
    ((s.comm c).stale = false → (s.comm c).active.map (·.gen) = some s.member.gen → (s.comm c).staged.valid = false →
      exec (.rtswap a) s = .next s.advance)
    ∧ ((s.comm c).stale = true ∨ (s.comm c).active.map (·.gen) ≠ some s.member.gen ∨ (s.comm c).staged.valid = true →
      (s.comm c).staged.valid = false ∨ (s.comm c).staged.gen ≠ s.member.gen →
      exec (.rtswap a) s = .next (s.trapWord (wordOf (.rtswap a)) causeMember 0 0))
    ∧ ((s.comm c).staged.valid = true → (s.comm c).staged.gen = s.member.gen →
      ∃ t, exec (.rtswap a) s = .next t ∧ (t.comm c).hold = some s.cur.g ∧ t.sl = { s.sl with wait := .swap c }))
  ∧ (∀ (a : SReg) s c, c = (s.me.rs a.toNat).toNat → Ready s [a.toNat] → s.commOk c = true → s.sl.wait = .swap c →
      (s.comm c).hold = some s.cur.g →
      ((∃ x ∈ s.coll.flying, x.comm = c) → exec (.rtswap a) s = .next s)
      ∧ ((∀ x ∈ s.coll.flying, x.comm ≠ c) → s.replicaFlying c = false → (s.comm c).staged.gen = s.member.gen →
          s.tablePoisoned (s.comm c).staged = false →
          ∃ t, exec (.rtswap a) s = .next t ∧ t.sl = s.sl.advance ∧ (t.comm c).active = some (s.comm c).staged
            ∧ (t.comm c).staged.valid = false ∧ (t.comm c).p = (s.comm c).staged.p ∧ (t.comm c).rank = (s.comm c).staged.rank
            ∧ (t.comm c).seq = 0 ∧ (t.comm c).stale = false ∧ (t.comm c).hold = none
            ∧ ∀ k, k ≠ c → t.comm k = s.comm k)
      ∧ ((∀ x ∈ s.coll.flying, x.comm ≠ c) → s.replicaFlying c = false → (s.comm c).staged.gen ≠ s.member.gen →
          exec (.rtswap a) s = .next ((s.endHold c).trapWord (wordOf (.rtswap a)) causeMember 0 0)))
  ∧ (∀ (a : SReg) s, Ready s [a.toNat] → s.commOk (s.me.rs a.toNat).toNat = false →
      exec (.rtswap a) s = .next (s.trapWord (wordOf (.rtswap a)) causeIllegal 0 0))

/-- R228 and R396: DISCARD takes its place in the store queue with the row-lines wholly inside its range; an empty range does
nothing, a record that is not of class 0 raises ILLEGAL, one that may not be written BOUNDS. Another device's request for a
replica is answered with the bytes at home. -/
def Sys2Proof.Claims.DiscardAndReplicaRequests : Prop :=
  (∀ (b : BReg) s, MemFree s b →
    ((recRule s b).cls ≠ 0 → exec (.discard b) s = .next (s.trapWord (wordOf (.discard b)) causeIllegal 0 0))
    ∧ ((recRule s b).cls = 0 → (recRule s b).wr = false →
        exec (.discard b) s = .next (s.trapWord (wordOf (.discard b)) causeBounds 0 0))
    ∧ ((recRule s b).cls = 0 → (recRule s b).wr = true → (recRule s b).extent = 0 → exec (.discard b) s = .next s.advance)
    ∧ (∀ pa, (recRule s b).cls = 0 → (recRule s b).wr = true → 0 < (recRule s b).extent →
        (recRule s b).base % 65536 + (recRule s b).extent ≤ 65536 → pa % 65536 = (recRule s b).base % 65536 →
        s.lockConflicts (hclOf s.cur.g) s.me.ident.ctx true (recRule s b).extent [(0, (recRule s b).base)] = 0 →
        s.resolve (scalarWho s) 0 (recRule s b).base .store = .hit (.dev pa) → s.me.storeFull = false →
        ∃ t e lines, exec (.discard b) s = .next t ∧ t.sl = s.sl.advance ∧ t.me.stores = s.me.stores ++ [e]
          ∧ e.kind = .discard lines (recRule s b).ws ∧ e.id = s.me.seq ∧ t.mem = s.mem ∧ t.llc = s.llc
          ∧ ∀ n, n ∈ lines ↔ ∃ o, 32 * n = pa + o ∧ o + 32 ≤ (recRule s b).extent)
    ∧ (∀ ps, (recRule s b).cls = 0 → (recRule s b).wr = true → 0 < (recRule s b).extent →
        s.lockConflicts (hclOf s.cur.g) s.me.ident.ctx true (recRule s b).extent [(0, (recRule s b).base)] = 0 →
        s.resolveAll (scalarWho s) 0 .store (rangePages (recRule s b).base (recRule s b).extent) = .places ps →
        s.me.storeFull = false →
        ∃ t e, exec (.discard b) s = .next t ∧ t.sl = s.sl.advance ∧ t.me.stores = s.me.stores ++ [e] ∧ t.mem = s.mem
          ∧ e.kind = .discard (discardLines (rangePages (recRule s b).base (recRule s b).extent) ps
              (wholeLines (recRule s b).base (recRule s b).extent)) (recRule s b).ws))
  ∧ (∀ (q : ReplicaReq) s pa, (s.comm q.comm).on = true → (s.replicaOf (s.comm q.comm).ctx q.va q.width).isSome = true →
      s.engineRange (s.engineAsker (.replica q.comm) 0 (s.comm q.comm).ctx none) q.va q.width .load
        = (s, .at_ [(.dev pa, q.width)]) → s.ras.poison = [] → LlcCoherent s → Leaves s q.src 0 →
      ∃ t, exec (.replicaReadRequest q) s = .next t
        ∧ Sent s t [.replicaReply q.src q.tag (bytesNat (s.devBytes pa q.width))])

/-! ### Placement, budgets and pre-emption (R198 to R204, R225, R227, R348 to R352) -/

namespace Sys2Proof.Claims

open Sys2Proof.Machine

/-- The one queued item of hardware core cluster `h` starts the one cluster, of one team of one group, of launch `l`, on a
part where nothing runs. -/
structure OneStart (s : State) (h : Nat) (l : Launch) (t : TaskItem) : Prop where
  idle : s.groups = [] ∧ s.sched.clusters = [] ∧ s.sched.launches = [l] ∧ (s.hcl h).tasks = [t] ∧ h < 48
    ∧ s.sched.waiting = [] ∧ (s.core (h * 12)).waiters = []
  ready : l.checked = true ∧ l.status = none ∧ l.retired = 0 ∧ l.record.size ≤ l.nextCluster ∧ l.launcher = .group 0
  one : l.record.cw = 1 ∧ l.record.ch = 1 ∧ l.record.team = 1 ∧ l.record.flags = 0 ∧ l.hdr.flags = 0
  fits : l.regBytes ≤ l.record.pbreg * 65536
  item : t.start = true ∧ t.reserved = false ∧ t.ticket = l.ticket ∧ t.bypassed = 0 ∧ t.prio < 8

/-- A group as R30 starts it: XM full, the pc at the scalar entry, b0 the arguments, every other register and every mask
zero, the CSRs of the header. -/
structure Started (x : Machine.Group) (l : Launch) : Prop where
  live : x.resident = true ∧ x.slotA.live = true ∧ x.slotB.live = false
  pc : x.slotA.pc = l.hdr.entry ∧ x.slotA.xm = 0xFFFFFFFF ∧ x.slotA.lanes = 0xFFFFFFFF ∧ x.slotA.depth = 0
  regs : (∀ r, x.rs r = 0) ∧ (∀ r i, x.rv r i = 0) ∧ (∀ k, x.rk k = 0) ∧ ∀ r, r ≠ 0 → x.rb r = 0
  args : (recOf (x.rb 0)).base = l.record.argB % 2 ^ 57 ∧ (recOf (x.rb 0)).extent = l.record.argX % 2 ^ 40
    ∧ (recOf (x.rb 0)).rd = true ∧ (recOf (x.rb 0)).wr = false ∧ (recOf (x.rb 0)).cls = 0
  csrs : x.csr.utvec = l.hdr.utvec &&& 0xFFFFFFFC ∧ x.csr.budget = BitVec.ofNat 32 l.hdr.budget ∧ x.csr.part = 4
    ∧ x.csr.tcause = 0 ∧ x.csr.fpe = 0 ∧ x.csr.frm = 0
  ident : x.ident.ctx = l.ctx ∧ x.ident.lcb = l.hdr.lcb ∧ x.ident.laneSize = l.hdr.laneSize ∧ x.ident.index = 0

/-- What a STBP trap leaves in group `g` (R227, R336): its cause, the mask, and a resume at the store itself. -/
def Stalled (g : Nat) (s t : State) (slotB lane : Bool) (mask : Word) : Prop :=
  (t.group g).csr.tcause = BitVec.ofNat 32 (2 ^ 15 + (if lane then 2 ^ 14 else 0) + 0x0E) ∧ (t.group g).csr.tlmask = mask
    ∧ (t.group g).csr.trpc = low32 ((s.group g).slot slotB).pc
    ∧ ((t.group g).slot slotB).pc = (s.group g).ident.scalarEntry + BitVec.ofNat 64 ((s.group g).csr.utvec.toNat / 4 * 4)
    ∧ OnlyGroup g s t

/-- The context's pre-emption state reads `n` afterwards. -/
def PreemptReads (t : State) (ctx n : Nat) : Prop := Sparse.get 0 t.sched.preempt ctx = n

end Sys2Proof.Claims

/-- R30, R199, R201 and R211: a cluster start that fits is placed at the lowest origin: its core takes the launch's
boundaries, its group starts in the lowest entry, and the item leaves the queue. With nothing queued and no launch, nothing
happens. -/
def Sys2Proof.Claims.ClustersPlaced : Prop :=
  (∀ s h l t, OneStart s h l t →
    ∃ u, exec (.taskQueuePlace h) s = .next u ∧ (u.hcl h).tasks = [] ∧ Started (u.group (h * 12 * 32)) l
      ∧ (u.core (h * 12)).poolcfg = BitVec.ofNat 32 (l.record.pbl1 * 2 ^ 16 + l.record.pbscr * 2 ^ 8 + l.record.pbreg)
      ∧ (∀ g, g ≠ h * 12 * 32 → u.group g = s.group g) ∧ u.mem = s.mem
      ∧ ((s.core (h * 12)).poolcfg ≠ l.poolcfg → (u.core (h * 12)).l1 = [] ∧ (u.core (h * 12)).scratch = []))
  ∧ (∀ s h, s.sched.launches = [] → s.sched.waiting = [] → (s.hcl h).tasks = [] → exec (.taskQueuePlace h) s = .next s)

/-- R204, R225 and R227: a window of the store budget renews the team's credit, a debt staying; a window of the lost-locality
detector sets the quota; a store that has waited longer than its limit raises STBP at itself. None of them happens before
its time. -/
def Sys2Proof.Claims.WindowsAndTimeouts : Prop :=
  (∀ k s t, s.team? k = some t →
    (s.ck < t.windowStart + 2000 → exec (.storeBudgetWindow k) s = .next s)
    ∧ (t.windowStart + 2000 ≤ s.ck →
        ∃ u x, exec (.storeBudgetWindow k) s = .next u ∧ u.team? k = some x ∧ x.windowStart = t.windowStart + 2000
          ∧ x.credit = (if 0 ≤ t.credit then 0 else t.credit) + 256 * ((t.stbcfg.toNat % 65536 : Nat) : Int)
          ∧ u.groups = s.groups ∧ u.mem = s.mem))
  ∧ (∀ k s, s.team? k = none → exec (.storeBudgetWindow k) s = .next s)
  ∧ (∀ c s, s.boot.clock = 2000 →
      (s.ck < (s.core c).window + 1024 → exec (.loadQuotaWindow c) s = .next s)
      ∧ ((s.core c).window + 1024 ≤ s.ck → (s.core c).idle = false →
          ∃ u, exec (.loadQuotaWindow c) s = .next u ∧ (u.core c).lastHits = (s.core c).hits ∧ (u.core c).hits = 0
            ∧ (u.core c).quota = (if (s.core c).thrcfg.toNat % 65536 < (s.core c).hits then max 2 ((s.core c).quota / 2)
                else min 32 ((s.core c).quota + 1))
            ∧ u.groups = s.groups ∧ u.mem = s.mem))
  ∧ (∀ g b s since w, ((s.group g).slot b).wait = .credit since w → Unmet s g →
      let late := (s.group g).ident.stbcfg.getLsbD 31 = true
        ∧ since + 2 ^ ((s.group g).ident.stbcfg.toNat / 2 ^ 26 % 32) < s.ck
      (¬late → exec (.stbpTimeout g (some b)) s = .next s)
      ∧ (late → HasHandler (s.group g) → ∃ t, exec (.stbpTimeout g (some b)) s = .next t ∧ Stalled g s t b false 0))
  ∧ (∀ g s b since w, (s.group g).headBlock = some b → (s.group g).laneWait = some (since, w) → Unmet s g →
      (s.group g).ident.stbcfg.getLsbD 31 = true →
      since + 2 ^ ((s.group g).ident.stbcfg.toNat / 2 ^ 26 % 32) < s.ck → HasHandler (s.group g) →
      ((s.group g).slot b.slotB).wait = .none → w / 2 ^ 88 ≠ 0x90 →
      ∃ t, exec (.stbpTimeout g none) s = .next t
        ∧ Stalled g s t b.slotB true (if w / 2 ^ 80 % 16 = 0 then b.mask else b.mask &&& (s.group g).rk (w / 2 ^ 80 % 16)))

/-- R348 to R352: a pre-empt command makes a running context PENDING, and SAVED at once where nothing of it runs; one that a
phase past its limit meets is terminated; a resume makes a PENDING or SAVED context RUNNING; any other command, and a limit
outside PENDING, changes nothing but PRECMD. -/
def Obligations.ContextsPreempted : Prop :=
  (∀ ctx s, s.preemptState ctx = 0 → s.pastLimit ctx = none →
    ((∃ c ∈ s.sched.clusters, s.preemptibleOf ctx c.ticket = true ∧ c.unplaced = false ∧ ∃ m ∈ c.teams, m.stage = .running) →
      ∃ t, exec (.preemptCommand ctx) s = .next t ∧ PreemptReads t ctx 1 ∧ t.groups = s.groups ∧ t.mem = s.mem)
    ∧ ((∀ c ∈ s.sched.clusters, s.preemptibleOf ctx c.ticket = true → ∀ m ∈ c.teams, m.stage ≠ .running) →
      (∀ e ∈ s.cores, e.2.sideLog = []) → (∀ h ∈ s.hcls, h.2.packets = []) →
      ∃ t, exec (.preemptCommand ctx) s = .next t ∧ PreemptReads t ctx 2 ∧ t.groups = s.groups ∧ t.mem = s.mem
        ∧ ∀ c ∈ t.sched.clusters, s.preemptibleOf ctx c.ticket = true →
            c.unplaced = true ∧ ∀ m ∈ c.teams, ∀ r ∈ m.records, r.spilled = true))
  ∧ (∀ ctx s tm, s.preemptState ctx = 1 → s.pastLimit ctx = some tm →
      ∃ t, exec (.phaseLimitExpiry ctx) s = .next t ∧ PreemptReads t ctx 3
        ∧ (∀ e ∈ t.groups, e.2.resident = true → e.2.ident.ctx ≠ ctx)
        ∧ ∀ l ∈ s.sched.launches, l.ctx = ctx → l.status = none →
            ∃ m ∈ t.sched.launches, m.ticket = l.ticket ∧ m.status = some 0x0116)
  ∧ (∀ ctx s, s.preemptState ctx ≠ 1 ∨ s.pastLimit ctx = none → exec (.phaseLimitExpiry ctx) s = .next s)
  ∧ (∀ ctx s, s.preemptState ctx = 1 ∨ s.preemptState ctx = 2 →
      ∃ t, exec (.resumeCommand ctx) s = .next t ∧ PreemptReads t ctx 0 ∧ t.groups = s.groups ∧ t.mem = s.mem)
  ∧ (∀ ctx s, ctx < 4096 →
      (s.preemptState ctx ≠ 0 → exec (.preemptCommand ctx) s
        = .next { s with sched := { s.sched with precmd := BitVec.ofNat 32 (ctx * 2 ^ 16 + 1) } })
      ∧ (s.preemptState ctx = 0 ∨ s.preemptState ctx = 3 → exec (.resumeCommand ctx) s
        = .next { s with sched := { s.sched with precmd := BitVec.ofNat 32 (ctx * 2 ^ 16 + 2) } }))

/-! ### Translation (R235 to R243, R344), address regions (R229 to R231), hotness (R245, R246) -/

namespace Sys2Proof.Claims

open Sys2Proof.Machine

/-- The table entry at an address. -/
def pteAt (s : State) (a : Nat) : Nat := bytesNat (s.devBytes a 8)

/-- The entry at `a` is valid and names the table at `t` of an alignment (R235). -/
def Points (s : State) (a t align : Nat) : Prop := s.mapped a = true ∧ pteAt s a = t + 1 ∧ t % 256 = 0 ∧ t % align = 0 ∧ t < 2 ^ 40

/-- The four entries of an address, down to the leaf `e` of a 64 KiB page at `a` (R235). -/
structure WalkTo (s : State) (root va a e : Nat) : Prop where
  p3 : ∃ t2 t1 t0, Points s (root + 8 * (va / 2 ^ 39 % 2 ^ 18)) t2 4096 ∧ Points s (t2 + 8 * (va / 2 ^ 30 % 512)) t1 4096
    ∧ Points s (t1 + 8 * (va / 2 ^ 21 % 512)) t0 256 ∧ a = t0 + 8 * (va / 2 ^ 16 % 32)
  leaf : s.mapped a = true ∧ pteAt s a = e ∧ e % 4 = 3 ∧ e / 32 % 2 = 0 ∧ e < 2 ^ 40 ∧ e / 256 % 256 = 0

/-- Walk `k` is one of the 64 that its die's walker has in flight (R240). -/
def WalkerHas (s : State) (k : Nat) (w : Walk) : Prop :=
  ((s.vm.walks.take k).filter (fun v => v.first.hcl / 12 == w.first.hcl / 12)).length < 64

/-- The permission bit of an access in a leaf (R236). -/
def permBit : Access → Nat
  | .load => 4
  | .store => 8
  | .fetch => 16

/-- Every access that a walk serves has met a fault: it waits for the answer to request `id`, or with id 0 ends with the
reason (R344). -/
def Met (w : Walk) (id reason : Nat) (t : State) : Prop :=
  ∀ who ∈ w.first.who :: w.others, ∃ v ∈ t.vm.waiters, v.who = who ∧ v.ctx = w.first.ctx ∧ v.page = w.va / 65536
    ∧ v.kind = w.kind ∧ v.id = id ∧ v.reason = reason

/-- One request for the page of a walk has been registered under the next id, and its accesses wait for the answer. -/
def Requested (s : State) (w : Walk) (reason : Nat) (t : State) : Prop :=
  t.vm.faults = s.vm.faults ++ [⟨s.vm.nextFault, w.first.ctx, w.va / 65536, w.kind.isStore, reason⟩]
    ∧ Met w s.vm.nextFault reason t

/-- A mapping whose BASE and LIMIT keep R230. -/
def LimitsOk (r : RegionMap) : Prop := r.base % 2 ^ 30 = 0 ∧ r.base < 2 ^ 40 ∧ r.limit % 2 ^ 30 = 0 ∧ r.base ≤ r.limit ∧ r.limit ≤ 2 ^ 40

/-- Only region `k`'s STATUS and its mapping to come have changed. -/
def CommitAnswered (s t : State) (k status : Nat) : Prop :=
  (t.region k).status = status ∧ (t.region k).active = (s.region k).active ∧ (∀ j, j ≠ k → t.region j = s.region j)
    ∧ t.mem = s.mem ∧ t.llc = s.llc

end Sys2Proof.Claims

/-- R235 to R238, R240 and R344: a walk that finds the leaf of a 64 KiB page caches its translation and sets A, and D for a
store; an entry that is not valid, or a leaf without the permission, makes one page-fault request under the next id, for which
every access of the walk waits, or joins the one that stands; an unmapped table ends the accesses with reason 6. -/
def Sys2Proof.Claims.WalksEnd : Prop :=
  (∀ s k w a e, s.vm.walks[k]? = some w → WalkerHas s k w → w.va < 2 ^ 57 → LlcCoherent s → Settled s → s.ras.poison = [] →
    WalkTo s (s.ctxEntry w.first.ctx).root w.va a e →
    (e / permBit w.kind % 2 = 1 →
      ∃ t x, exec (.tableWalkComplete k) s = .next t ∧ x ∈ t.vm.tlb ∧ x.hcl = w.first.hcl ∧ x.ctx = w.first.ctx
        ∧ x.va = w.va / 65536 * 65536 ∧ x.size = 65536 ∧ x.base = e / 65536 * 65536 ∧ x.host = false
        ∧ (x.read = true ↔ e / 4 % 2 = 1) ∧ (x.write = true ↔ e / 8 % 2 = 1) ∧ (x.exec = true ↔ e / 16 % 2 = 1)
        ∧ pteAt t a = e ||| 64 ||| (if w.kind = .store then 128 else 0) ∧ t.vm.walks = s.vm.walks.eraseIdx k
        ∧ t.vm.faults = s.vm.faults ∧ t.vm.waiters = s.vm.waiters ∧ t.groups = s.groups)
    ∧ (e / permBit w.kind % 2 = 0 → s.faultStands w.first.ctx w.va w.kind = none →
      ∃ t, exec (.tableWalkComplete k) s = .next t ∧ Requested s w 2 t ∧ t.vm.tlb = s.vm.tlb)
    ∧ (∀ f, e / permBit w.kind % 2 = 0 → s.faultStands w.first.ctx w.va w.kind = some f →
      ∃ t, exec (.tableWalkComplete k) s = .next t ∧ Met w f.id 2 t ∧ t.vm.faults = s.vm.faults ∧ t.vm.tlb = s.vm.tlb))
  ∧ (∀ s k w, s.vm.walks[k]? = some w → WalkerHas s k w → w.va < 2 ^ 57 → LlcCoherent s → Settled s → s.ras.poison = [] →
      let a := (s.ctxEntry w.first.ctx).root + 8 * (w.va / 2 ^ 39 % 2 ^ 18)
      (s.mapped a = true → pteAt s a % 2 = 0 → s.faultStands w.first.ctx w.va w.kind = none →
        ∃ t, exec (.tableWalkComplete k) s = .next t ∧ Requested s w 1 t ∧ t.vm.tlb = s.vm.tlb)
      ∧ (s.mapped a = false →
        ∃ t, exec (.tableWalkComplete k) s = .next t ∧ Met w 0 6 t ∧ t.vm.faults = s.vm.faults ∧ t.vm.tlb = s.vm.tlb))
  ∧ (∀ s k, (∀ w, s.vm.walks[k]? = some w → ¬WalkerHas s k w) → exec (.tableWalkComplete k) s = .next s)

/-- R242 and R243: the host's answer to an ATS request that grants the access is cached; the first refusal sends a Page Request,
the second ends the access with reason 5; a Page Response of success asks once more, any other ends it; an invalidation drops
the PASID's translations of the range and is answered. -/
def Sys2Proof.Claims.HostTranslations : Prop :=
  (∀ id a s r, s.vm.hostReqs.find? (fun r => r.id == id && !r.denied) = some r →
    let ok := match r.walk.kind with
      | .load => r.read && a.read
      | .store => r.write && a.write
      | .fetch => a.read
    (ok = true → ∃ t x, exec (.atsTranslationCompletion id a) s = .next t ∧ x ∈ t.vm.tlb ∧ x.host = true ∧ x.hcl = r.walk.first.hcl
        ∧ x.ctx = r.walk.first.ctx ∧ x.size = 2 ^ max 12 a.log ∧ x.va = r.walk.va / x.size * x.size
        ∧ x.base = a.base / x.size * x.size ∧ ∀ q ∈ t.vm.hostReqs, q.id ≠ id)
    ∧ (ok = false → r.second = true → ∃ t, exec (.atsTranslationCompletion id a) s = .next t ∧ Met r.walk 0 5 t
        ∧ ∀ q ∈ t.vm.hostReqs, q.id ≠ id)
    ∧ (ok = false → r.second = false → s.vm.hostReqs = [r] → r.pri = false → r.id = id →
        ∃ t, exec (.atsTranslationCompletion id a) s = .next t ∧ t.vm.hostReqs = [{ r with denied := true, pri := true }]
          ∧ Sent s t [.pri id (s.pasid r.walk.first.ctx) r.walk.va r.walk.kind.isStore]))
  ∧ (∀ id s r, s.vm.hostReqs = [r] → r.id = id → r.pri = true → r.denied = true →
      (∃ t, exec (.priResponse id true) s = .next t
        ∧ t.vm.hostReqs = [{ r with denied := false, pri := false, second := true }]
        ∧ Sent s t [.ats id (s.pasid r.walk.first.ctx) r.walk.va])
      ∧ (∃ t, exec (.priResponse id false) s = .next t ∧ t.vm.hostReqs = [] ∧ Met r.walk 0 5 t))
  ∧ (∀ pasid va n s, s.hostOutstanding pasid = false →
      ∃ t, exec (.atsInvalidationRequest pasid va n) s = .next t ∧ Sent s t [.atsInvalidated pasid va n]
        ∧ ∀ e, e ∈ t.vm.tlb ↔ e ∈ s.vm.tlb
            ∧ ¬(e.host = true ∧ s.pasid e.ctx = pasid ∧ e.va < va + n ∧ va < e.va + e.size))
  ∧ (∀ pasid va n s, s.hostOutstanding pasid = true → exec (.atsInvalidationRequest pasid va n) s = .next s)

/-- R241, R343 and R344: writing INVCMD with BUSY drops the context's translations that it names, and BUSY clears once no
access waits; a retry answer ends a page-fault request, and every access that waited for it asks again; after a refusal each of them ends
with reason 8; a write of the fault queue's head
moves it, unless it would leave more than the ring holds. -/
def Obligations.InvalidationsAndAnswers : Prop :=
  (∀ (v : Word) s,
    (s.vm.invcmd.getLsbD 31 = true → exec (.invalidateCommand v) s = .next s)
    ∧ (s.vm.invcmd.getLsbD 31 = false → v.getLsbD 31 = true → v.toNat % 4 = 1 →
        ∃ t, exec (.invalidateCommand v) s = .next t ∧ t.vm.invcmd = v &&& 0x8FFF0003
          ∧ ∀ e, e ∈ t.vm.tlb ↔ e ∈ s.vm.tlb ∧ e.ctx ≠ v.toNat / 2 ^ 16 % 2 ^ 12)
    ∧ (s.vm.invcmd.getLsbD 31 = false → v.getLsbD 31 = true → v.toNat % 4 = 0 →
        ∃ t, exec (.invalidateCommand v) s = .next t
          ∧ ∀ e, e ∈ t.vm.tlb ↔ e ∈ s.vm.tlb ∧ ¬(e.ctx = v.toNat / 2 ^ 16 % 2 ^ 12 ∧ e.va ≤ s.vm.invAddr ∧ s.vm.invAddr < e.va + e.size))
    ∧ (s.vm.invcmd.getLsbD 31 = false → v.getLsbD 31 = true → v.toNat % 4 = 2 →
        ∃ t, exec (.invalidateCommand v) s = .next t ∧ t.vm.tlb = []))
  ∧ (∀ s, (s.vm.invcmd.getLsbD 31 = false ∨ s.invOutstanding = true → exec .invalidateDone s = .next s)
      ∧ (s.vm.invcmd.getLsbD 31 = true → s.invOutstanding = false →
          ∃ t, exec .invalidateDone s = .next t ∧ t.vm.invcmd = s.vm.invcmd &&& 0x7FFFFFFF))
  ∧ (∀ id s, id ≠ 0 →
      let faults := s.vm.faults.filter (fun f => f.id != id)
      (∃ t, exec (.pageFaultRetry id) s = .next t ∧ t = { s with vm := { s.vm with faults := faults, waiters := t.vm.waiters } }
        ∧ ∀ w, w ∈ t.vm.waiters ↔ w ∈ s.vm.waiters ∧ w.id ≠ id)
      ∧ ∃ t, exec (.pageFaultRefuse id) s = .next t ∧ t = { s with vm := { s.vm with faults := faults, waiters := t.vm.waiters } }
          ∧ t.vm.waiters = s.vm.waiters.map (fun w => if w.id = id then { w with id := 0, reason := 8 } else w))
  ∧ (∀ s, exec (.pageFaultRetry 0) s = .next s ∧ exec (.pageFaultRefuse 0) s = .next s)
  ∧ (∀ (v : Word) s,
      (2 ^ s.ras.fqLog < (s.ras.fqTail - v).toNat → exec (.faultQueueHeadWrite v) s = .next s)
      ∧ ((s.ras.fqTail - v).toNat ≤ 2 ^ s.ras.fqLog → s.ras.held = [] →
          exec (.faultQueueHeadWrite v) s = .next { s with ras := { s.ras with fqHead := v } }))

/-- R231, R245 and R246: a commit answers with the first failing check, BADLIM, BADROW, SINGULAR, OVERLAP or BADSTACK, and
otherwise becomes PENDING; once no access to the old mapping is in flight the staged mapping is ACTIVE and no copy of the region stays; the end of
a hotness interval writes the glow list, clears every counter and raises vector 4. -/
def Obligations.RegionsCommit : Prop :=
  (∀ k s, k < 8 → (s.region k).status ≠ 1 →
    let r := (s.region k).staged.full
    (¬LimitsOk r → ∃ t, exec (.regionCommit k) s = .next t ∧ CommitAnswered s t k 5)
    ∧ (LimitsOk r → r.limit = r.base → ∃ t, exec (.regionCommit k) s = .next t ∧ CommitAnswered s t k 1 ∧ (t.region k).next = r)
    ∧ (LimitsOk r → r.limit ≠ r.base → (∃ w ∈ r.rows, 2 ^ 30 ≤ w.toNat) →
        ∃ t, exec (.regionCommit k) s = .next t ∧ CommitAnswered s t k 6)
    ∧ (LimitsOk r → r.limit ≠ r.base → (∀ w ∈ r.rows, w.toNat < 2 ^ 30) → (∃ w ∈ r.rows, w = 0) →
        ∃ t, exec (.regionCommit k) s = .next t ∧ CommitAnswered s t k 2)
    ∧ (LimitsOk r → r.limit ≠ r.base → (∀ w ∈ r.rows, w.toNat < 2 ^ 30) → r.singular = false →
        (¬r.names.Nodup ∨ (∃ q ∈ s.otherMaps k, r.overlaps q = true) →
          ∃ t, exec (.regionCommit k) s = .next t ∧ CommitAnswered s t k 3)
        ∧ (r.names.Nodup → (∀ q ∈ s.otherMaps k, r.overlaps q = false) →
          ((∃ b ∈ r.names, 12 ≤ b.toNat / 16 ∨ b.toNat % 16 = 15) →
            ∃ t, exec (.regionCommit k) s = .next t ∧ CommitAnswered s t k 4)
          ∧ ((∀ b ∈ r.names, b.toNat / 16 < 12 ∧ b.toNat % 16 ≠ 15) →
            ∃ t, exec (.regionCommit k) s = .next t ∧ CommitAnswered s t k 1 ∧ (t.region k).next = r))))
  ∧ (∀ k s, 8 ≤ k ∨ (s.region k).status = 1 → exec (.regionCommit k) s = .next s)
  ∧ (∀ k s, (s.region k).status = 1 → s.inFlightWithin (s.region k).active = false →
      ∃ t, exec (.regionCommitDone k) s = .next t ∧ (t.region k).active = (s.region k).next ∧ (t.region k).status = 0
        ∧ (∀ j, j ≠ k → t.region j = s.region j)
        ∧ (∀ e ∈ t.llc.sectors, ¬((s.region k).active.base ≤ e.1 * 1024 ∧ e.1 * 1024 < (s.region k).active.limit))
        ∧ ∀ e ∈ t.cores, ∀ x ∈ e.2.l1, ¬((s.region k).active.base ≤ x.line * 128 ∧ x.line * 128 < (s.region k).active.limit))
  ∧ (∀ k s, (s.region k).status ≠ 1 ∨ s.inFlightWithin (s.region k).active = true → exec (.regionCommitDone k) s = .next s)
  ∧ (∀ s, s.hot.hotcfg.getLsbD 31 = false ∨ s.ck < s.hot.since + 2000 * (s.hot.hotcfg.toNat % 65536) →
      exec .hotIntervalEnd s = .next s)
  ∧ (∀ s, s.hot.hotcfg.getLsbD 31 = true → s.hot.since + 2000 * (s.hot.hotcfg.toNat % 65536) ≤ s.ck → s.hot.tables = [] →
      let a := s.hot.glowBaseH.toNat * 2 ^ 32 + s.hot.glowBase.toNat / 4096 * 4096 + 4096 * (s.hot.interval % 2)
      (∀ i, i < 64 → s.mapped (a + i) = true) → LlcCoherent s →
      ∃ t, exec .hotIntervalEnd s = .next t ∧ t.hot.counters = [] ∧ t.hot.tables = [] ∧ t.hot.interval = s.hot.interval + 1
        ∧ t.hot.since = s.ck
        ∧ Sent s t [.msix 4] ∧ t.devBytes a 64 = natBytes 8 (s.hot.interval + 1) ++ natBytes 8 (s.ck - s.boot.coldAt)
            ++ natBytes 48 0)

/-! ### Ports of the fabric (R380 to R383, R386, R447) -/

namespace Sys2Proof.Claims

open Sys2Proof.Machine

/-- The port carries flits: UP or HALF. -/
abbrev Carries (s : State) (port : Nat) : Prop := (s.port port).state = 2 ∨ (s.port port).state = 3

/-- The flits of a replay buffer that come after a sequence number. -/
def flitsAfter (last : Word) (fs : List Flit) : List Flit := fs.filter (fun f => !decide ((last - f.seq).toNat < 2 ^ 31))

/-- The lanes of one half. -/
abbrev HalfGood (lfail : BitVec 16) (upper : Bool) : Prop := ∀ l, l < 8 → lfail.getLsbD (if upper then 8 + l else l) = false

/-- Flits have gone onto a port's lanes, in order; what waited at the port may follow them. -/
def Wired (s t : State) (port : Nat) (fs : List Flit) : Prop :=
  s.fabric.wire ++ fs.map (fun f => (port, f)) <+: t.fabric.wire

/-- A port's state after an event. -/
def PortIs (r : Host.Outcome State Fault Refusal) (port state : Nat) (half : Bool) : Prop :=
  ∃ t, r = .next t ∧ (t.port port).state = state ∧ (t.port port).half = half

end Sys2Proof.Claims

/-- R380, R381 and R383: a good flit that is next in order is accepted and its ACK taken; any other is dropped and answered by a
control flit that names the last one accepted; a replay sends the flits after the last acknowledged one again, in order, and
the eighth without progress takes the port DOWN. -/
def Sys2Proof.Claims.FlitsTravel : Prop :=
  (∀ port (f : Flit) ok s, Carries s port →
    (ok = true ∧ flitGood f = true ∧ f.seq = (s.port port).lastAccepted + 1 →
      ∃ t, exec (.flitReceive port f ok) s = .next t ∧ (t.port port).lastAccepted = f.seq ∧ Sent s t [] ∧ t.mem = s.mem
        ∧ t.fabric.accepted = s.fabric.accepted ++ [(port, f)]
        ∧ ((s.port port).advances f.ack = true → (t.port port).lastAcked = f.ack ∧ (t.port port).noProgress = 0
            ∧ flitsAfter f.ack (s.port port).replay <+: (t.port port).replay)
        ∧ ((s.port port).advances f.ack = false → (s.port port).replay <+: (t.port port).replay))
    ∧ (¬(ok = true ∧ flitGood f = true ∧ f.seq = (s.port port).lastAccepted + 1) →
      ∃ t, exec (.flitReceive port f ok) s = .next t ∧ (t.port port).lastAccepted = (s.port port).lastAccepted ∧ t.mem = s.mem
        ∧ t.fabric.accepted = s.fabric.accepted ∧ Sent s t [.control port (s.port port).lastAccepted]))
  ∧ (∀ port (last : Word) s, Carries s port →
      ((s.port port).advances last = true →
        ∃ t, exec (.replayRequest port last) s = .next t ∧ (t.port port).noProgress = 1 ∧ (t.port port).lastAcked = last
          ∧ Wired s t port (flitsAfter last (s.port port).replay))
      ∧ ((s.port port).advances last = false → (s.port port).noProgress < 7 →
        ∃ t, exec (.replayRequest port last) s = .next t ∧ (t.port port).noProgress = (s.port port).noProgress + 1
          ∧ Wired s t port (s.port port).replay))
  ∧ (∀ port s, Carries s port → (s.port port).replay ≠ [] → (s.port port).ackAt + 8000 ≤ s.ck →
      ((s.port port).noProgress < 7 →
        ∃ t, exec (.linkAckTimeout port) s = .next t ∧ (t.port port).noProgress = (s.port port).noProgress + 1
          ∧ (t.port port).state = (s.port port).state ∧ Wired s t port (s.port port).replay)
      ∧ (7 ≤ (s.port port).noProgress → PortIs (exec (.linkAckTimeout port) s) port 0 false))
  ∧ (∀ port (f : Flit) ok (last : Word) s, (s.port port).state ≠ 2 → (s.port port).state ≠ 3 →
      exec (.flitReceive port f ok) s = .next s ∧ exec (.replayRequest port last) s = .next s
        ∧ exec (.linkAckTimeout port) s = .next s)
  ∧ (∀ port s, (s.port port).replay = [] ∨ s.ck < (s.port port).ackAt + 8000 → exec (.linkAckTimeout port) s = .next s)

/-- R382 and R383: enabling a DOWN port trains it; training of all lanes brings it UP, of one whole half to HALF, and the third
failure takes it DOWN; a lane that fails leaves an UP port with the half without failed lanes, or DOWN; HALF trains again on
command. -/
def Sys2Proof.Claims.PortsTrain : Prop :=
  (∀ port s, port < 16 →
    ((s.port port).state = 0 → ∃ t, exec (.portEnable port) s = .next t ∧ (t.port port).state = 1 ∧ (t.port port).en = true
        ∧ (t.port port).lfail = 0 ∧ (t.port port).lastAcked = 0xFFFFFFFF ∧ (t.port port).lastAccepted = 0xFFFFFFFF)
    ∧ ((s.port port).state ≠ 0 → exec (.portEnable port) s = .next (s.setPort port { s.port port with en := true })))
  ∧ (∀ port s,
      ((s.port port).state = 3 → PortIs (exec (.portRetrain port) s) port 1 false)
      ∧ ((s.port port).state ≠ 3 → exec (.portRetrain port) s = .next s))
  ∧ (∀ port (pass : BitVec 16) s,
      ((s.port port).state ≠ 1 → exec (.portTrainingDone port pass) s = .next s)
      ∧ ((s.port port).state = 1 → pass = 0xFFFF → PortIs (exec (.portTrainingDone port pass) s) port 2 false)
      ∧ ((s.port port).state = 1 → pass ≠ 0xFFFF → HalfGood (~~~pass) true →
          PortIs (exec (.portTrainingDone port pass) s) port 3 true)
      ∧ ((s.port port).state = 1 → ¬HalfGood (~~~pass) true → HalfGood (~~~pass) false →
          PortIs (exec (.portTrainingDone port pass) s) port 3 false)
      ∧ ((s.port port).state = 1 → ¬HalfGood (~~~pass) true → ¬HalfGood (~~~pass) false →
          ((s.port port).attempts < 2 → ∃ t, exec (.portTrainingDone port pass) s = .next t ∧ (t.port port).state = 1
              ∧ (t.port port).attempts = (s.port port).attempts + 1)
          ∧ (2 ≤ (s.port port).attempts → PortIs (exec (.portTrainingDone port pass) s) port 0 false)))
  ∧ (∀ port lane s, port < 16 → lane < 16 → (s.port port).state = 2 →
      let bad := (s.port port).lfail ||| BitVec.ofNat 16 (2 ^ lane)
      (HalfGood bad true → PortIs (exec (.portLaneFail port lane) s) port 3 true)
      ∧ (¬HalfGood bad true → HalfGood bad false → PortIs (exec (.portLaneFail port lane) s) port 3 false)
      ∧ (¬HalfGood bad true → ¬HalfGood bad false → PortIs (exec (.portLaneFail port lane) s) port 0 false))

/-! ### Pulls and line requests (R427 to R429, R450) -/

namespace Sys2Proof.Claims

open Sys2Proof.Machine

/-- The first pull of the engine runs and waits for no reply. -/
abbrev PullHas (s : State) (p : Pull) (rest : List Pull) (todo : List (LineName × Nat)) : Prop :=
  s.dir.pulls = p :: rest ∧ p.running = true ∧ p.todo = todo

/-- The line's bytes carry its name, under the region's salt (R268). -/
abbrev BytesNamed (s : State) (p : Pull) (name : LineName) (bs : List Byte) : Prop :=
  bs.length = 256 ∧ digestPart (nameOf (s.lineRegion p.region).salt bs 0) = digestPart name

end Sys2Proof.Claims

/-- R427 to R429 and R450: a doorbell queues a pull; a command that breaks a rule ends with BADCMD in its status word; a leaf
whose bytes carry its name is kept to be entered; a line that no source gives ends the pull; a fetched line that is new takes
a free place with one reference, an equal one gains a reference; a null root cell at last receives the root. A member answers
a line request from a region that serves. -/
def Obligations.PullsRun : Prop :=
  (∀ a s,
    (s.dir.pulls.length < 16 → a % 64 = 0 → ∃ t p, exec (.joinDoorbell a) s = .next t ∧ t.dir.pulls = s.dir.pulls ++ [p]
        ∧ p.addr = a ∧ p.running = false ∧ p.todo = [] ∧ p.got = [] ∧ p.made = [] ∧ t.mem = s.mem)
    ∧ (16 ≤ s.dir.pulls.length ∨ a % 64 ≠ 0 → exec (.joinDoorbell a) s = .next s))
  ∧ (∀ s p rest, s.dir.pulls = p :: rest → p.running = false → (∀ i, i < 64 → s.mapped (p.addr + i) = true) →
      s.ras.poison = [] → LlcCoherent s → Settled s →
      let cmd := s.devBytes p.addr 64
      let st := fieldAt cmd 56 8
      fieldAt cmd 19 1 ≠ 0 ∨ fieldAt cmd 0 16 = 0 ∨ 7 < fieldAt cmd 17 1 ∨ fieldAt cmd 18 1 = 0 ∨ 8 < fieldAt cmd 18 1 →
      st ≠ 0 → st % 8 = 0 → s.mapped st = true →
      ∃ t, exec .pullStart s = .next t ∧ t.dir.pulls = rest ∧ t.devBytes st 8 = natBytes 8 1)
  ∧ (∀ s p rest name bs, PullHas s p rest [(name, 0)] → BytesNamed s p name bs →
      ∃ t q, exec (.pullLineReply (.line false bs)) s = .next t ∧ t.dir.pulls = q :: rest ∧ q.todo = []
        ∧ q.got = (name, false, bs) :: p.got ∧ q.made = p.made ∧ Sent s t [])
  ∧ (∀ s p rest name level more, PullHas s p rest ((name, level) :: more) → p.tries + 1 = p.sources →
      ∃ t, exec (.pullLineReply .noName) s = .next t ∧ t.dir.pulls = rest ∧ Sent s t [])
  ∧ (∀ s p rest name bs more e, PullHas s p rest [] → p.got = (name, false, bs) :: more → s.reclaimed.dir.entry name = some e →
      e.region = p.region → e.node = false → e.pending = none → e.count + 1 < 0xFFFFFFFF → s.reclaimed.holdsLine e bs = true →
      ∃ t q, exec .pullStart s = .next t ∧ t.dir.pulls = q :: rest ∧ q.got = more ∧ q.made = name :: p.made
        ∧ (t.dir.entry name).map (·.count) = some (e.count + 1) ∧ t.mem = s.reclaimed.mem)
  ∧ (∀ s p rest name bs more slot, PullHas s p rest [] → p.got = (name, false, bs) :: more →
      let u := s.reclaimed
      u.dir.entry name = none → bs.length = 256 → u.dir.freeSlot = some slot → (u.lineRegion p.region).quota = 0 →
      LlcCoherent u → Settled s → (u.dir.entries.filter (fun e => u.dir.bucket e.name == u.dir.bucket name)).length < 8 →
      ∃ t q e, exec .pullStart s = .next t ∧ t.dir.pulls = q :: rest ∧ q.got = more ∧ t.dir.entry name = some e ∧ e.count = 1
        ∧ e.slot = slot ∧ e.region = p.region ∧ e.pending = none ∧ t.devBytes (u.dir.slotAddr slot) 256 = bs)
  ∧ (∀ s p rest pa, PullHas s p rest [] → p.got = [] → p.statA = 0 → s.ras.poison = [] → LlcCoherent s →
      s.engineXlat (s.engineAsker (.pull p.addr) 0 (s.lineRegion p.region).ctx none)
        ((s.lineRegion p.region).rootVa + p.cell) .store = (s, .at_ (.dev pa)) →
      bytesNat (s.devBytes pa 16) = 0 →
      ∃ t, exec .pullStart s = .next t ∧ t.dir.pulls = rest ∧ t.devBytes pa 16 = natBytes 16 p.root.toNat)
  ∧ (∀ src name k s, s.member.state = 2 → s.member.inDomain (podOf src) = true → Leaves s src 0 → s.ras.poison = [] →
      (∀ e, (s.lineRegion k).serves = true → s.dir.knownIn k name = some e →
        ∃ t, exec (.lineRequest src name k) s = .next t ∧ Sent s t [.lineReply src (.line e.node (s.lineBytes e.slot))])
      ∧ ((s.lineRegion k).serves = false ∨ s.dir.knownIn k name = none →
        ∃ t, exec (.lineRequest src name k) s = .next t ∧ Sent s t [.lineReply src .noName]))

/-! ### Membership (R412 to R419, R424 to R426), securing (R431, R443) -/

namespace Sys2Proof.Claims

open Sys2Proof.Machine

/-- The membership engine is on, and the device a member. -/
abbrev IsMember (s : State) : Prop := s.member.flags % 2 = 1 ∧ s.member.state = 2

/-- The acting arbiter (R416, R417). -/
abbrev arbiterOf (s : State) : Word := if s.member.arbGone then s.member.stby else s.member.arb

/-- This device judges reports that name a device: it is the arbiter, or the standby where the arbiter is named (R417). -/
abbrev Judges (s : State) (named : Word) : Prop :=
  IsMember s ∧ (if named = s.member.arb then s.member.stby else arbiterOf s) = s.member.devId

/-- How a neighbour's monitor goes on at the end of a window without a report (R415). -/
def monitorRule (x : MonitorState) : Option Monitor :=
  match x.state, x.heard with
  | .live, true => some .live
  | .live, false => some .miss1
  | .miss1, true => some .live
  | .miss1, false => some .miss2
  | .miss2, true => some .live
  | _, _ => none

/-- The monitor of a direction afterwards, its window empty. -/
def Judged (t : State) (dir : Nat) (m : Monitor) : Prop := (t.monitor dir).state = m ∧ (t.monitor dir).heard = false

/-- An expulsion is applied: the generation, recorded with its IEEE 1588 time, the vacant position, no report on it, vector 5. -/
def Expelled (s t : State) (gen : BitVec 64) (dev : Word) : Prop :=
  t.member.gen = gen ∧ t.member.applied = s.member.applied ++ [(gen, s.ptpNow.1, s.ptpNow.2)] ∧ dev ∈ t.member.vacant ∧ t.member.lastDev = dev ∧ (∀ r ∈ t.member.reports, r.2 ≠ dev)
    ∧ .msix 5 ∈ t.fabric.sent

end Sys2Proof.Claims

/-- R414, R415: once in 20 µs a member sends a beacon on each torus port that is up; a beacon of a neighbour is heard, and one of a
higher generation makes the device ask the arbiter; at the end of a window of 20 µs an idle monitor whose links have come up
goes LIVE, a live one that heard nothing goes to MISS1, MISS2 and SUSPECT, which reports the neighbour and repeats the report
every 5 windows, and any beacon makes it LIVE. -/
def Sys2Proof.Claims.NeighboursWatched : Prop :=
  (∀ s, IsMember s → s.member.beaconAt < s.ck / 40000 → ∃ t, exec .beaconSend s = .next t
    ∧ Sent s t (((List.range 12).filter (fun p => (s.port p).isUp)).map
        (fun p => .beacon p s.member.devId s.member.gen s.member.state)))
  ∧ (∀ s, ¬IsMember s ∨ s.ck / 40000 ≤ s.member.beaconAt → exec .beaconSend s = .next s)
  ∧ (∀ dir s, s.ck / 40000 ≤ (s.monitor dir).window → exec (.monitorWindowEnd dir) s = .next s)
  ∧ (∀ dir src gen s, s.member.flags % 2 = 1 → dir < 6 → (s.port (2 * dir)).isUp = true → neighbour s.member.devId dir = src →
      (gen.toNat ≤ s.member.gen.toNat → ∃ t, exec (.beaconReceive dir src gen) s = .next t ∧ (t.monitor dir).heard = true
        ∧ (t.monitor dir).state = (s.monitor dir).state ∧ Sent s t [])
      ∧ (s.member.gen.toNat < gen.toNat → Leaves s (arbiterOf s) 0 →
        ∃ t, exec (.beaconReceive dir src gen) s = .next t ∧ (t.monitor dir).heard = true
          ∧ Sent s t [.latestRequest (arbiterOf s)]))
  ∧ (∀ dir s, s.member.flags % 2 = 1 → isSpare s.member.devId = false → dir < 6 → (s.monitor dir).window < s.ck / 40000 →
      (∀ m, monitorRule (s.monitor dir) = some m → ∃ t, exec (.monitorWindowEnd dir) s = .next t ∧ Judged t dir m ∧ Sent s t [])
      ∧ ((s.monitor dir).state = .miss2 → (s.monitor dir).heard = false →
          let n := neighbour s.member.devId dir
          let a := if n = s.member.arb then s.member.stby else arbiterOf s
          a ≠ s.member.devId → Leaves s a 0 →
          ∃ t, exec (.monitorWindowEnd dir) s = .next t ∧ Judged t dir .suspect ∧ Sent s t [.suspicion a n])
      ∧ ((s.monitor dir).state = .suspect → (s.monitor dir).heard = true →
          let n := neighbour s.member.devId dir
          let a := if n = s.member.arb then s.member.stby else arbiterOf s
          a ≠ s.member.devId → Leaves s a 0 →
          ∃ t, exec (.monitorWindowEnd dir) s = .next t ∧ Judged t dir .live ∧ Sent s t [.withdrawal a n])
      ∧ ((s.monitor dir).state = .suspect → (s.monitor dir).heard = false →
          let n := neighbour s.member.devId dir
          let a := if n = s.member.arb then s.member.stby else arbiterOf s
          ((s.monitor dir).since < 4 → ∃ t, exec (.monitorWindowEnd dir) s = .next t ∧ Judged t dir .suspect ∧ Sent s t []
            ∧ (t.monitor dir).since = (s.monitor dir).since + 1)
          ∧ (4 ≤ (s.monitor dir).since → a ≠ s.member.devId → Leaves s a 0 →
            ∃ t, exec (.monitorWindowEnd dir) s = .next t ∧ Judged t dir .suspect ∧ Sent s t [.suspicion a n]
              ∧ (t.monitor dir).since = 0))
      ∧ ((s.monitor dir).state = .idle → ∃ t, exec (.monitorWindowEnd dir) s = .next t ∧ Sent s t []
          ∧ Judged t dir (if (s.port (2 * dir)).everUp = true ∨ (s.port (2 * dir + 1)).everUp = true then .live else .idle))
      ∧ ((s.monitor dir).state = .vacant → ∃ t, exec (.monitorWindowEnd dir) s = .next t ∧ Judged t dir .vacant ∧ Sent s t []))

/-- R417 to R419 and R425: the arbiter keeps a neighbour's report and drops it on withdrawal; a second neighbour's report expels
the device under the next generation; an update of a higher generation is applied, the communicators whose table names the
device go stale, and the device itself stops being a member; one of no higher generation does nothing; the arbiter answers
who asks for the latest update. -/
def Sys2Proof.Claims.MembersExpelled : Prop :=
  (∀ r named s, Judges s named → s.member.isMember named = true → (∃ d, d < 6 ∧ neighbour named d = r) →
    ((∀ e ∈ s.member.reports, e.2 ≠ named) →
      exec (.suspicionReport r named) s
        = .next { s with member := { s.member with reports := s.member.reports ++ [(r, named)] } })
    ∧ (∀ q, q ≠ r → (q, named) ∈ s.member.reports →
      ∃ t, exec (.suspicionReport r named) s = .next t ∧ Expelled s t (s.member.gen + 1) named
        ∧ .update none (s.member.gen + 1) named ∈ t.fabric.sent))
  ∧ (∀ r named s, ¬Judges s named → exec (.suspicionReport r named) s = .next s ∧ exec (.suspicionWithdrawal r named) s = .next s)
  ∧ (∀ r named s, Judges s named → exec (.suspicionWithdrawal r named) s
      = .next { s with member := { s.member with reports := s.member.reports.filter (fun e => e != (r, named)) } })
  ∧ (∀ gen dev s, s.member.flags % 2 = 1 →
      (gen.toNat ≤ s.member.gen.toNat → exec (.membershipUpdate gen dev) s = .next s)
      ∧ (s.member.gen.toNat < gen.toNat →
          ∃ t, exec (.membershipUpdate gen dev) s = .next t ∧ Expelled s t gen dev
            ∧ (∀ c tb, (s.comm c).active = some tb → dev ∈ s.tableIds tb → (t.comm c).stale = true)
            ∧ t.member.state = (if dev = s.member.devId then 3 else s.member.state)))
  ∧ (∀ dev s, IsMember s → arbiterOf s = s.member.devId → Leaves s dev 0 →
      ∃ t, exec (.latestUpdateRequest dev) s = .next t ∧ Sent s t [.update (some dev) s.member.gen s.member.lastDev])
  ∧ (∀ dev s, arbiterOf s ≠ s.member.devId → exec (.latestUpdateRequest dev) s = .next s)

/-- R424 to R426: GO makes a pilot take the id of its position and train its torus ports; the arbiter admits a device at a vacant
position, and its neighbours learn of it; admitted, the pilot is a member at the arbiter's generation; refused, or after 1 s
without a port, it is a pilot under its own id. R431: once in a microsecond a group evaluates the triggers that SECPOL selects, by
the risk estimate and by the rate interval, and one that fires sets DUE; the risk estimate is taken over. -/
def Obligations.PilotsAdopted : Prop :=
  (∀ (v : Word) s,
    (v.getLsbD 31 = true → s.member.state = 0 → v.toNat % 2 ^ 13 < 4096 →
      ∃ t, exec (.adoptGo v) s = .next t ∧ t.member.state = 1 ∧ t.member.homeId = s.member.devId
        ∧ t.member.devId = BitVec.ofNat 32 (v.toNat / 2 ^ 16 % 2 ^ 9 * 2 ^ 16 + v.toNat % 2 ^ 13) ∧ t.member.adoptAt = s.ck
        ∧ ∀ p, p < 12 → (t.port p).en = true ∧ (t.port p).state ≠ 0)
    ∧ (v.getLsbD 31 = false ∨ s.member.state ≠ 0 ∨ 4096 ≤ v.toNat % 2 ^ 13 →
      exec (.adoptGo v) s = .next { s with member := { s.member with adopt := v &&& 0x01FF1FFF } }))
  ∧ (∀ dev s, IsMember s → arbiterOf s = s.member.devId → Leaves s dev 0 →
      (dev ∈ s.member.vacant → ∃ t, exec (.joinRequest dev) s = .next t ∧ dev ∉ t.member.vacant
        ∧ .joinAnswer dev true s.member.gen ∈ t.fabric.sent)
      ∧ (dev ∉ s.member.vacant → ∃ t, exec (.joinRequest dev) s = .next t ∧ t.member = s.member
        ∧ Sent s t [.joinAnswer dev false s.member.gen]))
  ∧ (∀ gen s, s.member.state = 1 →
      (∃ t, exec (.joinAnswer true gen) s = .next t ∧ t.member.state = 2 ∧ t.member.devId = s.member.devId
        ∧ t.member.gen = (if s.member.flags % 2 = 1 ∧ s.member.gen.toNat < gen.toNat then gen else s.member.gen))
      ∧ ∃ t, exec (.joinAnswer false gen) s = .next t ∧ t.member.state = 0 ∧ t.member.refused = true
        ∧ t.member.devId = s.member.homeId)
  ∧ (∀ ok gen s, s.member.state ≠ 1 → exec (.joinAnswer ok gen) s = .next s ∧ exec .adoptTimeout s = .next s)
  ∧ (∀ s, s.member.state = 1 → s.member.adoptAt + 2000000000 ≤ s.ck → (∀ p, p < 12 → (s.port p).everUp = false) →
      ∃ t, exec .adoptTimeout s = .next t ∧ t.member.state = 0 ∧ t.member.refused = true ∧ t.member.devId = s.member.homeId)
  ∧ (∀ dev s, s.member.flags % 2 = 1 → (∃ d, d < 6 ∧ neighbour s.member.devId d = dev) →
      ∃ t, exec (.admissionNotice dev) s = .next t ∧ t.member.vacant = s.member.vacant.filter (fun d => d != dev))
  ∧ (∀ g s, (s.group g).resident = true → (s.group g).secAt < s.ck / 2000 → (s.group g).csr.secpol.getLsbD 2 = false →
      ((s.group g).csr.secpol.toNat % 2 = 1 ∧ (s.group g).csr.secpol.toNat / 2 ^ 16 ≤ s.member.risk.toNat
        ∨ (s.group g).csr.secpol.toNat / 2 % 2 = 1 ∧ (s.group g).rateFrom + s.member.interval * 2000 ≤ s.ck) →
      ∃ t, exec (.secpolEval g) s = .next t ∧ (t.group g).csr.secpol = (s.group g).csr.secpol ||| 4
        ∧ (t.group g).dueSince = some s.ck ∧ OnlyGroup g s t)
  ∧ (∀ g s, (s.group g).resident = true → (s.group g).secAt < s.ck / 2000 →
      ((s.group g).csr.secpol.toNat % 2 = 1 → s.member.risk.toNat < (s.group g).csr.secpol.toNat / 2 ^ 16) →
      ((s.group g).csr.secpol.toNat / 2 % 2 = 1 → s.ck < (s.group g).rateFrom + s.member.interval * 2000) →
      ∃ t, exec (.secpolEval g) s = .next t ∧ (t.group g).csr = (s.group g).csr ∧ OnlyGroup g s t)
  ∧ (∀ (r : BitVec 16) s, exec (.riskUpdate r) s = .next { s with member := { s.member with risk := r } })

/-! ### Errors and retirement (R361 to R368) -/

namespace Sys2Proof.Claims

open Sys2Proof.Machine

/-- One more record has been appended: written to the ring, or held back (R343). -/
def Recorded (s t : State) : Prop := t.ras.nextSeq + t.ras.held.length = s.ras.nextSeq + s.ras.held.length + 1

/-- The records that the fault queue holds back are 56 bytes each: 64 with their number (R343). -/
def RecordsWhole (s : State) : Prop := ∀ r ∈ s.ras.held, r.length = 56

/-- A context is over (R342): none of its groups is resident, every launch of it has a status, its state is TERMINATED. -/
def ContextOver (t : State) (ctx : Nat) : Prop :=
  (∀ e ∈ t.groups, e.2.resident = true → e.2.ident.ctx ≠ ctx) ∧ (∀ l ∈ t.sched.launches, l.ctx = ctx → l.status ≠ none)
    ∧ Sparse.get 0 t.sched.preempt ctx = 3

end Sys2Proof.Claims

/-- R361, R362, R364 and R366: a corrected error is counted for its unit and recorded; an uncorrectable error of memory
poisons its sector and retires the page, unless the retry read correctly; one in a clean sector of the LLC drops the copy, in a
dirty one it poisons the sector and ends its owner; one in the pool, the accumulator store or the load value queue ends the
context that uses it, unless the retry read correctly. Clearing an entry of the
retire table while no context runs zeroes the page. -/
def Obligations.ErrorsHandled : Prop :=
  (∀ (e : ErrSite) s, e.unit ∈ [1, 2, 3, 4, 5, 6, 7, 8, 10, 12] →
    ∃ t, exec (.correctedError e) s = .next t ∧ Recorded s t ∧ t.groups = s.groups
      ∧ Sparse.get 0 t.ras.corrected e.unit = min 0xFFFFFFFF (Sparse.get 0 s.ras.corrected e.unit + 1)
      ∧ (∀ u, u ≠ e.unit → Sparse.get 0 t.ras.corrected u = Sparse.get 0 s.ras.corrected u))
  ∧ (∀ (e : HbmError) s, (s.place e.pa).isSome = true → 1 ≤ e.unit → e.unit ≤ 3 → RecordsWhole s →
      let ok := if e.unit = 3 then e.failed < 4 else e.failed = 0
      (ok → ∃ t, exec (.hbmUncorrectable e) s = .next t ∧ Recorded s t ∧ t.ras.retire = s.ras.retire
          ∧ t.ras.poison = s.ras.poison)
      ∧ (¬ok → (∃ j, j < 1024 ∧ (Sparse.get 0 s.ras.retire j).getLsbD 31 = false) → e.pa < 2 ^ 40 →
          ∃ t, exec (.hbmUncorrectable e) s = .next t ∧ Recorded s t ∧ e.pa / 1024 ∈ t.ras.poison ∧ t.retired e.pa = true))
  ∧ (∀ (e : LlcError) s x, s.sector? (e.pa / 1024) = some x → RecordsWhole s →
      (e.retryOk = true → ∃ t, exec (.llcUncorrectable e) s = .next t ∧ Recorded s t ∧ t.ras.poison = s.ras.poison
          ∧ t.groups = s.groups)
      ∧ (e.retryOk = false → e.tag = false → x.dirty = 0 → s.ras.fqOk = false →
          ∃ t, exec (.llcUncorrectable e) s = .next t ∧ Recorded s t ∧ t.sector? (e.pa / 1024) = none ∧ t.mem = s.mem
            ∧ t.groups = s.groups ∧ t.ras.poison = s.ras.poison)
      ∧ (e.retryOk = false → e.tag = false → x.dirty ≠ 0 → x.owner ≠ 0 →
          ∃ t, exec (.llcUncorrectable e) s = .next t ∧ ContextOver t x.owner ∧ e.pa / 1024 ∈ t.ras.poison))
  ∧ (∀ (e : PoolError) s, e.unit ∈ [6, 7, 8, 10] → coreOf e.g = e.core →
      (e.retryOk = true → ∃ t, exec (.poolUncorrectable e) s = .next t ∧ Recorded s t ∧ t.groups = s.groups)
      ∧ (e.retryOk = false → e.unit ≠ 8 → e.record = none → (s.group e.g).resident = true →
        ∃ t, exec (.poolUncorrectable e) s = .next t ∧ ContextOver t (s.group e.g).ident.ctx)
      ∧ (∀ g, e.retryOk = false → e.unit = 8 → (s.core e.core).flame = some g → (s.group g).resident = true →
        ∃ t, exec (.poolUncorrectable e) s = .next t ∧ ContextOver t (s.group g).ident.ctx)
      ∧ (s.wordUser e = none →
        ∃ t, exec (.poolUncorrectable e) s = .next t ∧ Recorded s t ∧ t.groups = s.groups))
  ∧ (∀ j s, (∀ l ∈ s.sched.launches, l.status ≠ none) → (Sparse.get 0 s.ras.retire j).getLsbD 31 = true →
      let page := (Sparse.get 0 s.ras.retire j).toNat % 2 ^ 24
      ∃ t, exec (.retentClear j) s = .next t ∧ (∀ a, a / 65536 = page → t.devByte a = 0)
        ∧ (∀ a, a / 65536 ≠ page → t.devByte a = s.devByte a) ∧ (∀ n ∈ t.ras.poison, n / 64 ≠ page)
        ∧ (Sparse.get 0 t.ras.retire j).getLsbD 31 = false)
  ∧ (∀ j s, (∃ l ∈ s.sched.launches, l.status = none) → exec (.retentClear j) s = .next s)

/-! ### Starts (R440 to R444), the host's accesses (R251, R436, R438) -/

namespace Sys2Proof.Claims

open Sys2Proof.Machine

/-- A cold start has begun (R441): the part waits for its image; nothing runs and nothing is configured; the time base, the
generation and the retire table stay. -/
structure ColdStarted (s t : State) (pilot : Bool) : Prop where
  wait : t.boot.stage = 1 ∧ t.boot.pilot = pilot ∧ t.boot.coldAt = s.ck ∧ t.boot.clock = 2000
  empty : t.groups = [] ∧ t.cores = [] ∧ t.hcls = [] ∧ t.dies = [] ∧ t.llc.sectors = [] ∧ t.fabric.ports = []
  blank : t.sched.launches = [] ∧ t.sched.clusters = [] ∧ t.vm.tlb = [] ∧ t.vm.regions = [] ∧ t.host.contexts = []
  member : t.member.state = (if pilot then 0 else 2) ∧ t.member.devId = s.member.homeId
  kept : t.ck = s.ck ∧ t.member.gen = s.member.gen ∧ t.ras.retire = s.ras.retire ∧ t.inv.jnext = s.inv.jnext

end Sys2Proof.Claims

/-- R440 and R441: power-on, PERST and a cold start wait for the image; START.LOAD goes on to training with a good image and
fails with the code of the first failing check; training, self-test and zeroing lead to READY, where memory is zero and the
generation 1; a warm start, once no context runs, writes the LLC back and keeps memory. -/
def Obligations.StartsRun : Prop :=
  (∀ s, (∃ t, exec .powerOn s = .next t ∧ ColdStarted s t false) ∧ (∃ t, exec .perst s = .next t ∧ ColdStarted s t s.boot.pilot)
    ∧ ∃ t, exec .startCold s = .next t ∧ ColdStarted s t s.boot.pilot)
  ∧ (∀ s, s.boot.stage = 1 →
      (s.imageField 0 4 ≠ 0x57465653 →
        ∃ t, exec .startLoad s = .next t ∧ t.boot.stage = 7 ∧ t.boot.code = 1 ∧ t.mem = s.mem)
      ∧ (s.imageField 0 4 = 0x57465653 → s.imageField 12 4 % 256 ≠ 0 →
        ∃ t, exec .startLoad s = .next t ∧ t.boot.stage = 7 ∧ t.boot.code = 2 ∧ t.mem = s.mem)
      ∧ (s.imageCode = none → exec .startLoad s = .next { s with boot := { s.boot with
          stage := 3, svn := s.imageField 8 4, imageHash := sha512 s.imageMessage } }))
  ∧ (∀ s, s.boot.stage ≠ 1 → exec .startLoad s = .next s)
  ∧ (∀ s, (s.boot.stage = 3 → exec .bootTrainDone s = .next { s with boot := { s.boot with stage := 4 } })
      ∧ (s.boot.stage ≠ 3 → exec .bootTrainDone s = .next s)
      ∧ (s.boot.stage = 4 → exec .bootBistDone s = .next { s with boot := { s.boot with stage := 5 } })
      ∧ (s.boot.stage ≠ 4 → exec .bootBistDone s = .next s)
      ∧ (s.boot.stage ≠ 5 → exec .bootZeroDone s = .next s))
  ∧ (∀ s, s.boot.stage = 5 → s.boot.warm = false →
      ∃ t, exec .bootZeroDone s = .next t ∧ t.boot.stage = 6 ∧ (∀ a, t.devByte a = 0) ∧ t.member.gen = 1 ∧ t.inv.jnext = 1
        ∧ t.ras.retire = [] ∧ t.ras.poison = [] ∧ t.llc.wayDis = [])
  ∧ (∀ s, s.boot.stage = 5 → s.boot.warm = true → LlcCoherent s →
      ∃ t, exec .bootZeroDone s = .next t ∧ t.boot.stage = 6 ∧ (∀ a, t.devByte a = s.devByte a) ∧ t.member.gen = s.member.gen)
  ∧ (∀ s, s.boot.stage = 6 → (∀ l ∈ s.sched.launches, l.status ≠ none) →
      ∃ t, exec .startWarm s = .next t ∧ t.boot.stage = 5 ∧ t.boot.warm = true ∧ t.vm.tlb = [] ∧ t.mem = s.mem
        ∧ t.member.state = (if s.boot.pilot then 0 else 2) ∧ t.host.contexts = s.host.contexts
        ∧ ∀ p, (t.port p).state = 0)
  ∧ (∀ s l, l ∈ s.sched.launches → l.status = none → s.preemptState l.ctx < 2 → exec .startWarm s = .next s)

/-- R442 to R444: an attestation report carries the nonce and the image's digest; a clock step sets the time; the arithmetic
clock steps down over the power limit and up under it; PWRLIM is clamped; an over-temperature shutdown ends every context,
raises vector 7 and stops the part. -/
def Obligations.PowerAndClocks : Prop :=
  (∀ nonce s, nonce.length = 32 → s.boot.imageHash.length = 64 →
    ∃ t rep kx ky c, exec (.attestationRequest nonce) s = .next t ∧ Sent s t [.attestation rep kx ky c] ∧ rep.length = 512
      ∧ rep.take 32 = nonce ∧ (rep.drop 32).take 64 = s.boot.imageHash ∧ (rep.drop 96).take 4 = natBytes 4 s.boot.svn
      ∧ t.mem = s.mem ∧ t.groups = s.groups)
  ∧ (∀ sec ns s, exec (.ieee1588ClockStep sec ns) s
      = .next { s with boot := { s.boot with ptpSeconds := sec, ptpNanos := ns, ptpAt := s.ck } })
  ∧ (∀ w s, ∃ t, exec (.powerControl w) s = .next t ∧ t = { s with boot := { s.boot with clock := t.boot.clock } }
      ∧ (s.boot.pwrlim < w → t.boot.clock = max 1200 (s.boot.clock - 50))
      ∧ (w < s.boot.pwrlim → t.boot.clock = min 2000 (s.boot.clock + 50)) ∧ (w = s.boot.pwrlim → t.boot.clock = s.boot.clock))
  ∧ (∀ (v : Word) s, exec (.pwrlimWrite v) s = .next { s with boot := { s.boot with
      pwrlim := max 1000 (min (if Config.lowPower then 2800 else 3600) (v.toNat % 65536)) } })
  ∧ (∀ d s, d ≤ 5 → s.boot.stage ≠ 8 →
      ∃ t, exec (.thermalShutdown d) s = .next t ∧ t.boot.stage = 8 ∧ .msix 7 ∈ t.fabric.sent
        ∧ ∀ l ∈ t.sched.launches, l.status ≠ none)

/-- R251, R436 and R438 to R441: a BAR 2 read returns the controller's bytes and a write reaches them, both only where the range
is mapped; a configuration write changes its register or field, which then reads so, one of an enabled structure is dropped, and an enable
whose rules fail is refused; 1 written to COMMIT commits the region's staged mapping; PRECMD written without GO keeps CTX and OP,
and PRESTAT then reads that context's state (R230, R348). -/
def Obligations.HostAccesses : Prop :=
  (∀ a n s, (∀ i, i < n → s.mapped (a + i) = true ∧ s.settling (a + i) = false) → s.ras.poison = [] → s.llc.discards = [] →
    ∃ t, exec (.hostBar2Read a n) s = .next t ∧ Sent s t [.hostRead a (some ((List.range n).map (fun i => s.mem.read (a + i))))]
      ∧ t.mem = s.mem ∧ t.llc.sectors = s.llc.sectors)
  ∧ (∀ a (bs : List Byte) s, (∀ i, i < bs.length → s.mapped (a + i) = true ∧ s.settling (a + i) = false) → LlcCoherent s →
      ∃ t, exec (.hostBar2Write a bs) s = .next t ∧ (∀ i, i < bs.length → t.mem.read (a + i) = bs.getD i 0)
        ∧ t.devBytes a bs.length = bs ∧ ∀ x, ¬(a ≤ x ∧ x < a + bs.length) → t.devByte x = s.devByte x)
  ∧ (∀ a n (bs : List Byte) s, (∀ i, s.settling i = false) → 0 < n → bs.length = n → s.mapped a = false →
      exec (.hostBar2Read a n) s = .next (s.send (.hostRead a none)) ∧ exec (.hostBar2Write a bs) s = .next s)
  ∧ (∀ ctx (v : Word) s, ctx < 4096 →
      ((s.ctxEntry ctx).flags % 2 = 0 →
        ∃ t, exec (.configWrite (0x800000 + 64 * ctx) v) s = .next t
          ∧ (t.ctxEntry ctx).root = (s.ctxEntry ctx).root / 2 ^ 32 * 2 ^ 32 + v.toNat
          ∧ t.readBar0 (0x800000 + 64 * ctx) = v
          ∧ ∀ k, k ≠ ctx → t.ctxEntry k = s.ctxEntry k)
      ∧ ((s.ctxEntry ctx).flags % 2 = 1 →
        ∃ t, exec (.configWrite (0x800000 + 64 * ctx) v) s = .next t ∧ ∀ k, t.ctxEntry k = s.ctxEntry k)
      ∧ ((s.ctxEntry ctx).flags % 2 = 0 → v.toNat % 2 = 1 →
        ∃ t, exec (.configWrite (0x800000 + 64 * ctx + 16) v) s = .next t
          ∧ ((t.ctxEntry ctx).flags % 2 = 1 ↔ (s.ctxEntry ctx).root % 2 ^ 21 = 0 ∧ (s.ctxEntry ctx).root < 2 ^ 40)))
  ∧ (∀ (v : Word) s, exec (.configWrite 0x5030 v) s = .next { s with inv := { s.inv with jcfg := v &&& 0x8000001F } })
  ∧ (∀ (v : Word) s, exec (.configWrite 0x5104 v) s = .next { s with boot := { s.boot with pilot := v.getLsbD 3 } })
  ∧ (∀ k s, k < 8 → exec (.configWrite (0x840088 + 0x200 * k) 1) s = exec (.regionCommit k) s)
  ∧ (∀ (v : Word) s, v.getLsbD 30 = false → s.commandBusy = false →
      ∃ t, exec (.configWrite 0x5010 v) s = .next t ∧ t.readBar0 0x5010 = v &&& 0x0FFF0003
        ∧ t.readBar0 0x5014 = BitVec.ofNat 32 (s.preemptState (v.toNat / 2 ^ 16 % 4096) * 2 ^ 28))
  ∧ (∀ o (v : Word) s, o % 4 ≠ 0 → exec (.configWrite o v) s = .next s)

/-! ### Encodings (R32 to R55) and steps -/

namespace Sys2Proof.Claims

open Sys2Proof.Machine

/-- The instruction that a lane word is read as. -/
def ReadsAs (x : LaneWord) (i : Instr) : Prop :=
  match x with
  | .instr j => i = j
  | .reduce .max f => i = .vredmMax f
  | .reduce .and f => i = .vredmAnd f
  | .reduce .or f => i = .vredmOr f
  | .reduce .xor f => i = .vredmXor f
  | .reduce .fadd f => i = .vredmFadd f
  | .reduce .aiadd f => i = .vredmAiadd f

/-- The state in which a stream's instruction executes: one ck has passed, the turn is used, the issuer is known. -/
def atTurn (s : State) (rest : List Turn) (g : Nat) (slotB : Bool) : State :=
  { s with ck := s.ck + 1, turns := rest, cur := { g := g, slotB := slotB } }

/-- Path slot `slotB` of group `g` issues, and the word at its pc is `w` (R33, R239). -/
structure FetchesWord (s : State) (g : Nat) (slotB : Bool) (w : Nat) : Prop where
  ready : s.slotReady g slotB = true
  word : ∃ bs, s.fetchBytes (s.streamAsker g slotB false) ((s.group g).slot slotB).pc.toNat 4 = .bytes bs ∧ leNat bs = w

/-- The lane queue of group `g` issues: its head does not wait to drain, and the 96 bits at its lane pc are `w` (R16). -/
structure FetchesLane (s : State) (g : Nat) (b : Block) (w : Nat) : Prop where
  head : (s.group g).headBlock = some b
  ready : s.drainWaits g b = false ∧ b.next < (s.group g).ident.laneSize
  word : ∃ bs, s.fetchBytes (s.streamAsker g b.slotB true) ((s.group g).lanePc b).toNat 12 = .bytes bs ∧ leNat bs = w

/-- The state in which a fetched scalar instruction executes: the LLC has seen the fetch (R220). -/
def scalarFetched (s : State) (g : Nat) (slotB : Bool) : State :=
  s.fetchTouch (s.streamAsker g slotB false) ((s.group g).slot slotB).pc.toNat 4

/-- The same for a lane instruction of block `b`. -/
def laneFetched (s : State) (g : Nat) (b : Block) : State :=
  s.fetchTouch (s.streamAsker g b.slotB true) ((s.group g).lanePc b).toNat 12

/-- The step is what `exec` answers; for a group with a shade, the replay log may be longer (R359). -/
def StepIs (s : State) (g : Nat) (r : Host.Outcome State Fault Refusal) : Prop :=
  ((s.group g).ident.shade = none → step s = r)
    ∧ (∀ t, r = .next t → ∃ u, step s = .next u
        ∧ (u = t ∨ ∃ new, u = t.setGroup g { t.group g with replayLog := ((t.group g).replayLog ++ new).take 4096 }))
    ∧ (∀ f, r = .fault f → step s = .fault f)

end Sys2Proof.Claims

/-- R33 to R46 and R55: a scalar word decodes exactly to the well-formed instruction that encodes as it: no bit of a word
is read twice or left unread. -/
def Obligations.ScalarEncodingsAgree : Prop :=
  (∀ i w, i.wf = true → encodeScalar i = some w → decodeScalar w = .ok i)
  ∧ (∀ i w, decodeScalar w = .ok i → i.wf = true ∧ encodeScalar i = some w)
  ∧ (∀ i w, i.wf = true → encodeScalar i = some w → w < 2 ^ 32)

/-- R47 to R55: the 96 bits of a lane instruction decode exactly to the well-formed instruction that encodes as them. -/
def Obligations.LaneEncodingsAgree : Prop :=
  (∀ i w, i.wf = true → encodeLane i = some w → ∃ x, readLane w = .ok x ∧ ReadsAs x i)
  ∧ (∀ i w x, readLane w = .ok x → ReadsAs x i → i.wf = true ∧ encodeLane i = some w)
  ∧ (∀ i w, i.wf = true → encodeLane i = some w → w < 2 ^ 96)

/-- The manual's own encodings decode to the instructions they stand for (R15, R109, R118, R119, R404, R407, R410, and the
listings of programs). -/
def Obligations.WordsDecode : Prop :=
  decodeScalar 0xA062144B = .ok (.rinv 6 8 20 4 2 true true) ∧ decodeScalar 0xA4918000 = .ok (.rinvw 9 6)
  ∧ decodeScalar 0xA8620001 = .ok (.launchxCmt 6 8) ∧ decodeScalar 0x80000000 = .ok (.lrun 0 false 0)
  ∧ decodeScalar 0xB8100000 = .ok (.brld 1 0 0 0) ∧ decodeScalar 0xC5400104 = .ok (.sld8 20 0 0 4)
  ∧ decodeScalar 0x6400000B = .ok (.jset 11) ∧ decodeScalar 0x68000000 = .ok .join ∧ decodeScalar 0x48000008 = .ok (.j 8)
  ∧ decodeScalar 0x0080F0FF = .ok (.waitc 0 15 0 15 15) ∧ decodeScalar 0x01700000 = .ok (.exit 0)
  ∧ (∃ f, readLane 0x000004020300800000000000 = .ok (.instr (.vadd f)) ∧ f.vd = 4 ∧ f.va = 2 ∧ f.vb = 3 ∧ f.ty = 0 ∧ f.e = true)
  ∧ decodeScalar 0x00000001 = .error .reserved

/-- R12, R16, R33, R55 and R220: the step whose turn is a stream's executes the instruction that the bytes at its pc decode to,
one ck later, with the fetch counted as an access of the LLC, which changes no group and no byte that a read returns; it logs what a shade pair logs;
a word that is no instruction raises ILLEGAL; the turn of an event executes it. -/
def Obligations.StepRunsDecoded : Prop :=
  (∀ s g b rest w, s.boot.stage ≠ 8 → s.turns = .scalar g b :: rest → (s.group g).resident = true →
    FetchesWord (atTurn s rest g b) g b w →
    (∀ i, decodeScalar w = .ok i → StepIs s g (exec i (scalarFetched (atTurn s rest g b) g b)))
    ∧ (∀ e, decodeScalar w = .error e →
        step s = .next ((scalarFetched (atTurn s rest g b) g b).trapWord (BitVec.ofNat 32 w) causeIllegal 0 0)))
  ∧ (∀ s g b rest w, s.boot.stage ≠ 8 → s.turns = .lane g :: rest → (s.group g).resident = true →
      FetchesLane (atTurn s rest g b.slotB) g b w →
      ∀ x i, readLane w = .ok x → ReadsAs x i → (countsAsLoad i = true → (atTurn s rest g b.slotB).holdsQuota g = true) →
        StepIs s g (exec i (laneFetched (atTurn s rest g b.slotB) g b)))
  ∧ (∀ s g slotB b, (scalarFetched s g slotB).groups = s.groups ∧ (laneFetched s g b).groups = s.groups
      ∧ (LlcCoherent s → ∀ a, (scalarFetched s g slotB).devByte a = s.devByte a ∧ (laneFetched s g b).devByte a = s.devByte a))
  ∧ (∀ s i rest, s.boot.stage ≠ 8 → s.turns = .act i :: rest → step s = exec i { s with ck := s.ck + 1, turns := rest })
  ∧ (∀ s g b rest, s.boot.stage ≠ 8 → (s.group g).resident = false →
      (s.turns = .scalar g b :: rest ∨ s.turns = .lane g :: rest) → step s = .fault .noGroup)

/-- R357 to R360 and R367: where the two copies of an instruction in a pair agree, it is passed and the log holds the records it
adds, 4,096 at most; where they differ once, or one of them alone traps, it takes effect once and one record is written; where
they differ again after the replay, or the log is full, the context ends. -/
def Obligations.ShadePairsCompared : Prop :=
  ∀ s g b rest w i t again, s.boot.stage ≠ 8 → (s.group g).resident = true → (s.group g).ident.shade ≠ none →
    let a := scalarFetched (atTurn s rest g b) g b
    FetchesWord (atTurn s rest g b) g b w → decodeScalar w = .ok i → exec i a = .next t →
    let new := shadeRecords g (s.group g).seq (t.group g) i
    let logged := if a.passed t false then { t.group g with replayLog := ((t.group g).replayLog ++ new).take 4096 } else t.group g
    (s.turns = .scalar g b :: rest → ∃ u, step s = .next u ∧ u.group g = logged ∧ u.mem = t.mem)
    ∧ (a.passed t false = true ∨ a.trapped t = true →
        (s.turns = .differ g false b again :: rest → again = false → (s.group g).replayLog.length < 4096 →
          ∃ u, step s = .next u ∧ u.group g = logged ∧ Recorded t u)
        ∧ (s.turns = .differ g false b again :: rest → again = true ∨ 4096 ≤ (s.group g).replayLog.length →
          ∃ u, step s = .next u ∧ ContextOver u (s.group g).ident.ctx))

/-- R412, R441, R444 and the reset columns of the registers: what State.reset holds; its memory is canonical and lists
nothing, and no group, launch, translation or port stands. -/
def Obligations.ResetValues : Prop :=
  State.reset.boot.stage = 1 ∧ State.reset.boot.pilot = false ∧ State.reset.inv.jnext = 1 ∧ State.reset.inv.jcfg = 12
  ∧ State.reset.mem = [] ∧ MemoryWf State.reset ∧ State.reset.groups = [] ∧ State.reset.sched.launches = []
  ∧ State.reset.vm.tlb = [] ∧ (∀ k, (State.reset.region k).active.limit = (State.reset.region k).active.base)
  ∧ (∀ p, (State.reset.port p).state = 0) ∧ (∀ c, (State.reset.comm c).flags = 0 ∧ (State.reset.comm c).f = 40)
  ∧ (∀ c, (State.reset.core c).poolcfg = 0x001E1008 ∧ (State.reset.core c).quota = 32 ∧ (State.reset.core c).thrcfg = 64)
  ∧ State.reset.vm.invcmd = 0 ∧ State.reset.hot.hotcfg = 1000 ∧ State.reset.boot.clock = 2000
  ∧ (∀ x, (State.reset.ctxEntry x).flags = 0 ∧ (State.reset.ctxEntry x).stbcfg = 0x50000000)

/-- No instruction and no event is refused: `exec` answers a next state for every one, in every state, unless a lane
instruction is executed for a group without a block; and where no turn is given, every step answers a next state. -/
def Obligations.NothingStops : Prop :=
  (∀ i s, (∃ t, exec i s = .next t) ∨ (∃ f, laneForm i = some f) ∧ s.me.headBlock = none ∧ exec i s = .fault .noBlock)
  ∧ (∀ s, s.turns = [] → ∃ t, step s = .next t)

/-- The canonical form of memory is an invariant: every step keeps it. -/
def Obligations.StepKeepsMemory : Prop :=
  ∀ s t, MemoryWf s → step s = .next t → MemoryWf t

/-- R102 to R105: every scalar ALU, immediate and mask instruction completes and writes the value its rule gives. -/
def Obligations.ScalarAlu : Prop := ScalarWordResults ∧ ScalarBitCounts ∧ ScalarImmediateResults ∧ MaskResults

/-- R102 and R22: the 64-bit instructions on even pairs, and the trap on an odd one. -/
def Obligations.ScalarPairs : Prop := ScalarPairResults ∧ OddPairsTrap

/-- R106 to R108 and R110: where every branch, jump, call and return goes, and the link it writes; where an instruction that
makes no control transfer goes. -/
def Obligations.Branches : Prop := BranchesGo ∧ CallsLink ∧ LoopEnds

/-- R109 and R111: loops open and close. -/
def Obligations.Loops : Prop := LoopsOpenAndClose

/-- R13, R15, R20, R113 and R115: LRUN, WAITC and SLEEP. -/
def Obligations.StreamControl : Prop := LrunEnqueues ∧ WaitsAndSleep

/-- R24, R116 and R117: reading and writing the CSRs. -/
def Obligations.Csrs : Prop := CsrAccess ∧ PartWrites

/-- R336, R337, R339 and R342: taking a trap with a handler and without one. -/
def Obligations.TrapsTaken : Prop := TrapEntry ∧ TrapTerminates

/-- R336 and R340: returning from a handler, and the delivery of a trap held pending. -/
def Obligations.TrapsLeft : Prop := TrapReturn ∧ PendingTrapDelivered

/-- The lane integer instructions: each completes and writes what its rule gives in every active lane, its bits of VSTAT in lane
program order. -/
def Obligations.LaneIntegers : Prop := LaneIntegerResults ∧ FlagsInOrder ∧ LaneDivideAndHigh ∧ LaneBitResults

/-- The lane moves, with indexed registers and the trap on an index out of range. -/
def Obligations.LaneRegisterMoves : Prop := LaneMoves ∧ IndexedRegistersTrap

/-- A lane block's progress from one instruction to the next, and the checks at issue. -/
def Obligations.LaneBlocks : Prop := LaneBlockAdvances ∧ LaneIssueChecks

/-- The lane floating-point instructions: results, the traps that FPE enables, comparisons, classification and conversions. -/
def Obligations.LaneFloats : Prop := LaneFloatResults ∧ LaneFloatTraps ∧ LaneFloatOthers

/-- The block formats: decoding elements from a block and encoding them into one. -/
def Obligations.LaneFormats : Prop := LaneDecodes ∧ LaneEncodes

/-- Shuffles, votes, reductions and scans across the lanes. -/
def Obligations.LaneCross : Prop := ShuffleResults ∧ VoteResults ∧ ReduceAndScanResults

/-- Scalar loads, stores and record instructions: what issue enters in the queues, and where they trap. -/
def Obligations.ScalarMemory : Prop := ScalarLoadsIssue ∧ ScalarStoresIssue ∧ ScalarAccessTraps ∧ RecordNarrowing

/-- What a returning load writes. -/
def Obligations.LoadsReturn : Prop := ScalarLoadReturns ∧ LaneLoadReturns

/-- Lane loads, stores and block accesses at issue. -/
def Obligations.LaneMemory : Prop := LaneLoadsIssue ∧ LaneStoresIssue ∧ BlockAccessIssue

/-- Division of a group into parts, joining them, and branches through a table. -/
def Obligations.DivisionAndTables : Prop := DivisionAndJoin ∧ TableBranches

/-- Fences and publication of a window. -/
def Obligations.FencesAndWindows : Prop := FencesOrder ∧ PublishTurnsWindow

/-- Team barriers and the end of a phase. -/
def Obligations.BarriersAndPhases : Prop := BarrierMeets ∧ PhaseEnds

/-- The register pool, the flame and the batches of queued work. -/
def Obligations.PoolAndBatches : Prop := PoolAndFlame ∧ BatchesRetire

/-- The matrix engine's operations, queued and executed. -/
def Obligations.MatrixEngine : Prop := MatrixIssues ∧ MatrixResults

/-- Atomic operations, issued and executed. -/
def Obligations.Atomics : Prop := AtomicsIssue ∧ AtomicsExecute

/-- Allocating and looking up named lines. -/
def Obligations.SharedLines : Prop := LinesAllocated ∧ LinesLookedUp

/-- Loads of replicated data, the requests they send, and DISCARD. -/
def Obligations.ReplicasAndDiscard : Prop := ReplicaLoads ∧ DiscardAndReplicaRequests

/-- Collective operations from their start to their retirement. -/
def Obligations.Collectives : Prop := CollectivesStart ∧ CollectivesEnd

/-- Remote invocations sent, and the tickets awaited. -/
def Obligations.InvocationsSubmitted : Prop := InvocationsSent ∧ InvocationsAwaited

/-- Remote invocations received, and the groups that run them. -/
def Obligations.InvocationsDelivered : Prop := InvocationsReceived ∧ InvocationsRun

/-- Placing clusters of groups; the windows of the store budget and of the load throttle, and their time limits. -/
def Obligations.Placement : Prop := ClustersPlaced ∧ WindowsAndTimeouts

/-- Page walks and host address translations. -/
def Obligations.Translation : Prop := WalksEnd ∧ HostTranslations

/-- Flits and ports of the fabric. -/
def Obligations.FabricPorts : Prop := FlitsTravel ∧ PortsTrain

/-- Watching the neighbours and expelling a member. -/
def Obligations.Monitors : Prop := NeighboursWatched ∧ MembersExpelled
end

