-- ==== Sys2Proof/Laws/Dispatch.lean ====
section
/-! SUPPORT. `exec` of each constructor is that instruction's meaning. -/

namespace Sys2Proof.Laws

open Sys2Proof.Machine

theorem exec_nop (s : State) : exec .nop s = execNop s := rfl
theorem exec_add d a b (s : State) : exec (.add d a b) s = execAdd d a b s := rfl
theorem exec_sub d a b (s : State) : exec (.sub d a b) s = execSub d a b s := rfl
theorem exec_mul d a b (s : State) : exec (.mul d a b) s = execMul d a b s := rfl
theorem exec_mulh d a b (s : State) : exec (.mulh d a b) s = execMulh d a b s := rfl
theorem exec_mulhn d a b (s : State) : exec (.mulhn d a b) s = execMulhn d a b s := rfl
theorem exec_div d a b (s : State) : exec (.div d a b) s = execDiv d a b s := rfl
theorem exec_divn d a b (s : State) : exec (.divn d a b) s = execDivn d a b s := rfl
theorem exec_rem d a b (s : State) : exec (.rem d a b) s = execRem d a b s := rfl
theorem exec_remn d a b (s : State) : exec (.remn d a b) s = execRemn d a b s := rfl
theorem exec_and d a b (s : State) : exec (.and d a b) s = execAnd d a b s := rfl
theorem exec_or d a b (s : State) : exec (.or d a b) s = execOr d a b s := rfl
theorem exec_xor d a b (s : State) : exec (.xor d a b) s = execXor d a b s := rfl
theorem exec_andn d a b (s : State) : exec (.andn d a b) s = execAndn d a b s := rfl
theorem exec_shl d a b (s : State) : exec (.shl d a b) s = execShl d a b s := rfl
theorem exec_shr d a b (s : State) : exec (.shr d a b) s = execShr d a b s := rfl
theorem exec_sar d a b (s : State) : exec (.sar d a b) s = execSar d a b s := rfl
theorem exec_rotl d a b (s : State) : exec (.rotl d a b) s = execRotl d a b s := rfl
theorem exec_min d a b (s : State) : exec (.min d a b) s = execMin d a b s := rfl
theorem exec_max d a b (s : State) : exec (.max d a b) s = execMax d a b s := rfl
theorem exec_minn d a b (s : State) : exec (.minn d a b) s = execMinn d a b s := rfl
theorem exec_maxn d a b (s : State) : exec (.maxn d a b) s = execMaxn d a b s := rfl
theorem exec_seq d a b (s : State) : exec (.seq d a b) s = execSeq d a b s := rfl
theorem exec_sne d a b (s : State) : exec (.sne d a b) s = execSne d a b s := rfl
theorem exec_slt d a b (s : State) : exec (.slt d a b) s = execSlt d a b s := rfl
theorem exec_sltn d a b (s : State) : exec (.sltn d a b) s = execSltn d a b s := rfl
theorem exec_sle d a b (s : State) : exec (.sle d a b) s = execSle d a b s := rfl
theorem exec_slen d a b (s : State) : exec (.slen d a b) s = execSlen d a b s := rfl
theorem exec_clz d a (s : State) : exec (.clz d a) s = execClz d a s := rfl
theorem exec_popc d a (s : State) : exec (.popc d a) s = execPopc d a s := rfl
theorem exec_brev d a (s : State) : exec (.brev d a) s = execBrev d a s := rfl
theorem exec_add64 d a b (s : State) : exec (.add64 d a b) s = execAdd64 d a b s := rfl
theorem exec_sub64 d a b (s : State) : exec (.sub64 d a b) s = execSub64 d a b s := rfl
theorem exec_shl64 d a b (s : State) : exec (.shl64 d a b) s = execShl64 d a b s := rfl
theorem exec_shr64 d a b (s : State) : exec (.shr64 d a b) s = execShr64 d a b s := rfl
theorem exec_sar64 d a b (s : State) : exec (.sar64 d a b) s = execSar64 d a b s := rfl
theorem exec_movp d a (s : State) : exec (.movp d a) s = execMovp d a s := rfl
theorem exec_selz d a b (s : State) : exec (.selz d a b) s = execSelz d a b s := rfl
theorem exec_addi d a imm (s : State) : exec (.addi d a imm) s = execAddi d a imm s := rfl
theorem exec_andi d a imm (s : State) : exec (.andi d a imm) s = execAndi d a imm s := rfl
theorem exec_ori d a imm (s : State) : exec (.ori d a imm) s = execOri d a imm s := rfl
theorem exec_xori d a imm (s : State) : exec (.xori d a imm) s = execXori d a imm s := rfl
theorem exec_shli d a imm (s : State) : exec (.shli d a imm) s = execShli d a imm s := rfl
theorem exec_shri d a imm (s : State) : exec (.shri d a imm) s = execShri d a imm s := rfl
theorem exec_sari d a imm (s : State) : exec (.sari d a imm) s = execSari d a imm s := rfl
theorem exec_slti d a imm (s : State) : exec (.slti d a imm) s = execSlti d a imm s := rfl
theorem exec_sltni d a imm (s : State) : exec (.sltni d a imm) s = execSltni d a imm s := rfl
theorem exec_lih d imm (s : State) : exec (.lih d imm) s = execLih d imm s := rfl
theorem exec_muli d a imm (s : State) : exec (.muli d a imm) s = execMuli d a imm s := rfl
theorem exec_kand d a b (s : State) : exec (.kand d a b) s = execKand d a b s := rfl
theorem exec_kor d a b (s : State) : exec (.kor d a b) s = execKor d a b s := rfl
theorem exec_kxor d a b (s : State) : exec (.kxor d a b) s = execKxor d a b s := rfl
theorem exec_kandn d a b (s : State) : exec (.kandn d a b) s = execKandn d a b s := rfl
theorem exec_knot d a (s : State) : exec (.knot d a) s = execKnot d a s := rfl
theorem exec_kmov d a (s : State) : exec (.kmov d a) s = execKmov d a s := rfl
theorem exec_kset d x (s : State) : exec (.kset d x) s = execKset d x s := rfl
theorem exec_kget a x (s : State) : exec (.kget a x) s = execKget a x s := rfl
theorem exec_kpop a x (s : State) : exec (.kpop a x) s = execKpop a x s := rfl
theorem exec_kff a x (s : State) : exec (.kff a x) s = execKff a x s := rfl
theorem exec_xmset a (s : State) : exec (.xmset a) s = execXmset a s := rfl
theorem exec_xmget d (s : State) : exec (.xmget d) s = execXmget d s := rfl
theorem exec_b c r d (s : State) : exec (.b c r d) s = execB c r d s := rfl
theorem exec_bk c k d (s : State) : exec (.bk c k d) s = execBk c k d s := rfl
theorem exec_j d (s : State) : exec (.j d) s = execJ d s := rfl
theorem exec_call d (s : State) : exec (.call d) s = execCall d s := rfl
theorem exec_ji a (s : State) : exec (.ji a) s = execJi a s := rfl
theorem exec_calli a (s : State) : exec (.calli a) s = execCalli a s := rfl
theorem exec_ret (s : State) : exec .ret s = execRet s := rfl
theorem exec_loopImm l c e (s : State) : exec (.loopImm l c e) s = execLoopImm l c e s := rfl
theorem exec_loopReg l r e (s : State) : exec (.loopReg l r e) s = execLoopReg l r e s := rfl
theorem exec_loopx (s : State) : exec .loopx s = execLoopx s := rfl
theorem exec_brd k d (s : State) : exec (.brd k d) s = execBrd k d s := rfl
theorem exec_jset d (s : State) : exec (.jset d) s = execJset d s := rfl
theorem exec_join (s : State) : exec .join s = execJoin s := rfl
theorem exec_brx v p n (s : State) : exec (.brx v p n) s = execBrx v p n s := rfl
theorem exec_callx v p n (s : State) : exec (.callx v p n) s = execCallx v p n s := rfl
theorem exec_retx (s : State) : exec .retx s = execRetx s := rfl
theorem exec_lrun k r b (s : State) : exec (.lrun k r b) s = execLrun k r b s := rfl
theorem exec_trap c (s : State) : exec (.trap c) s = execTrap c s := rfl
theorem exec_tret (s : State) : exec .tret s = execTret s := rfl
theorem exec_brk c (s : State) : exec (.brk c) s = execBrk c s := rfl
theorem exec_csrr d c (s : State) : exec (.csrr d c) s = execCsrr d c s := rfl
theorem exec_csrw a c (s : State) : exec (.csrw a c) s = execCsrw a c s := rfl
theorem exec_csrs a c (s : State) : exec (.csrs a c) s = execCsrs a c s := rfl
theorem exec_csrc a c (s : State) : exec (.csrc a c) s = execCsrc a c s := rfl
theorem exec_waitc b l r c t (s : State) : exec (.waitc b l r c t) s = execWaitc b l r c t s := rfl
theorem exec_waitb a (s : State) : exec (.waitb a) s = execWaitb a s := rfl
theorem exec_tbatch d (s : State) : exec (.tbatch d) s = execTbatch d s := rfl
theorem exec_fenceAcquire r (s : State) : exec (.fenceAcquire r) s = execFenceAcquire r s := rfl
theorem exec_fenceRelease r (s : State) : exec (.fenceRelease r) s = execFenceRelease r s := rfl
theorem exec_fenceFull r (s : State) : exec (.fenceFull r) s = execFenceFull r s := rfl
theorem exec_fenceS r w (s : State) : exec (.fenceS r w) s = execFenceS r w s := rfl
theorem exec_publish a (s : State) : exec (.publish a) s = execPublish a s := rfl
theorem exec_phend (s : State) : exec .phend s = execPhend s := rfl
theorem exec_bar (s : State) : exec .bar s = execBar s := rfl
theorem exec_give n (s : State) : exec (.give n) s = execGive n s := rfl
theorem exec_claim n (s : State) : exec (.claim n) s = execClaim n s := rfl
theorem exec_flameTake (s : State) : exec .flameTake s = execFlameTake s := rfl
theorem exec_flamePass a (s : State) : exec (.flamePass a) s = execFlamePass a s := rfl
theorem exec_rtswap a (s : State) : exec (.rtswap a) s = execRtswap a s := rfl
theorem exec_genr d (s : State) : exec (.genr d) s = execGenr d s := rfl
theorem exec_discard b (s : State) : exec (.discard b) s = execDiscard b s := rfl
theorem exec_sleep n (s : State) : exec (.sleep n) s = execSleep n s := rfl
theorem exec_exit k (s : State) : exec (.exit k) s = execExit k s := rfl
theorem exec_launch d a (s : State) : exec (.launch d a) s = execLaunch d a s := rfl
theorem exec_graph d a b (s : State) : exec (.graph d a b) s = execGraph d a b s := rfl
theorem exec_cpy d a (s : State) : exec (.cpy d a) s = execCpy d a s := rfl
theorem exec_collSumAi d a r2 r3 (s : State) : exec (.collSumAi d a r2 r3) s = execCollSumAi d a r2 r3 s := rfl
theorem exec_collSumFix d a r2 r3 (s : State) : exec (.collSumFix d a r2 r3) s = execCollSumFix d a r2 r3 s := rfl
theorem exec_collMax d a r2 r3 (s : State) : exec (.collMax d a r2 r3) s = execCollMax d a r2 r3 s := rfl
theorem exec_collMin d a r2 r3 (s : State) : exec (.collMin d a r2 r3) s = execCollMin d a r2 r3 s := rfl
theorem exec_collGather d a r2 r3 (s : State) : exec (.collGather d a r2 r3) s = execCollGather d a r2 r3 s := rfl
theorem exec_collRscatAi d a r2 r3 (s : State) : exec (.collRscatAi d a r2 r3) s = execCollRscatAi d a r2 r3 s := rfl
theorem exec_collRscatFix d a r2 r3 (s : State) : exec (.collRscatFix d a r2 r3) s = execCollRscatFix d a r2 r3 s := rfl
theorem exec_collBcast d a r2 r3 (s : State) : exec (.collBcast d a r2 r3) s = execCollBcast d a r2 r3 s := rfl
theorem exec_collA2a d a r2 r3 (s : State) : exec (.collA2a d a r2 r3) s = execCollA2a d a r2 r3 s := rfl
theorem exec_rinv d a f n p r m (s : State) : exec (.rinv d a f n p r m) s = execRinv d a f n p r m s := rfl
theorem exec_rinvw d a (s : State) : exec (.rinvw d a) s = execRinvw d a s := rfl
theorem exec_launchxRsv d a (s : State) : exec (.launchxRsv d a) s = execLaunchxRsv d a s := rfl
theorem exec_launchxCmt d a (s : State) : exec (.launchxCmt d a) s = execLaunchxCmt d a s := rfl
theorem exec_launchxAbt d a (s : State) : exec (.launchxAbt d a) s = execLaunchxAbt d a s := rfl
theorem exec_swaproot d e w b (s : State) : exec (.swaproot d e w b) s = execSwaproot d e w b s := rfl
theorem exec_rcadj d q x (s : State) : exec (.rcadj d q x) s = execRcadj d q x s := rfl
theorem exec_brld d b o imm (s : State) : exec (.brld d b o imm) s = execBrld d b o imm s := rfl
theorem exec_brnarAdd d o r (s : State) : exec (.brnarAdd d o r) s = execBrnarAdd d o r s := rfl
theorem exec_brnarMin d o r (s : State) : exec (.brnarMin d o r) s = execBrnarMin d o r s := rfl
theorem exec_brnarRo d r (s : State) : exec (.brnarRo d r) s = execBrnarRo d r s := rfl
theorem exec_brget d b r (s : State) : exec (.brget d b r) s = execBrget d b r s := rfl
theorem exec_sld4 d b o imm (s : State) : exec (.sld4 d b o imm) s = execSld4 d b o imm s := rfl
theorem exec_sld8 d b o imm (s : State) : exec (.sld8 d b o imm) s = execSld8 d b o imm s := rfl
theorem exec_sst4 a b o imm (s : State) : exec (.sst4 a b o imm) s = execSst4 a b o imm s := rfl
theorem exec_sst8 a b o imm (s : State) : exec (.sst8 a b o imm) s = execSst8 a b o imm s := rfl
theorem exec_caout d a (s : State) : exec (.caout d a) s = execCaout d a s := rfl
theorem exec_vadd f (s : State) : exec (.vadd f) s = execVadd f s := rfl
theorem exec_vsub f (s : State) : exec (.vsub f) s = execVsub f s := rfl
theorem exec_vmul f (s : State) : exec (.vmul f) s = execVmul f s := rfl
theorem exec_vmulh f (s : State) : exec (.vmulh f) s = execVmulh f s := rfl
theorem exec_vmad f (s : State) : exec (.vmad f) s = execVmad f s := rfl
theorem exec_vdiv f (s : State) : exec (.vdiv f) s = execVdiv f s := rfl
theorem exec_vrem f (s : State) : exec (.vrem f) s = execVrem f s := rfl
theorem exec_vmin f (s : State) : exec (.vmin f) s = execVmin f s := rfl
theorem exec_vmax f (s : State) : exec (.vmax f) s = execVmax f s := rfl
theorem exec_vabs f (s : State) : exec (.vabs f) s = execVabs f s := rfl
theorem exec_vneg f (s : State) : exec (.vneg f) s = execVneg f s := rfl
theorem exec_vand f (s : State) : exec (.vand f) s = execVand f s := rfl
theorem exec_vor f (s : State) : exec (.vor f) s = execVor f s := rfl
theorem exec_vxor f (s : State) : exec (.vxor f) s = execVxor f s := rfl
theorem exec_vnot f (s : State) : exec (.vnot f) s = execVnot f s := rfl
theorem exec_vshl f (s : State) : exec (.vshl f) s = execVshl f s := rfl
theorem exec_vshr f (s : State) : exec (.vshr f) s = execVshr f s := rfl
theorem exec_vsar f (s : State) : exec (.vsar f) s = execVsar f s := rfl
theorem exec_vrot f (s : State) : exec (.vrot f) s = execVrot f s := rfl
theorem exec_vclz f (s : State) : exec (.vclz f) s = execVclz f s := rfl
theorem exec_vpopc f (s : State) : exec (.vpopc f) s = execVpopc f s := rfl
theorem exec_vbfe f (s : State) : exec (.vbfe f) s = execVbfe f s := rfl
theorem exec_vbfi f (s : State) : exec (.vbfi f) s = execVbfi f s := rfl
theorem exec_vcmp f (s : State) : exec (.vcmp f) s = execVcmp f s := rfl
theorem exec_vsel f (s : State) : exec (.vsel f) s = execVsel f s := rfl
theorem exec_vmov f (s : State) : exec (.vmov f) s = execVmov f s := rfl
theorem exec_vmovs f (s : State) : exec (.vmovs f) s = execVmovs f s := rfl
theorem exec_vlane f (s : State) : exec (.vlane f) s = execVlane f s := rfl
theorem exec_vwrx f (s : State) : exec (.vwrx f) s = execVwrx f s := rfl
theorem exec_vrdx f (s : State) : exec (.vrdx f) s = execVrdx f s := rfl
theorem exec_vtos f (s : State) : exec (.vtos f) s = execVtos f s := rfl
theorem exec_vfadd f (s : State) : exec (.vfadd f) s = execVfadd f s := rfl
theorem exec_vfsub f (s : State) : exec (.vfsub f) s = execVfsub f s := rfl
theorem exec_vfmul f (s : State) : exec (.vfmul f) s = execVfmul f s := rfl
theorem exec_vfma f (s : State) : exec (.vfma f) s = execVfma f s := rfl
theorem exec_vfdiv f (s : State) : exec (.vfdiv f) s = execVfdiv f s := rfl
theorem exec_vfsqrt f (s : State) : exec (.vfsqrt f) s = execVfsqrt f s := rfl
theorem exec_vfmin f (s : State) : exec (.vfmin f) s = execVfmin f s := rfl
theorem exec_vfmax f (s : State) : exec (.vfmax f) s = execVfmax f s := rfl
theorem exec_vfabs f (s : State) : exec (.vfabs f) s = execVfabs f s := rfl
theorem exec_vfneg f (s : State) : exec (.vfneg f) s = execVfneg f s := rfl
theorem exec_vfcmp f (s : State) : exec (.vfcmp f) s = execVfcmp f s := rfl
theorem exec_vfclass f (s : State) : exec (.vfclass f) s = execVfclass f s := rfl
theorem exec_vfscale f (s : State) : exec (.vfscale f) s = execVfscale f s := rfl
theorem exec_vfrnd f (s : State) : exec (.vfrnd f) s = execVfrnd f s := rfl
theorem exec_vrcp f (s : State) : exec (.vrcp f) s = execVrcp f s := rfl
theorem exec_vrsq f (s : State) : exec (.vrsq f) s = execVrsq f s := rfl
theorem exec_vexp2 f (s : State) : exec (.vexp2 f) s = execVexp2 f s := rfl
theorem exec_vlog2 f (s : State) : exec (.vlog2 f) s = execVlog2 f s := rfl
theorem exec_vsinpi f (s : State) : exec (.vsinpi f) s = execVsinpi f s := rfl
theorem exec_vcospi f (s : State) : exec (.vcospi f) s = execVcospi f s := rfl
theorem exec_vtanh f (s : State) : exec (.vtanh f) s = execVtanh f s := rfl
theorem exec_vcvt f (s : State) : exec (.vcvt f) s = execVcvt f s := rfl
theorem exec_vqnt f (s : State) : exec (.vqnt f) s = execVqnt f s := rfl
theorem exec_vdqn f (s : State) : exec (.vdqn f) s = execVdqn f s := rfl
theorem exec_vaic f (s : State) : exec (.vaic f) s = execVaic f s := rfl
theorem exec_vaif f (s : State) : exec (.vaif f) s = execVaif f s := rfl
theorem exec_vrand f (s : State) : exec (.vrand f) s = execVrand f s := rfl
theorem exec_voptAdamw f (s : State) : exec (.voptAdamw f) s = execVoptAdamw f s := rfl
theorem exec_voptAdam f (s : State) : exec (.voptAdam f) s = execVoptAdam f s := rfl
theorem exec_voptLion f (s : State) : exec (.voptLion f) s = execVoptLion f s := rfl
theorem exec_voptSgd f (s : State) : exec (.voptSgd f) s = execVoptSgd f s := rfl
theorem exec_vshflIdx f (s : State) : exec (.vshflIdx f) s = execVshflIdx f s := rfl
theorem exec_vshflUp f (s : State) : exec (.vshflUp f) s = execVshflUp f s := rfl
theorem exec_vshflDown f (s : State) : exec (.vshflDown f) s = execVshflDown f s := rfl
theorem exec_vshflXor f (s : State) : exec (.vshflXor f) s = execVshflXor f s := rfl
theorem exec_vvoteAny f (s : State) : exec (.vvoteAny f) s = execVvoteAny f s := rfl
theorem exec_vvoteAll f (s : State) : exec (.vvoteAll f) s = execVvoteAll f s := rfl
theorem exec_vvoteBallot f (s : State) : exec (.vvoteBallot f) s = execVvoteBallot f s := rfl
theorem exec_vvoteUni f (s : State) : exec (.vvoteUni f) s = execVvoteUni f s := rfl
theorem exec_vredAdd f (s : State) : exec (.vredAdd f) s = execVredAdd f s := rfl
theorem exec_vredMin f (s : State) : exec (.vredMin f) s = execVredMin f s := rfl
theorem exec_vredMax f (s : State) : exec (.vredMax f) s = execVredMax f s := rfl
theorem exec_vredAnd f (s : State) : exec (.vredAnd f) s = execVredAnd f s := rfl
theorem exec_vredOr f (s : State) : exec (.vredOr f) s = execVredOr f s := rfl
theorem exec_vredXor f (s : State) : exec (.vredXor f) s = execVredXor f s := rfl
theorem exec_vscanAdd f (s : State) : exec (.vscanAdd f) s = execVscanAdd f s := rfl
theorem exec_vscanMin f (s : State) : exec (.vscanMin f) s = execVscanMin f s := rfl
theorem exec_vscanMax f (s : State) : exec (.vscanMax f) s = execVscanMax f s := rfl
theorem exec_vscanAnd f (s : State) : exec (.vscanAnd f) s = execVscanAnd f s := rfl
theorem exec_vscanOr f (s : State) : exec (.vscanOr f) s = execVscanOr f s := rfl
theorem exec_vscanXor f (s : State) : exec (.vscanXor f) s = execVscanXor f s := rfl
theorem exec_vmatchAny f (s : State) : exec (.vmatchAny f) s = execVmatchAny f s := rfl
theorem exec_vmatchAll f (s : State) : exec (.vmatchAll f) s = execVmatchAll f s := rfl
theorem exec_vld f (s : State) : exec (.vld f) s = execVld f s := rfl
theorem exec_vst f (s : State) : exec (.vst f) s = execVst f s := rfl
theorem exec_vstnb f (s : State) : exec (.vstnb f) s = execVstnb f s := rfl
theorem exec_vldt f (s : State) : exec (.vldt f) s = execVldt f s := rfl
theorem exec_vldb f (s : State) : exec (.vldb f) s = execVldb f s := rfl
theorem exec_vstb f (s : State) : exec (.vstb f) s = execVstb f s := rfl
theorem exec_vldf f (s : State) : exec (.vldf f) s = execVldf f s := rfl
theorem exec_vldfk f (s : State) : exec (.vldfk f) s = execVldfk f s := rfl
theorem exec_vste f (s : State) : exec (.vste f) s = execVste f s := rfl
theorem exec_vstf f (s : State) : exec (.vstf f) s = execVstf f s := rfl
theorem exec_vfecEmpty f (s : State) : exec (.vfecEmpty f) s = execVfecEmpty f s := rfl
theorem exec_vfecFull f (s : State) : exec (.vfecFull f) s = execVfecFull f s := rfl
theorem exec_vatomAdd f (s : State) : exec (.vatomAdd f) s = execVatomAdd f s := rfl
theorem exec_vatomMin f (s : State) : exec (.vatomMin f) s = execVatomMin f s := rfl
theorem exec_vatomMax f (s : State) : exec (.vatomMax f) s = execVatomMax f s := rfl
theorem exec_vatomAnd f (s : State) : exec (.vatomAnd f) s = execVatomAnd f s := rfl
theorem exec_vatomOr f (s : State) : exec (.vatomOr f) s = execVatomOr f s := rfl
theorem exec_vatomXor f (s : State) : exec (.vatomXor f) s = execVatomXor f s := rfl
theorem exec_vatomXchg f (s : State) : exec (.vatomXchg f) s = execVatomXchg f s := rfl
theorem exec_vatomCas f (s : State) : exec (.vatomCas f) s = execVatomCas f s := rfl
theorem exec_vatomFadd f (s : State) : exec (.vatomFadd f) s = execVatomFadd f s := rfl
theorem exec_vatomAiadd f (s : State) : exec (.vatomAiadd f) s = execVatomAiadd f s := rfl
theorem exec_vredmAdd f (s : State) : exec (.vredmAdd f) s = execVredmAdd f s := rfl
theorem exec_vredmMin f (s : State) : exec (.vredmMin f) s = execVredmMin f s := rfl
theorem exec_vredmMax f (s : State) : exec (.vredmMax f) s = execVredmMax f s := rfl
theorem exec_vredmAnd f (s : State) : exec (.vredmAnd f) s = execVredmAnd f s := rfl
theorem exec_vredmOr f (s : State) : exec (.vredmOr f) s = execVredmOr f s := rfl
theorem exec_vredmXor f (s : State) : exec (.vredmXor f) s = execVredmXor f s := rfl
theorem exec_vredmFadd f (s : State) : exec (.vredmFadd f) s = execVredmFadd f s := rfl
theorem exec_vredmAiadd f (s : State) : exec (.vredmAiadd f) s = execVredmAiadd f s := rfl
theorem exec_vrld f (s : State) : exec (.vrld f) s = execVrld f s := rfl
theorem exec_vlalLeaf f (s : State) : exec (.vlalLeaf f) s = execVlalLeaf f s := rfl
theorem exec_vlalNode f (s : State) : exec (.vlalNode f) s = execVlalNode f s := rfl
theorem exec_vlkp f (s : State) : exec (.vlkp f) s = execVlkp f s := rfl
theorem exec_mma f (s : State) : exec (.mma f) s = execMma f s := rfl
theorem exec_mmas f (s : State) : exec (.mmas f) s = execMmas f s := rfl
theorem exec_mperm f (s : State) : exec (.mperm f) s = execMperm f s := rfl
theorem exec_mzero f (s : State) : exec (.mzero f) s = execMzero f s := rfl
theorem exec_mlda f (s : State) : exec (.mlda f) s = execMlda f s := rfl
theorem exec_msta f (s : State) : exec (.msta f) s = execMsta f s := rfl
theorem exec_mcpySt f (s : State) : exec (.mcpySt f) s = execMcpySt f s := rfl
theorem exec_mcpyLd f (s : State) : exec (.mcpyLd f) s = execMcpyLd f s := rfl
theorem exec_matrixExecute core residue (s : State) : exec (.matrixExecute core residue) s = execMatrixExecute core residue s := rfl
theorem exec_batchRetire g (s : State) : exec (.batchRetire g) s = execBatchRetire g s := rfl
theorem exec_loadDataReturn g k (s : State) : exec (.loadDataReturn g k) s = execLoadDataReturn g k s := rfl
theorem exec_storeQueueDrain g (s : State) : exec (.storeQueueDrain g) s = execStoreQueueDrain g s := rfl
theorem exec_storeBudgetWindow team (s : State) : exec (.storeBudgetWindow team) s = execStoreBudgetWindow team s := rfl
theorem exec_stbpTimeout g slot (s : State) : exec (.stbpTimeout g slot) s = execStbpTimeout g slot s := rfl
theorem exec_fetmoTimeout g (s : State) : exec (.fetmoTimeout g) s = execFetmoTimeout g s := rfl
theorem exec_sleepExpiry g slotB (s : State) : exec (.sleepExpiry g slotB) s = execSleepExpiry g slotB s := rfl
theorem exec_loadQuotaWindow core (s : State) : exec (.loadQuotaWindow core) s = execLoadQuotaWindow core s := rfl
theorem exec_trapDelivery g (s : State) : exec (.trapDelivery g) s = execTrapDelivery g s := rfl
theorem exec_taskQueuePlace hcl (s : State) : exec (.taskQueuePlace hcl) s = execTaskQueuePlace hcl s := rfl
theorem exec_launchComplete ticket (s : State) : exec (.launchComplete ticket) s = execLaunchComplete ticket s := rfl
theorem exec_cpyStart hcl ticket (s : State) : exec (.cpyStart hcl ticket) s = execCpyStart hcl ticket s := rfl
theorem exec_cpyRetire hcl ticket (s : State) : exec (.cpyRetire hcl ticket) s = execCpyRetire hcl ticket s := rfl
theorem exec_caoutWalk hcl ticket (s : State) : exec (.caoutWalk hcl ticket) s = execCaoutWalk hcl ticket s := rfl
theorem exec_graphNodeFinish die ticket node (s : State) : exec (.graphNodeFinish die ticket node) s = execGraphNodeFinish die ticket node s := rfl
theorem exec_atomicPacket hcl (s : State) : exec (.atomicPacket hcl) s = execAtomicPacket hcl s := rfl
theorem exec_reclaimLine (s : State) : exec .reclaimLine s = execReclaimLine s := rfl
theorem exec_tableWalkComplete k (s : State) : exec (.tableWalkComplete k) s = execTableWalkComplete k s := rfl
theorem exec_atsTranslationCompletion id reply (s : State) : exec (.atsTranslationCompletion id reply) s = execAtsTranslationCompletion id reply s := rfl
theorem exec_atsInvalidationRequest pasid va size (s : State) : exec (.atsInvalidationRequest pasid va size) s = execAtsInvalidationRequest pasid va size s := rfl
theorem exec_priResponse id success (s : State) : exec (.priResponse id success) s = execPriResponse id success s := rfl
theorem exec_invalidateCommand value (s : State) : exec (.invalidateCommand value) s = execInvalidateCommand value s := rfl
theorem exec_invalidateDone (s : State) : exec .invalidateDone s = execInvalidateDone s := rfl
theorem exec_regionCommit k (s : State) : exec (.regionCommit k) s = execRegionCommit k s := rfl
theorem exec_regionCommitDone k (s : State) : exec (.regionCommitDone k) s = execRegionCommitDone k s := rfl
theorem exec_pageFaultRetry id (s : State) : exec (.pageFaultRetry id) s = execPageFaultRetry id s := rfl
theorem exec_pageFaultRefuse id (s : State) : exec (.pageFaultRefuse id) s = execPageFaultRefuse id s := rfl
theorem exec_faultQueueHeadWrite value (s : State) : exec (.faultQueueHeadWrite value) s = execFaultQueueHeadWrite value s := rfl
theorem exec_hotIntervalEnd (s : State) : exec .hotIntervalEnd s = execHotIntervalEnd s := rfl
theorem exec_preemptCommand ctx (s : State) : exec (.preemptCommand ctx) s = execPreemptCommand ctx s := rfl
theorem exec_resumeCommand ctx (s : State) : exec (.resumeCommand ctx) s = execResumeCommand ctx s := rfl
theorem exec_phaseLimitExpiry ctx (s : State) : exec (.phaseLimitExpiry ctx) s = execPhaseLimitExpiry ctx s := rfl
theorem exec_hostBar2Read addr n (s : State) : exec (.hostBar2Read addr n) s = execHostBar2Read addr n s := rfl
theorem exec_hostBar2Write addr data (s : State) : exec (.hostBar2Write addr data) s = execHostBar2Write addr data s := rfl
theorem exec_doorbell value (s : State) : exec (.doorbell value) s = execDoorbell value s := rfl
theorem exec_invocationReceive src record (s : State) : exec (.invocationReceive src record) s = execInvocationReceive src record s := rfl
theorem exec_invocationDispatch (s : State) : exec .invocationDispatch s = execInvocationDispatch s := rfl
theorem exec_invocationAnswer ticket answer (s : State) : exec (.invocationAnswer ticket answer) s = execInvocationAnswer ticket answer s := rfl
theorem exec_rinvRetryTimer g ticket (s : State) : exec (.rinvRetryTimer g ticket) s = execRinvRetryTimer g ticket s := rfl
theorem exec_launchxMemberRequest req (s : State) : exec (.launchxMemberRequest req) s = execLaunchxMemberRequest req s := rfl
theorem exec_joinDoorbell addr (s : State) : exec (.joinDoorbell addr) s = execJoinDoorbell addr s := rfl
theorem exec_pullStart (s : State) : exec .pullStart s = execPullStart s := rfl
theorem exec_pullLineReply reply (s : State) : exec (.pullLineReply reply) s = execPullLineReply reply s := rfl
theorem exec_lineRequest src name region (s : State) : exec (.lineRequest src name region) s = execLineRequest src name region s := rfl
theorem exec_flitReceive port flit fecOk (s : State) : exec (.flitReceive port flit fecOk) s = execFlitReceive port flit fecOk s := rfl
theorem exec_replayRequest port last (s : State) : exec (.replayRequest port last) s = execReplayRequest port last s := rfl
theorem exec_linkAckTimeout port (s : State) : exec (.linkAckTimeout port) s = execLinkAckTimeout port s := rfl
theorem exec_portEnable port (s : State) : exec (.portEnable port) s = execPortEnable port s := rfl
theorem exec_portRetrain port (s : State) : exec (.portRetrain port) s = execPortRetrain port s := rfl
theorem exec_portLaneFail port lane (s : State) : exec (.portLaneFail port lane) s = execPortLaneFail port lane s := rfl
theorem exec_portTrainingDone port pass (s : State) : exec (.portTrainingDone port pass) s = execPortTrainingDone port pass s := rfl
theorem exec_collChunkSend port (s : State) : exec (.collChunkSend port) s = execCollChunkSend port s := rfl
theorem exec_collChunkReceive chunk (s : State) : exec (.collChunkReceive chunk) s = execCollChunkReceive chunk s := rfl
theorem exec_stalegenControl c (s : State) : exec (.stalegenControl c) s = execStalegenControl c s := rfl
theorem exec_collRetire c ticket (s : State) : exec (.collRetire c ticket) s = execCollRetire c ticket s := rfl
theorem exec_beaconSend (s : State) : exec .beaconSend s = execBeaconSend s := rfl
theorem exec_beaconReceive dir src gen (s : State) : exec (.beaconReceive dir src gen) s = execBeaconReceive dir src gen s := rfl
theorem exec_monitorWindowEnd dir (s : State) : exec (.monitorWindowEnd dir) s = execMonitorWindowEnd dir s := rfl
theorem exec_suspicionReport reporter named (s : State) : exec (.suspicionReport reporter named) s = execSuspicionReport reporter named s := rfl
theorem exec_suspicionWithdrawal reporter named (s : State) : exec (.suspicionWithdrawal reporter named) s = execSuspicionWithdrawal reporter named s := rfl
theorem exec_membershipUpdate gen dev (s : State) : exec (.membershipUpdate gen dev) s = execMembershipUpdate gen dev s := rfl
theorem exec_adoptGo value (s : State) : exec (.adoptGo value) s = execAdoptGo value s := rfl
theorem exec_joinRequest dev (s : State) : exec (.joinRequest dev) s = execJoinRequest dev s := rfl
theorem exec_joinAnswer admitted gen (s : State) : exec (.joinAnswer admitted gen) s = execJoinAnswer admitted gen s := rfl
theorem exec_adoptTimeout (s : State) : exec .adoptTimeout s = execAdoptTimeout s := rfl
theorem exec_secpolEval g (s : State) : exec (.secpolEval g) s = execSecpolEval g s := rfl
theorem exec_riskUpdate risk (s : State) : exec (.riskUpdate risk) s = execRiskUpdate risk s := rfl
theorem exec_powerControl watts (s : State) : exec (.powerControl watts) s = execPowerControl watts s := rfl
theorem exec_thermalShutdown die (s : State) : exec (.thermalShutdown die) s = execThermalShutdown die s := rfl
theorem exec_pwrlimWrite value (s : State) : exec (.pwrlimWrite value) s = execPwrlimWrite value s := rfl
theorem exec_powerOn (s : State) : exec .powerOn s = execPowerOn s := rfl
theorem exec_perst (s : State) : exec .perst s = execPerst s := rfl
theorem exec_startCold (s : State) : exec .startCold s = execStartCold s := rfl
theorem exec_startWarm (s : State) : exec .startWarm s = execStartWarm s := rfl
theorem exec_startLoad (s : State) : exec .startLoad s = execStartLoad s := rfl
theorem exec_bootTrainDone (s : State) : exec .bootTrainDone s = execBootTrainDone s := rfl
theorem exec_bootBistDone (s : State) : exec .bootBistDone s = execBootBistDone s := rfl
theorem exec_bootZeroDone (s : State) : exec .bootZeroDone s = execBootZeroDone s := rfl
theorem exec_attestationRequest nonce (s : State) : exec (.attestationRequest nonce) s = execAttestationRequest nonce s := rfl
theorem exec_configWrite offset value (s : State) : exec (.configWrite offset value) s = execConfigWrite offset value s := rfl
theorem exec_retentClear j (s : State) : exec (.retentClear j) s = execRetentClear j s := rfl
theorem exec_correctedError err (s : State) : exec (.correctedError err) s = execCorrectedError err s := rfl
theorem exec_llcUncorrectable err (s : State) : exec (.llcUncorrectable err) s = execLlcUncorrectable err s := rfl
theorem exec_hbmUncorrectable err (s : State) : exec (.hbmUncorrectable err) s = execHbmUncorrectable err s := rfl
theorem exec_poolUncorrectable err (s : State) : exec (.poolUncorrectable err) s = execPoolUncorrectable err s := rfl
theorem exec_latestUpdateRequest dev (s : State) : exec (.latestUpdateRequest dev) s = execLatestUpdateRequest dev s := rfl
theorem exec_admissionNotice dev (s : State) : exec (.admissionNotice dev) s = execAdmissionNotice dev s := rfl
theorem exec_replicaReadRequest req (s : State) : exec (.replicaReadRequest req) s = execReplicaReadRequest req s := rfl
theorem exec_ieee1588ClockStep seconds nanos (s : State) : exec (.ieee1588ClockStep seconds nanos) s = execIeee1588ClockStep seconds nanos s := rfl
theorem exec_pcieReadCompletion g (s : State) : exec (.pcieReadCompletion g) s = execPcieReadCompletion g s := rfl
theorem exec_sectorWriteBack sector (s : State) : exec (.sectorWriteBack sector) s = execSectorWriteBack sector s := rfl

end Sys2Proof.Laws
end

