-- ==== Sys2Proof/Laws/Sparse.lean ====
section
/-! SUPPORT. Reading after writing a finite map, and the canonical form that every map operation keeps. -/

namespace Sys2Proof.Laws

open Sys2Proof.Machine

variable {α : Type}

@[simp] theorem sparse_get_nil (d : α) (k : Nat) : Sparse.get d [] k = d := rfl
@[simp] theorem sparse_find_nil (k : Nat) : Sparse.find ([] : Sparse α) k = none := rfl

@[simp] theorem sparse_get_put_same (d : α) (m : Sparse α) (k : Nat) (v : α) : Sparse.get d (Sparse.put m k v) k = v := by
  induction m with
  | nil => simp [Sparse.put, Sparse.get]
  | cons e rest ih => obtain ⟨i, w⟩ := e; simp only [Sparse.put]; split <;> (try split) <;> simp_all [Sparse.get]

theorem sparse_get_put_other (d : α) (m : Sparse α) {k j : Nat} (v : α) (h : j ≠ k) :
    Sparse.get d (Sparse.put m k v) j = Sparse.get d m j := by
  induction m with
  | nil => simp [Sparse.put, Sparse.get, h]
  | cons e rest ih =>
    obtain ⟨i, w⟩ := e
    simp only [Sparse.put]
    split
    · simp_all [Sparse.get]
    · split <;> simp_all [Sparse.get]

@[simp] theorem sparse_find_put_same (m : Sparse α) (k : Nat) (v : α) : Sparse.find (Sparse.put m k v) k = some v := by
  induction m with
  | nil => simp [Sparse.put, Sparse.find]
  | cons e rest ih => obtain ⟨i, w⟩ := e; simp only [Sparse.put]; split <;> (try split) <;> simp_all [Sparse.find]

theorem sparse_find_put_other (m : Sparse α) {k j : Nat} (v : α) (h : j ≠ k) :
    Sparse.find (Sparse.put m k v) j = Sparse.find m j := by
  induction m with
  | nil => simp [Sparse.put, Sparse.find, h]
  | cons e rest ih =>
    obtain ⟨i, w⟩ := e
    simp only [Sparse.put]
    split
    · simp_all [Sparse.find]
    · split <;> simp_all [Sparse.find]

@[simp] theorem sparse_get_erase_same (d : α) (m : Sparse α) (k : Nat) : Sparse.get d (Sparse.erase m k) k = d := by
  induction m with
  | nil => rfl
  | cons e rest ih => obtain ⟨i, w⟩ := e; simp only [Sparse.erase]; split <;> simp_all [Sparse.get]

theorem sparse_get_erase_other (d : α) (m : Sparse α) {k j : Nat} (h : j ≠ k) :
    Sparse.get d (Sparse.erase m k) j = Sparse.get d m j := by
  induction m with
  | nil => rfl
  | cons e rest ih => obtain ⟨i, w⟩ := e; simp only [Sparse.erase]; split <;> simp_all [Sparse.get]

@[simp] theorem sparse_find_erase_same (m : Sparse α) (k : Nat) : Sparse.find (Sparse.erase m k) k = none := by
  induction m with
  | nil => rfl
  | cons e rest ih => obtain ⟨i, w⟩ := e; simp only [Sparse.erase]; split <;> simp_all [Sparse.find]

theorem sparse_find_erase_other (m : Sparse α) {k j : Nat} (h : j ≠ k) :
    Sparse.find (Sparse.erase m k) j = Sparse.find m j := by
  induction m with
  | nil => rfl
  | cons e rest ih => obtain ⟨i, w⟩ := e; simp only [Sparse.erase]; split <;> simp_all [Sparse.find]

/-! ### The canonical form -/

theorem sparse_above_mono {m : Sparse α} {i j : Nat} (h : i ≤ j) (a : Sparse.above j m = true) : Sparse.above i m = true := by
  cases m with
  | nil => rfl
  | cons e rest =>
    obtain ⟨n, w⟩ := e
    simp only [Sparse.above, Bool.and_eq_true, decide_eq_true_eq] at *
    exact ⟨by omega, a.2⟩

theorem sparse_above_put {m : Sparse α} {i k : Nat} {v : α} (h : i < k) (a : Sparse.above i m = true) :
    Sparse.above i (Sparse.put m k v) = true := by
  induction m generalizing i with
  | nil => simp [Sparse.put, Sparse.above, h]
  | cons e rest ih =>
    obtain ⟨j, w⟩ := e
    simp only [Sparse.above, Bool.and_eq_true, decide_eq_true_eq] at a
    simp only [Sparse.put]
    split
    · next e => subst e; simp [Sparse.above, h, a.2]
    · split
      · next lt => simp [Sparse.above, h, lt, a.2]
      · simp only [Sparse.above, Bool.and_eq_true, decide_eq_true_eq]
        exact ⟨a.1, ih (by omega) a.2⟩

theorem sparse_above_erase {m : Sparse α} {i k : Nat} (a : Sparse.above i m = true) : Sparse.above i (Sparse.erase m k) = true := by
  induction m generalizing i with
  | nil => rfl
  | cons e rest ih =>
    obtain ⟨j, w⟩ := e
    simp only [Sparse.above, Bool.and_eq_true, decide_eq_true_eq] at a
    simp only [Sparse.erase]
    split
    · exact ih (sparse_above_mono (by omega) a.2)
    · simp only [Sparse.above, Bool.and_eq_true, decide_eq_true_eq]; exact ⟨a.1, ih a.2⟩

theorem sparse_sorted_put {m : Sparse α} {k : Nat} {v : α} (a : Sparse.sorted m = true) : Sparse.sorted (Sparse.put m k v) = true := by
  cases m with
  | nil => rfl
  | cons e rest =>
    obtain ⟨j, w⟩ := e
    simp only [Sparse.sorted] at a
    simp only [Sparse.put]
    split
    · next e => subst e; exact a
    · split
      · next lt => simp [Sparse.sorted, Sparse.above, lt, a]
      · exact sparse_above_put (by omega) a

theorem sparse_sorted_erase {m : Sparse α} {k : Nat} (a : Sparse.sorted m = true) : Sparse.sorted (Sparse.erase m k) = true := by
  induction m with
  | nil => rfl
  | cons e rest ih =>
    obtain ⟨j, w⟩ := e
    simp only [Sparse.sorted] at a
    simp only [Sparse.erase]
    split
    · apply ih; cases rest with
      | nil => rfl
      | cons e r => simp only [Sparse.above, Bool.and_eq_true, decide_eq_true_eq] at a; exact a.2
    · exact sparse_above_erase a

theorem sparse_all_put {m : Sparse α} {k : Nat} {v : α} {p : Nat × α → Bool} (a : m.all p = true) (h : p (k, v) = true) :
    (Sparse.put m k v).all p = true := by
  induction m with
  | nil => simp [Sparse.put, h]
  | cons e rest ih =>
    obtain ⟨j, w⟩ := e
    simp only [List.all_cons, Bool.and_eq_true] at a
    simp only [Sparse.put]
    split
    · simp only [List.all_cons, Bool.and_eq_true]; exact ⟨h, a.2⟩
    · split
      · simp only [List.all_cons, Bool.and_eq_true]; exact ⟨h, a⟩
      · simp only [List.all_cons, Bool.and_eq_true]; exact ⟨a.1, ih a.2⟩

theorem sparse_all_erase {m : Sparse α} {k : Nat} {p : Nat × α → Bool} (a : m.all p = true) :
    (Sparse.erase m k).all p = true := by
  induction m with
  | nil => rfl
  | cons e rest ih =>
    obtain ⟨j, w⟩ := e
    simp only [List.all_cons, Bool.and_eq_true] at a
    simp only [Sparse.erase]
    split
    · exact ih a.2
    · simp only [List.all_cons, Bool.and_eq_true]; exact ⟨a.1, ih a.2⟩

variable [DecidableEq α]

@[simp] theorem sparse_get_set_same (d : α) (m : Sparse α) (k : Nat) (v : α) : Sparse.get d (Sparse.set d m k v) k = v := by
  unfold Sparse.set; split <;> simp_all

theorem sparse_get_set_other (d : α) (m : Sparse α) {k j : Nat} (v : α) (h : j ≠ k) :
    Sparse.get d (Sparse.set d m k v) j = Sparse.get d m j := by
  unfold Sparse.set; split
  · exact sparse_get_erase_other d m h
  · exact sparse_get_put_other d m v h

/-- Writing one key keeps the canonical form. -/
theorem sparse_wf_set (d : α) {m : Sparse α} (k : Nat) (v : α) (a : Sparse.wf d m = true) :
    Sparse.wf d (Sparse.set d m k v) = true := by
  simp only [Sparse.wf, Bool.and_eq_true] at *
  unfold Sparse.set
  split
  · exact ⟨sparse_sorted_erase a.1, sparse_all_erase a.2⟩
  · next h => exact ⟨sparse_sorted_put a.1, sparse_all_put a.2 (by simpa using h)⟩

/-! ### Memory -/

/-- A byte reads as last written. -/
@[simp] theorem memory_read_write_same (m : Memory) (a : Nat) (v : Byte) : (m.write a v).read a = v :=
  sparse_get_set_same Memory.blank m a v

/-- A write leaves every other byte alone. -/
theorem memory_read_write_other (m : Memory) {a b : Nat} (v : Byte) (h : b ≠ a) : (m.write a v).read b = m.read b :=
  sparse_get_set_other Memory.blank m v h

/-- Writing one byte keeps the canonical form. -/
theorem memory_wf_write {m : Memory} (a : Nat) (v : Byte) (h : m.wf = true) : (m.write a v).wf = true :=
  sparse_wf_set Memory.blank a v h

end Sys2Proof.Laws
end

