-- ==== Sys2Proof/Laws/State.lean ====
section
/-! SUPPORT. What each named update of the state changes and what it leaves: one lemma for each field and update, true by
unfolding, so that no later proof unfolds a record update. -/

namespace Sys2Proof.Laws

open Sys2Proof.Machine

/-! `State.setGroup` changes `groups` alone. -/

@[simp] theorem setGroup_ck (s : State) (g : Nat) (x : Group) : (s.setGroup g x).ck = s.ck := rfl
@[simp] theorem setGroup_turns (s : State) (g : Nat) (x : Group) : (s.setGroup g x).turns = s.turns := rfl
@[simp] theorem setGroup_cur (s : State) (g : Nat) (x : Group) : (s.setGroup g x).cur = s.cur := rfl
@[simp] theorem setGroup_cores (s : State) (g : Nat) (x : Group) : (s.setGroup g x).cores = s.cores := rfl
@[simp] theorem setGroup_hcls (s : State) (g : Nat) (x : Group) : (s.setGroup g x).hcls = s.hcls := rfl
@[simp] theorem setGroup_dies (s : State) (g : Nat) (x : Group) : (s.setGroup g x).dies = s.dies := rfl
@[simp] theorem setGroup_mem (s : State) (g : Nat) (x : Group) : (s.setGroup g x).mem = s.mem := rfl
@[simp] theorem setGroup_dark (s : State) (g : Nat) (x : Group) : (s.setGroup g x).dark = s.dark := rfl
@[simp] theorem setGroup_darkPoison (s : State) (g : Nat) (x : Group) : (s.setGroup g x).darkPoison = s.darkPoison := rfl
@[simp] theorem setGroup_llc (s : State) (g : Nat) (x : Group) : (s.setGroup g x).llc = s.llc := rfl
@[simp] theorem setGroup_vm (s : State) (g : Nat) (x : Group) : (s.setGroup g x).vm = s.vm := rfl
@[simp] theorem setGroup_sched (s : State) (g : Nat) (x : Group) : (s.setGroup g x).sched = s.sched := rfl
@[simp] theorem setGroup_dir (s : State) (g : Nat) (x : Group) : (s.setGroup g x).dir = s.dir := rfl
@[simp] theorem setGroup_fabric (s : State) (g : Nat) (x : Group) : (s.setGroup g x).fabric = s.fabric := rfl
@[simp] theorem setGroup_coll (s : State) (g : Nat) (x : Group) : (s.setGroup g x).coll = s.coll := rfl
@[simp] theorem setGroup_inv (s : State) (g : Nat) (x : Group) : (s.setGroup g x).inv = s.inv := rfl
@[simp] theorem setGroup_member (s : State) (g : Nat) (x : Group) : (s.setGroup g x).member = s.member := rfl
@[simp] theorem setGroup_host (s : State) (g : Nat) (x : Group) : (s.setGroup g x).host = s.host := rfl
@[simp] theorem setGroup_boot (s : State) (g : Nat) (x : Group) : (s.setGroup g x).boot = s.boot := rfl
@[simp] theorem setGroup_ras (s : State) (g : Nat) (x : Group) : (s.setGroup g x).ras = s.ras := rfl
@[simp] theorem setGroup_hot (s : State) (g : Nat) (x : Group) : (s.setGroup g x).hot = s.hot := rfl
@[simp] theorem setGroup_free (s : State) (g : Nat) (x : Group) : (s.setGroup g x).free = s.free := rfl

/-! `State.setCore` changes `cores` alone. -/

@[simp] theorem setCore_ck (s : State) (c : Nat) (x : Core) : (s.setCore c x).ck = s.ck := rfl
@[simp] theorem setCore_turns (s : State) (c : Nat) (x : Core) : (s.setCore c x).turns = s.turns := rfl
@[simp] theorem setCore_cur (s : State) (c : Nat) (x : Core) : (s.setCore c x).cur = s.cur := rfl
@[simp] theorem setCore_groups (s : State) (c : Nat) (x : Core) : (s.setCore c x).groups = s.groups := rfl
@[simp] theorem setCore_hcls (s : State) (c : Nat) (x : Core) : (s.setCore c x).hcls = s.hcls := rfl
@[simp] theorem setCore_dies (s : State) (c : Nat) (x : Core) : (s.setCore c x).dies = s.dies := rfl
@[simp] theorem setCore_mem (s : State) (c : Nat) (x : Core) : (s.setCore c x).mem = s.mem := rfl
@[simp] theorem setCore_dark (s : State) (c : Nat) (x : Core) : (s.setCore c x).dark = s.dark := rfl
@[simp] theorem setCore_darkPoison (s : State) (c : Nat) (x : Core) : (s.setCore c x).darkPoison = s.darkPoison := rfl
@[simp] theorem setCore_llc (s : State) (c : Nat) (x : Core) : (s.setCore c x).llc = s.llc := rfl
@[simp] theorem setCore_vm (s : State) (c : Nat) (x : Core) : (s.setCore c x).vm = s.vm := rfl
@[simp] theorem setCore_sched (s : State) (c : Nat) (x : Core) : (s.setCore c x).sched = s.sched := rfl
@[simp] theorem setCore_dir (s : State) (c : Nat) (x : Core) : (s.setCore c x).dir = s.dir := rfl
@[simp] theorem setCore_fabric (s : State) (c : Nat) (x : Core) : (s.setCore c x).fabric = s.fabric := rfl
@[simp] theorem setCore_coll (s : State) (c : Nat) (x : Core) : (s.setCore c x).coll = s.coll := rfl
@[simp] theorem setCore_inv (s : State) (c : Nat) (x : Core) : (s.setCore c x).inv = s.inv := rfl
@[simp] theorem setCore_member (s : State) (c : Nat) (x : Core) : (s.setCore c x).member = s.member := rfl
@[simp] theorem setCore_host (s : State) (c : Nat) (x : Core) : (s.setCore c x).host = s.host := rfl
@[simp] theorem setCore_boot (s : State) (c : Nat) (x : Core) : (s.setCore c x).boot = s.boot := rfl
@[simp] theorem setCore_ras (s : State) (c : Nat) (x : Core) : (s.setCore c x).ras = s.ras := rfl
@[simp] theorem setCore_hot (s : State) (c : Nat) (x : Core) : (s.setCore c x).hot = s.hot := rfl
@[simp] theorem setCore_free (s : State) (c : Nat) (x : Core) : (s.setCore c x).free = s.free := rfl

/-! `State.setHcl` changes `hcls` alone. -/

@[simp] theorem setHcl_ck (s : State) (h : Nat) (x : Hcl) : (s.setHcl h x).ck = s.ck := rfl
@[simp] theorem setHcl_turns (s : State) (h : Nat) (x : Hcl) : (s.setHcl h x).turns = s.turns := rfl
@[simp] theorem setHcl_cur (s : State) (h : Nat) (x : Hcl) : (s.setHcl h x).cur = s.cur := rfl
@[simp] theorem setHcl_groups (s : State) (h : Nat) (x : Hcl) : (s.setHcl h x).groups = s.groups := rfl
@[simp] theorem setHcl_cores (s : State) (h : Nat) (x : Hcl) : (s.setHcl h x).cores = s.cores := rfl
@[simp] theorem setHcl_dies (s : State) (h : Nat) (x : Hcl) : (s.setHcl h x).dies = s.dies := rfl
@[simp] theorem setHcl_mem (s : State) (h : Nat) (x : Hcl) : (s.setHcl h x).mem = s.mem := rfl
@[simp] theorem setHcl_dark (s : State) (h : Nat) (x : Hcl) : (s.setHcl h x).dark = s.dark := rfl
@[simp] theorem setHcl_darkPoison (s : State) (h : Nat) (x : Hcl) : (s.setHcl h x).darkPoison = s.darkPoison := rfl
@[simp] theorem setHcl_llc (s : State) (h : Nat) (x : Hcl) : (s.setHcl h x).llc = s.llc := rfl
@[simp] theorem setHcl_vm (s : State) (h : Nat) (x : Hcl) : (s.setHcl h x).vm = s.vm := rfl
@[simp] theorem setHcl_sched (s : State) (h : Nat) (x : Hcl) : (s.setHcl h x).sched = s.sched := rfl
@[simp] theorem setHcl_dir (s : State) (h : Nat) (x : Hcl) : (s.setHcl h x).dir = s.dir := rfl
@[simp] theorem setHcl_fabric (s : State) (h : Nat) (x : Hcl) : (s.setHcl h x).fabric = s.fabric := rfl
@[simp] theorem setHcl_coll (s : State) (h : Nat) (x : Hcl) : (s.setHcl h x).coll = s.coll := rfl
@[simp] theorem setHcl_inv (s : State) (h : Nat) (x : Hcl) : (s.setHcl h x).inv = s.inv := rfl
@[simp] theorem setHcl_member (s : State) (h : Nat) (x : Hcl) : (s.setHcl h x).member = s.member := rfl
@[simp] theorem setHcl_host (s : State) (h : Nat) (x : Hcl) : (s.setHcl h x).host = s.host := rfl
@[simp] theorem setHcl_boot (s : State) (h : Nat) (x : Hcl) : (s.setHcl h x).boot = s.boot := rfl
@[simp] theorem setHcl_ras (s : State) (h : Nat) (x : Hcl) : (s.setHcl h x).ras = s.ras := rfl
@[simp] theorem setHcl_hot (s : State) (h : Nat) (x : Hcl) : (s.setHcl h x).hot = s.hot := rfl
@[simp] theorem setHcl_free (s : State) (h : Nat) (x : Hcl) : (s.setHcl h x).free = s.free := rfl

/-! `State.setDie` changes `dies` alone. -/

@[simp] theorem setDie_ck (s : State) (d : Nat) (x : Die) : (s.setDie d x).ck = s.ck := rfl
@[simp] theorem setDie_turns (s : State) (d : Nat) (x : Die) : (s.setDie d x).turns = s.turns := rfl
@[simp] theorem setDie_cur (s : State) (d : Nat) (x : Die) : (s.setDie d x).cur = s.cur := rfl
@[simp] theorem setDie_groups (s : State) (d : Nat) (x : Die) : (s.setDie d x).groups = s.groups := rfl
@[simp] theorem setDie_cores (s : State) (d : Nat) (x : Die) : (s.setDie d x).cores = s.cores := rfl
@[simp] theorem setDie_hcls (s : State) (d : Nat) (x : Die) : (s.setDie d x).hcls = s.hcls := rfl
@[simp] theorem setDie_mem (s : State) (d : Nat) (x : Die) : (s.setDie d x).mem = s.mem := rfl
@[simp] theorem setDie_dark (s : State) (d : Nat) (x : Die) : (s.setDie d x).dark = s.dark := rfl
@[simp] theorem setDie_darkPoison (s : State) (d : Nat) (x : Die) : (s.setDie d x).darkPoison = s.darkPoison := rfl
@[simp] theorem setDie_llc (s : State) (d : Nat) (x : Die) : (s.setDie d x).llc = s.llc := rfl
@[simp] theorem setDie_vm (s : State) (d : Nat) (x : Die) : (s.setDie d x).vm = s.vm := rfl
@[simp] theorem setDie_sched (s : State) (d : Nat) (x : Die) : (s.setDie d x).sched = s.sched := rfl
@[simp] theorem setDie_dir (s : State) (d : Nat) (x : Die) : (s.setDie d x).dir = s.dir := rfl
@[simp] theorem setDie_fabric (s : State) (d : Nat) (x : Die) : (s.setDie d x).fabric = s.fabric := rfl
@[simp] theorem setDie_coll (s : State) (d : Nat) (x : Die) : (s.setDie d x).coll = s.coll := rfl
@[simp] theorem setDie_inv (s : State) (d : Nat) (x : Die) : (s.setDie d x).inv = s.inv := rfl
@[simp] theorem setDie_member (s : State) (d : Nat) (x : Die) : (s.setDie d x).member = s.member := rfl
@[simp] theorem setDie_host (s : State) (d : Nat) (x : Die) : (s.setDie d x).host = s.host := rfl
@[simp] theorem setDie_boot (s : State) (d : Nat) (x : Die) : (s.setDie d x).boot = s.boot := rfl
@[simp] theorem setDie_ras (s : State) (d : Nat) (x : Die) : (s.setDie d x).ras = s.ras := rfl
@[simp] theorem setDie_hot (s : State) (d : Nat) (x : Die) : (s.setDie d x).hot = s.hot := rfl
@[simp] theorem setDie_free (s : State) (d : Nat) (x : Die) : (s.setDie d x).free = s.free := rfl

/-! `State.setMe` changes `groups` alone. -/

@[simp] theorem setMe_ck (s : State) (x : Group) : (s.setMe x).ck = s.ck := rfl
@[simp] theorem setMe_turns (s : State) (x : Group) : (s.setMe x).turns = s.turns := rfl
@[simp] theorem setMe_cur (s : State) (x : Group) : (s.setMe x).cur = s.cur := rfl
@[simp] theorem setMe_cores (s : State) (x : Group) : (s.setMe x).cores = s.cores := rfl
@[simp] theorem setMe_hcls (s : State) (x : Group) : (s.setMe x).hcls = s.hcls := rfl
@[simp] theorem setMe_dies (s : State) (x : Group) : (s.setMe x).dies = s.dies := rfl
@[simp] theorem setMe_mem (s : State) (x : Group) : (s.setMe x).mem = s.mem := rfl
@[simp] theorem setMe_dark (s : State) (x : Group) : (s.setMe x).dark = s.dark := rfl
@[simp] theorem setMe_darkPoison (s : State) (x : Group) : (s.setMe x).darkPoison = s.darkPoison := rfl
@[simp] theorem setMe_llc (s : State) (x : Group) : (s.setMe x).llc = s.llc := rfl
@[simp] theorem setMe_vm (s : State) (x : Group) : (s.setMe x).vm = s.vm := rfl
@[simp] theorem setMe_sched (s : State) (x : Group) : (s.setMe x).sched = s.sched := rfl
@[simp] theorem setMe_dir (s : State) (x : Group) : (s.setMe x).dir = s.dir := rfl
@[simp] theorem setMe_fabric (s : State) (x : Group) : (s.setMe x).fabric = s.fabric := rfl
@[simp] theorem setMe_coll (s : State) (x : Group) : (s.setMe x).coll = s.coll := rfl
@[simp] theorem setMe_inv (s : State) (x : Group) : (s.setMe x).inv = s.inv := rfl
@[simp] theorem setMe_member (s : State) (x : Group) : (s.setMe x).member = s.member := rfl
@[simp] theorem setMe_host (s : State) (x : Group) : (s.setMe x).host = s.host := rfl
@[simp] theorem setMe_boot (s : State) (x : Group) : (s.setMe x).boot = s.boot := rfl
@[simp] theorem setMe_ras (s : State) (x : Group) : (s.setMe x).ras = s.ras := rfl
@[simp] theorem setMe_hot (s : State) (x : Group) : (s.setMe x).hot = s.hot := rfl
@[simp] theorem setMe_free (s : State) (x : Group) : (s.setMe x).free = s.free := rfl

/-! `State.setSl` changes `groups` alone. -/

@[simp] theorem setSl_ck (s : State) (y : Slot) : (s.setSl y).ck = s.ck := rfl
@[simp] theorem setSl_turns (s : State) (y : Slot) : (s.setSl y).turns = s.turns := rfl
@[simp] theorem setSl_cur (s : State) (y : Slot) : (s.setSl y).cur = s.cur := rfl
@[simp] theorem setSl_cores (s : State) (y : Slot) : (s.setSl y).cores = s.cores := rfl
@[simp] theorem setSl_hcls (s : State) (y : Slot) : (s.setSl y).hcls = s.hcls := rfl
@[simp] theorem setSl_dies (s : State) (y : Slot) : (s.setSl y).dies = s.dies := rfl
@[simp] theorem setSl_mem (s : State) (y : Slot) : (s.setSl y).mem = s.mem := rfl
@[simp] theorem setSl_dark (s : State) (y : Slot) : (s.setSl y).dark = s.dark := rfl
@[simp] theorem setSl_darkPoison (s : State) (y : Slot) : (s.setSl y).darkPoison = s.darkPoison := rfl
@[simp] theorem setSl_llc (s : State) (y : Slot) : (s.setSl y).llc = s.llc := rfl
@[simp] theorem setSl_vm (s : State) (y : Slot) : (s.setSl y).vm = s.vm := rfl
@[simp] theorem setSl_sched (s : State) (y : Slot) : (s.setSl y).sched = s.sched := rfl
@[simp] theorem setSl_dir (s : State) (y : Slot) : (s.setSl y).dir = s.dir := rfl
@[simp] theorem setSl_fabric (s : State) (y : Slot) : (s.setSl y).fabric = s.fabric := rfl
@[simp] theorem setSl_coll (s : State) (y : Slot) : (s.setSl y).coll = s.coll := rfl
@[simp] theorem setSl_inv (s : State) (y : Slot) : (s.setSl y).inv = s.inv := rfl
@[simp] theorem setSl_member (s : State) (y : Slot) : (s.setSl y).member = s.member := rfl
@[simp] theorem setSl_host (s : State) (y : Slot) : (s.setSl y).host = s.host := rfl
@[simp] theorem setSl_boot (s : State) (y : Slot) : (s.setSl y).boot = s.boot := rfl
@[simp] theorem setSl_ras (s : State) (y : Slot) : (s.setSl y).ras = s.ras := rfl
@[simp] theorem setSl_hot (s : State) (y : Slot) : (s.setSl y).hot = s.hot := rfl
@[simp] theorem setSl_free (s : State) (y : Slot) : (s.setSl y).free = s.free := rfl

/-! `State.send` changes `fabric` alone. -/

@[simp] theorem send_ck (s : State) (m : Msg) : (s.send m).ck = s.ck := rfl
@[simp] theorem send_turns (s : State) (m : Msg) : (s.send m).turns = s.turns := rfl
@[simp] theorem send_cur (s : State) (m : Msg) : (s.send m).cur = s.cur := rfl
@[simp] theorem send_groups (s : State) (m : Msg) : (s.send m).groups = s.groups := rfl
@[simp] theorem send_cores (s : State) (m : Msg) : (s.send m).cores = s.cores := rfl
@[simp] theorem send_hcls (s : State) (m : Msg) : (s.send m).hcls = s.hcls := rfl
@[simp] theorem send_dies (s : State) (m : Msg) : (s.send m).dies = s.dies := rfl
@[simp] theorem send_mem (s : State) (m : Msg) : (s.send m).mem = s.mem := rfl
@[simp] theorem send_dark (s : State) (m : Msg) : (s.send m).dark = s.dark := rfl
@[simp] theorem send_darkPoison (s : State) (m : Msg) : (s.send m).darkPoison = s.darkPoison := rfl
@[simp] theorem send_llc (s : State) (m : Msg) : (s.send m).llc = s.llc := rfl
@[simp] theorem send_vm (s : State) (m : Msg) : (s.send m).vm = s.vm := rfl
@[simp] theorem send_sched (s : State) (m : Msg) : (s.send m).sched = s.sched := rfl
@[simp] theorem send_dir (s : State) (m : Msg) : (s.send m).dir = s.dir := rfl
@[simp] theorem send_coll (s : State) (m : Msg) : (s.send m).coll = s.coll := rfl
@[simp] theorem send_inv (s : State) (m : Msg) : (s.send m).inv = s.inv := rfl
@[simp] theorem send_member (s : State) (m : Msg) : (s.send m).member = s.member := rfl
@[simp] theorem send_host (s : State) (m : Msg) : (s.send m).host = s.host := rfl
@[simp] theorem send_boot (s : State) (m : Msg) : (s.send m).boot = s.boot := rfl
@[simp] theorem send_ras (s : State) (m : Msg) : (s.send m).ras = s.ras := rfl
@[simp] theorem send_hot (s : State) (m : Msg) : (s.send m).hot = s.hot := rfl
@[simp] theorem send_free (s : State) (m : Msg) : (s.send m).free = s.free := rfl

/-! `State.setPort` changes `fabric` alone. -/

@[simp] theorem setPort_ck (s : State) (p : Nat) (x : Port) : (s.setPort p x).ck = s.ck := rfl
@[simp] theorem setPort_turns (s : State) (p : Nat) (x : Port) : (s.setPort p x).turns = s.turns := rfl
@[simp] theorem setPort_cur (s : State) (p : Nat) (x : Port) : (s.setPort p x).cur = s.cur := rfl
@[simp] theorem setPort_groups (s : State) (p : Nat) (x : Port) : (s.setPort p x).groups = s.groups := rfl
@[simp] theorem setPort_cores (s : State) (p : Nat) (x : Port) : (s.setPort p x).cores = s.cores := rfl
@[simp] theorem setPort_hcls (s : State) (p : Nat) (x : Port) : (s.setPort p x).hcls = s.hcls := rfl
@[simp] theorem setPort_dies (s : State) (p : Nat) (x : Port) : (s.setPort p x).dies = s.dies := rfl
@[simp] theorem setPort_mem (s : State) (p : Nat) (x : Port) : (s.setPort p x).mem = s.mem := rfl
@[simp] theorem setPort_dark (s : State) (p : Nat) (x : Port) : (s.setPort p x).dark = s.dark := rfl
@[simp] theorem setPort_darkPoison (s : State) (p : Nat) (x : Port) : (s.setPort p x).darkPoison = s.darkPoison := rfl
@[simp] theorem setPort_llc (s : State) (p : Nat) (x : Port) : (s.setPort p x).llc = s.llc := rfl
@[simp] theorem setPort_vm (s : State) (p : Nat) (x : Port) : (s.setPort p x).vm = s.vm := rfl
@[simp] theorem setPort_sched (s : State) (p : Nat) (x : Port) : (s.setPort p x).sched = s.sched := rfl
@[simp] theorem setPort_dir (s : State) (p : Nat) (x : Port) : (s.setPort p x).dir = s.dir := rfl
@[simp] theorem setPort_coll (s : State) (p : Nat) (x : Port) : (s.setPort p x).coll = s.coll := rfl
@[simp] theorem setPort_inv (s : State) (p : Nat) (x : Port) : (s.setPort p x).inv = s.inv := rfl
@[simp] theorem setPort_member (s : State) (p : Nat) (x : Port) : (s.setPort p x).member = s.member := rfl
@[simp] theorem setPort_host (s : State) (p : Nat) (x : Port) : (s.setPort p x).host = s.host := rfl
@[simp] theorem setPort_boot (s : State) (p : Nat) (x : Port) : (s.setPort p x).boot = s.boot := rfl
@[simp] theorem setPort_ras (s : State) (p : Nat) (x : Port) : (s.setPort p x).ras = s.ras := rfl
@[simp] theorem setPort_hot (s : State) (p : Nat) (x : Port) : (s.setPort p x).hot = s.hot := rfl
@[simp] theorem setPort_free (s : State) (p : Nat) (x : Port) : (s.setPort p x).free = s.free := rfl

/-! `State.setComm` changes `coll` alone. -/

@[simp] theorem setComm_ck (s : State) (c : Nat) (x : Comm) : (s.setComm c x).ck = s.ck := rfl
@[simp] theorem setComm_turns (s : State) (c : Nat) (x : Comm) : (s.setComm c x).turns = s.turns := rfl
@[simp] theorem setComm_cur (s : State) (c : Nat) (x : Comm) : (s.setComm c x).cur = s.cur := rfl
@[simp] theorem setComm_groups (s : State) (c : Nat) (x : Comm) : (s.setComm c x).groups = s.groups := rfl
@[simp] theorem setComm_cores (s : State) (c : Nat) (x : Comm) : (s.setComm c x).cores = s.cores := rfl
@[simp] theorem setComm_hcls (s : State) (c : Nat) (x : Comm) : (s.setComm c x).hcls = s.hcls := rfl
@[simp] theorem setComm_dies (s : State) (c : Nat) (x : Comm) : (s.setComm c x).dies = s.dies := rfl
@[simp] theorem setComm_mem (s : State) (c : Nat) (x : Comm) : (s.setComm c x).mem = s.mem := rfl
@[simp] theorem setComm_dark (s : State) (c : Nat) (x : Comm) : (s.setComm c x).dark = s.dark := rfl
@[simp] theorem setComm_darkPoison (s : State) (c : Nat) (x : Comm) : (s.setComm c x).darkPoison = s.darkPoison := rfl
@[simp] theorem setComm_llc (s : State) (c : Nat) (x : Comm) : (s.setComm c x).llc = s.llc := rfl
@[simp] theorem setComm_vm (s : State) (c : Nat) (x : Comm) : (s.setComm c x).vm = s.vm := rfl
@[simp] theorem setComm_sched (s : State) (c : Nat) (x : Comm) : (s.setComm c x).sched = s.sched := rfl
@[simp] theorem setComm_dir (s : State) (c : Nat) (x : Comm) : (s.setComm c x).dir = s.dir := rfl
@[simp] theorem setComm_fabric (s : State) (c : Nat) (x : Comm) : (s.setComm c x).fabric = s.fabric := rfl
@[simp] theorem setComm_inv (s : State) (c : Nat) (x : Comm) : (s.setComm c x).inv = s.inv := rfl
@[simp] theorem setComm_member (s : State) (c : Nat) (x : Comm) : (s.setComm c x).member = s.member := rfl
@[simp] theorem setComm_host (s : State) (c : Nat) (x : Comm) : (s.setComm c x).host = s.host := rfl
@[simp] theorem setComm_boot (s : State) (c : Nat) (x : Comm) : (s.setComm c x).boot = s.boot := rfl
@[simp] theorem setComm_ras (s : State) (c : Nat) (x : Comm) : (s.setComm c x).ras = s.ras := rfl
@[simp] theorem setComm_hot (s : State) (c : Nat) (x : Comm) : (s.setComm c x).hot = s.hot := rfl
@[simp] theorem setComm_free (s : State) (c : Nat) (x : Comm) : (s.setComm c x).free = s.free := rfl

/-! `State.advance` changes `groups` alone. -/

@[simp] theorem advance_ck (s : State)  : s.advance.ck = s.ck := rfl
@[simp] theorem advance_turns (s : State)  : s.advance.turns = s.turns := rfl
@[simp] theorem advance_cur (s : State)  : s.advance.cur = s.cur := rfl
@[simp] theorem advance_cores (s : State)  : s.advance.cores = s.cores := rfl
@[simp] theorem advance_hcls (s : State)  : s.advance.hcls = s.hcls := rfl
@[simp] theorem advance_dies (s : State)  : s.advance.dies = s.dies := rfl
@[simp] theorem advance_mem (s : State)  : s.advance.mem = s.mem := rfl
@[simp] theorem advance_dark (s : State)  : s.advance.dark = s.dark := rfl
@[simp] theorem advance_darkPoison (s : State)  : s.advance.darkPoison = s.darkPoison := rfl
@[simp] theorem advance_llc (s : State)  : s.advance.llc = s.llc := rfl
@[simp] theorem advance_vm (s : State)  : s.advance.vm = s.vm := rfl
@[simp] theorem advance_sched (s : State)  : s.advance.sched = s.sched := rfl
@[simp] theorem advance_dir (s : State)  : s.advance.dir = s.dir := rfl
@[simp] theorem advance_fabric (s : State)  : s.advance.fabric = s.fabric := rfl
@[simp] theorem advance_coll (s : State)  : s.advance.coll = s.coll := rfl
@[simp] theorem advance_inv (s : State)  : s.advance.inv = s.inv := rfl
@[simp] theorem advance_member (s : State)  : s.advance.member = s.member := rfl
@[simp] theorem advance_host (s : State)  : s.advance.host = s.host := rfl
@[simp] theorem advance_boot (s : State)  : s.advance.boot = s.boot := rfl
@[simp] theorem advance_ras (s : State)  : s.advance.ras = s.ras := rfl
@[simp] theorem advance_hot (s : State)  : s.advance.hot = s.hot := rfl
@[simp] theorem advance_free (s : State)  : s.advance.free = s.free := rfl

/-! `State.useFree` changes `free` alone. -/

@[simp] theorem useFree_ck (s : State)  : s.useFree.ck = s.ck := rfl
@[simp] theorem useFree_turns (s : State)  : s.useFree.turns = s.turns := rfl
@[simp] theorem useFree_cur (s : State)  : s.useFree.cur = s.cur := rfl
@[simp] theorem useFree_groups (s : State)  : s.useFree.groups = s.groups := rfl
@[simp] theorem useFree_cores (s : State)  : s.useFree.cores = s.cores := rfl
@[simp] theorem useFree_hcls (s : State)  : s.useFree.hcls = s.hcls := rfl
@[simp] theorem useFree_dies (s : State)  : s.useFree.dies = s.dies := rfl
@[simp] theorem useFree_mem (s : State)  : s.useFree.mem = s.mem := rfl
@[simp] theorem useFree_dark (s : State)  : s.useFree.dark = s.dark := rfl
@[simp] theorem useFree_darkPoison (s : State)  : s.useFree.darkPoison = s.darkPoison := rfl
@[simp] theorem useFree_llc (s : State)  : s.useFree.llc = s.llc := rfl
@[simp] theorem useFree_vm (s : State)  : s.useFree.vm = s.vm := rfl
@[simp] theorem useFree_sched (s : State)  : s.useFree.sched = s.sched := rfl
@[simp] theorem useFree_dir (s : State)  : s.useFree.dir = s.dir := rfl
@[simp] theorem useFree_fabric (s : State)  : s.useFree.fabric = s.fabric := rfl
@[simp] theorem useFree_coll (s : State)  : s.useFree.coll = s.coll := rfl
@[simp] theorem useFree_inv (s : State)  : s.useFree.inv = s.inv := rfl
@[simp] theorem useFree_member (s : State)  : s.useFree.member = s.member := rfl
@[simp] theorem useFree_host (s : State)  : s.useFree.host = s.host := rfl
@[simp] theorem useFree_boot (s : State)  : s.useFree.boot = s.boot := rfl
@[simp] theorem useFree_ras (s : State)  : s.useFree.ras = s.ras := rfl
@[simp] theorem useFree_hot (s : State)  : s.useFree.hot = s.hot := rfl
/-! ### Reading what an update wrote -/

@[simp] theorem group_setGroup_same (s : State) (g : Nat) (x : Group) : (s.setGroup g x).group g = x :=
  sparse_get_put_same _ _ _ _
theorem group_setGroup_other (s : State) {g h : Nat} (x : Group) (e : h ≠ g) : (s.setGroup g x).group h = s.group h :=
  sparse_get_put_other _ _ _ e
@[simp] theorem core_setCore_same (s : State) (c : Nat) (x : Core) : (s.setCore c x).core c = x :=
  sparse_get_put_same _ _ _ _
theorem core_setCore_other (s : State) {c d : Nat} (x : Core) (e : d ≠ c) : (s.setCore c x).core d = s.core d :=
  sparse_get_put_other _ _ _ e
@[simp] theorem hcl_setHcl_same (s : State) (h : Nat) (x : Hcl) : (s.setHcl h x).hcl h = x := sparse_get_put_same _ _ _ _
theorem hcl_setHcl_other (s : State) {h k : Nat} (x : Hcl) (e : k ≠ h) : (s.setHcl h x).hcl k = s.hcl k :=
  sparse_get_put_other _ _ _ e
@[simp] theorem die_setDie_same (s : State) (d : Nat) (x : Die) : (s.setDie d x).die d = x := sparse_get_put_same _ _ _ _
theorem die_setDie_other (s : State) {d e : Nat} (x : Die) (h : e ≠ d) : (s.setDie d x).die e = s.die e :=
  sparse_get_put_other _ _ _ h
@[simp] theorem core_setGroup (s : State) (g : Nat) (x : Group) (c : Nat) : (s.setGroup g x).core c = s.core c := rfl
@[simp] theorem hcl_setGroup (s : State) (g : Nat) (x : Group) (c : Nat) : (s.setGroup g x).hcl c = s.hcl c := rfl
@[simp] theorem group_setCore (s : State) (c : Nat) (x : Core) (g : Nat) : (s.setCore c x).group g = s.group g := rfl
@[simp] theorem group_setHcl (s : State) (c : Nat) (x : Hcl) (g : Nat) : (s.setHcl c x).group g = s.group g := rfl
@[simp] theorem port_setPort_same (s : State) (p : Nat) (x : Port) : (s.setPort p x).port p = x := sparse_get_put_same _ _ _ _
@[simp] theorem comm_setComm_same (s : State) (c : Nat) (x : Comm) : (s.setComm c x).comm c = x := sparse_get_put_same _ _ _ _

@[simp] theorem me_setMe (s : State) (x : Group) : (s.setMe x).me = x := group_setGroup_same s s.cur.g x
@[simp] theorem setMe_sl (s : State) (x : Group) : (s.setMe x).sl = x.slot s.cur.slotB := by
  show (s.setMe x).me.slot s.cur.slotB = _; rw [me_setMe]
theorem group_setMe_other (s : State) {g : Nat} (x : Group) (e : g ≠ s.cur.g) : (s.setMe x).group g = s.group g :=
  group_setGroup_other s x e

/-! ### Path slots -/

@[simp] theorem slot_setSlot_same (x : Group) (b : Bool) (y : Slot) : (x.setSlot b y).slot b = y := by cases b <;> rfl
@[simp] theorem slot_setSlot_other (x : Group) (b : Bool) (y : Slot) : (x.setSlot b y).slot (!b) = x.slot (!b) := by
  cases b <;> rfl
@[simp] theorem me_setSl (s : State) (y : Slot) : (s.setSl y).me = s.me.setSlot s.cur.slotB y := me_setMe _ _
@[simp] theorem sl_setSl (s : State) (y : Slot) : (s.setSl y).sl = y := by
  show (s.setSl y).me.slot s.cur.slotB = y; rw [me_setSl, slot_setSlot_same]
theorem group_setSl_other (s : State) {g : Nat} (y : Slot) (e : g ≠ s.cur.g) : (s.setSl y).group g = s.group g :=
  group_setMe_other s _ e

@[simp] theorem setSlot_resident (x : Group) (b : Bool) (y : Slot) : (x.setSlot b y).resident = x.resident := by cases b <;> rfl
@[simp] theorem setSlot_age (x : Group) (b : Bool) (y : Slot) : (x.setSlot b y).age = x.age := by cases b <;> rfl
@[simp] theorem setSlot_ident (x : Group) (b : Bool) (y : Slot) : (x.setSlot b y).ident = x.ident := by cases b <;> rfl
@[simp] theorem setSlot_s (x : Group) (b : Bool) (y : Slot) : (x.setSlot b y).s = x.s := by cases b <;> rfl
@[simp] theorem setSlot_v (x : Group) (b : Bool) (y : Slot) : (x.setSlot b y).v = x.v := by cases b <;> rfl
@[simp] theorem setSlot_k (x : Group) (b : Bool) (y : Slot) : (x.setSlot b y).k = x.k := by cases b <;> rfl
@[simp] theorem setSlot_b (x : Group) (b : Bool) (y : Slot) : (x.setSlot b y).b = x.b := by cases b <;> rfl
@[simp] theorem setSlot_fmt (x : Group) (b : Bool) (y : Slot) : (x.setSlot b y).fmt = x.fmt := by cases b <;> rfl
@[simp] theorem setSlot_csr (x : Group) (b : Bool) (y : Slot) : (x.setSlot b y).csr = x.csr := by cases b <;> rfl
@[simp] theorem setSlot_exited (x : Group) (b : Bool) (y : Slot) : (x.setSlot b y).exited = x.exited := by cases b <;> rfl
@[simp] theorem setSlot_joins (x : Group) (b : Bool) (y : Slot) : (x.setSlot b y).joins = x.joins := by cases b <;> rfl
@[simp] theorem setSlot_conts (x : Group) (b : Bool) (y : Slot) : (x.setSlot b y).conts = x.conts := by cases b <;> rfl
@[simp] theorem setSlot_blocks (x : Group) (b : Bool) (y : Slot) : (x.setSlot b y).blocks = x.blocks := by cases b <;> rfl
@[simp] theorem setSlot_draining (x : Group) (b : Bool) (y : Slot) : (x.setSlot b y).draining = x.draining := by cases b <;> rfl
@[simp] theorem setSlot_loads (x : Group) (b : Bool) (y : Slot) : (x.setSlot b y).loads = x.loads := by cases b <;> rfl
@[simp] theorem setSlot_stores (x : Group) (b : Bool) (y : Slot) : (x.setSlot b y).stores = x.stores := by cases b <;> rfl
@[simp] theorem setSlot_feStores (x : Group) (b : Bool) (y : Slot) : (x.setSlot b y).feStores = x.feStores := by cases b <;> rfl
@[simp] theorem setSlot_storesOther (x : Group) (b : Bool) (y : Slot) : (x.setSlot b y).storesOther = x.storesOther := by cases b <;> rfl
@[simp] theorem setSlot_copies (x : Group) (b : Bool) (y : Slot) : (x.setSlot b y).copies = x.copies := by cases b <;> rfl
@[simp] theorem setSlot_batches (x : Group) (b : Bool) (y : Slot) : (x.setSlot b y).batches = x.batches := by cases b <;> rfl
@[simp] theorem setSlot_seq (x : Group) (b : Bool) (y : Slot) : (x.setSlot b y).seq = x.seq := by cases b <;> rfl
@[simp] theorem setSlot_nb (x : Group) (b : Bool) (y : Slot) : (x.setSlot b y).nb = x.nb := by cases b <;> rfl
@[simp] theorem setSlot_inFlight (x : Group) (b : Bool) (y : Slot) : (x.setSlot b y).inFlight = x.inFlight := by cases b <;> rfl
@[simp] theorem setSlot_locks (x : Group) (b : Bool) (y : Slot) : (x.setSlot b y).locks = x.locks := by cases b <;> rfl
@[simp] theorem setSlot_dirtySectors (x : Group) (b : Bool) (y : Slot) : (x.setSlot b y).dirtySectors = x.dirtySectors := by cases b <;> rfl
@[simp] theorem setSlot_posted (x : Group) (b : Bool) (y : Slot) : (x.setSlot b y).posted = x.posted := by cases b <;> rfl
@[simp] theorem setSlot_handlerDepth (x : Group) (b : Bool) (y : Slot) : (x.setSlot b y).handlerDepth = x.handlerDepth := by cases b <;> rfl
@[simp] theorem setSlot_handlerSlotB (x : Group) (b : Bool) (y : Slot) : (x.setSlot b y).handlerSlotB = x.handlerSlotB := by cases b <;> rfl
@[simp] theorem setSlot_heldLane (x : Group) (b : Bool) (y : Slot) : (x.setSlot b y).heldLane = x.heldLane := by cases b <;> rfl
@[simp] theorem setSlot_pending (x : Group) (b : Bool) (y : Slot) : (x.setSlot b y).pending = x.pending := by cases b <;> rfl
@[simp] theorem setSlot_tickets (x : Group) (b : Bool) (y : Slot) : (x.setSlot b y).tickets = x.tickets := by cases b <;> rfl
@[simp] theorem setSlot_reservations (x : Group) (b : Bool) (y : Slot) : (x.setSlot b y).reservations = x.reservations := by cases b <;> rfl
@[simp] theorem setSlot_rateFrom (x : Group) (b : Bool) (y : Slot) : (x.setSlot b y).rateFrom = x.rateFrom := by cases b <;> rfl
@[simp] theorem setSlot_dueSince (x : Group) (b : Bool) (y : Slot) : (x.setSlot b y).dueSince = x.dueSince := by cases b <;> rfl
@[simp] theorem setSlot_secAt (x : Group) (b : Bool) (y : Slot) : (x.setSlot b y).secAt = x.secAt := by cases b <;> rfl
@[simp] theorem setSlot_laneWait (x : Group) (b : Bool) (y : Slot) : (x.setSlot b y).laneWait = x.laneWait := by cases b <;> rfl
@[simp] theorem setSlot_handlerSeq (x : Group) (b : Bool) (y : Slot) : (x.setSlot b y).handlerSeq = x.handlerSeq := by cases b <;> rfl
@[simp] theorem setSlot_heldWait (x : Group) (b : Bool) (y : Slot) : (x.setSlot b y).heldWait = x.heldWait := by cases b <;> rfl
@[simp] theorem setSlot_lateF (x : Group) (b : Bool) (y : Slot) : (x.setSlot b y).lateF = x.lateF := by cases b <;> rfl
@[simp] theorem setSlot_lateV (x : Group) (b : Bool) (y : Slot) : (x.setSlot b y).lateV = x.lateV := by cases b <;> rfl
@[simp] theorem setSlot_replayLog (x : Group) (b : Bool) (y : Slot) : (x.setSlot b y).replayLog = x.replayLog := by cases b <;> rfl

/-! ### Registers -/

@[simp] theorem rs_zero (x : Group) : x.rs 0 = 0 := rfl
@[simp] theorem rs_ws_same (x : Group) {r : Nat} (v : Word) (h : r ≠ 0) : (x.ws r v).rs r = v := by
  simp [Group.rs, Group.ws, h]
theorem rs_ws_other (x : Group) {r q : Nat} (v : Word) (h : q ≠ r) : (x.ws r v).rs q = x.rs q := by
  unfold Group.rs Group.ws
  split
  · rfl
  · split
    · rfl
    · exact sparse_get_set_other 0 x.s v h
@[simp] theorem ws_zero (x : Group) (v : Word) : x.ws 0 v = x := rfl
@[simp] theorem rk_wk_same (x : Group) (k : Nat) (v : Word) : (x.wk k v).rk k = v := sparse_get_set_same _ _ _ _
theorem rk_wk_other (x : Group) {k j : Nat} (v : Word) (h : j ≠ k) : (x.wk k v).rk j = x.rk j := sparse_get_set_other _ _ _ h
@[simp] theorem rb_wb_same (x : Group) (k : Nat) (v : BitVec 128) : (x.wb k v).rb k = v := sparse_get_set_same _ _ _ _
theorem rb_wb_other (x : Group) {k j : Nat} (v : BitVec 128) (h : j ≠ k) : (x.wb k v).rb j = x.rb j :=
  sparse_get_set_other _ _ _ h
@[simp] theorem rv_wv_same (x : Group) (r l : Nat) (v : Word) : (x.wv r l v).rv r l = v := sparse_get_set_same _ _ _ _
theorem rv_wv_other (x : Group) {r q l i : Nat} (v : Word) (h : 32 * q + i ≠ 32 * r + l) : (x.wv r l v).rv q i = x.rv q i :=
  sparse_get_set_other _ _ _ h

@[simp] theorem ws_resident (x : Group) (r : Nat) (v : Word) : (x.ws r v).resident = x.resident := by unfold Group.ws; split <;> rfl
@[simp] theorem ws_age (x : Group) (r : Nat) (v : Word) : (x.ws r v).age = x.age := by unfold Group.ws; split <;> rfl
@[simp] theorem ws_ident (x : Group) (r : Nat) (v : Word) : (x.ws r v).ident = x.ident := by unfold Group.ws; split <;> rfl
@[simp] theorem ws_v (x : Group) (r : Nat) (v : Word) : (x.ws r v).v = x.v := by unfold Group.ws; split <;> rfl
@[simp] theorem ws_k (x : Group) (r : Nat) (v : Word) : (x.ws r v).k = x.k := by unfold Group.ws; split <;> rfl
@[simp] theorem ws_b (x : Group) (r : Nat) (v : Word) : (x.ws r v).b = x.b := by unfold Group.ws; split <;> rfl
@[simp] theorem ws_fmt (x : Group) (r : Nat) (v : Word) : (x.ws r v).fmt = x.fmt := by unfold Group.ws; split <;> rfl
@[simp] theorem ws_csr (x : Group) (r : Nat) (v : Word) : (x.ws r v).csr = x.csr := by unfold Group.ws; split <;> rfl
@[simp] theorem ws_slotA (x : Group) (r : Nat) (v : Word) : (x.ws r v).slotA = x.slotA := by unfold Group.ws; split <;> rfl
@[simp] theorem ws_slotB (x : Group) (r : Nat) (v : Word) : (x.ws r v).slotB = x.slotB := by unfold Group.ws; split <;> rfl
@[simp] theorem ws_exited (x : Group) (r : Nat) (v : Word) : (x.ws r v).exited = x.exited := by unfold Group.ws; split <;> rfl
@[simp] theorem ws_joins (x : Group) (r : Nat) (v : Word) : (x.ws r v).joins = x.joins := by unfold Group.ws; split <;> rfl
@[simp] theorem ws_conts (x : Group) (r : Nat) (v : Word) : (x.ws r v).conts = x.conts := by unfold Group.ws; split <;> rfl
@[simp] theorem ws_blocks (x : Group) (r : Nat) (v : Word) : (x.ws r v).blocks = x.blocks := by unfold Group.ws; split <;> rfl
@[simp] theorem ws_draining (x : Group) (r : Nat) (v : Word) : (x.ws r v).draining = x.draining := by unfold Group.ws; split <;> rfl
@[simp] theorem ws_loads (x : Group) (r : Nat) (v : Word) : (x.ws r v).loads = x.loads := by unfold Group.ws; split <;> rfl
@[simp] theorem ws_stores (x : Group) (r : Nat) (v : Word) : (x.ws r v).stores = x.stores := by unfold Group.ws; split <;> rfl
@[simp] theorem ws_feStores (x : Group) (r : Nat) (v : Word) : (x.ws r v).feStores = x.feStores := by unfold Group.ws; split <;> rfl
@[simp] theorem ws_storesOther (x : Group) (r : Nat) (v : Word) : (x.ws r v).storesOther = x.storesOther := by unfold Group.ws; split <;> rfl
@[simp] theorem ws_copies (x : Group) (r : Nat) (v : Word) : (x.ws r v).copies = x.copies := by unfold Group.ws; split <;> rfl
@[simp] theorem ws_seq (x : Group) (r : Nat) (v : Word) : (x.ws r v).seq = x.seq := by unfold Group.ws; split <;> rfl
@[simp] theorem ws_nb (x : Group) (r : Nat) (v : Word) : (x.ws r v).nb = x.nb := by unfold Group.ws; split <;> rfl
@[simp] theorem ws_inFlight (x : Group) (r : Nat) (v : Word) : (x.ws r v).inFlight = x.inFlight := by unfold Group.ws; split <;> rfl
@[simp] theorem ws_locks (x : Group) (r : Nat) (v : Word) : (x.ws r v).locks = x.locks := by unfold Group.ws; split <;> rfl
@[simp] theorem ws_heldLane (x : Group) (r : Nat) (v : Word) : (x.ws r v).heldLane = x.heldLane := by unfold Group.ws; split <;> rfl
@[simp] theorem ws_pending (x : Group) (r : Nat) (v : Word) : (x.ws r v).pending = x.pending := by unfold Group.ws; split <;> rfl
@[simp] theorem ws_tickets (x : Group) (r : Nat) (v : Word) : (x.ws r v).tickets = x.tickets := by unfold Group.ws; split <;> rfl
@[simp] theorem ws_laneWait (x : Group) (r : Nat) (v : Word) : (x.ws r v).laneWait = x.laneWait := by unfold Group.ws; split <;> rfl
@[simp] theorem ws_handlerSeq (x : Group) (r : Nat) (v : Word) : (x.ws r v).handlerSeq = x.handlerSeq := by unfold Group.ws; split <;> rfl
@[simp] theorem ws_heldWait (x : Group) (r : Nat) (v : Word) : (x.ws r v).heldWait = x.heldWait := by unfold Group.ws; split <;> rfl
@[simp] theorem ws_lateF (x : Group) (r : Nat) (v : Word) : (x.ws r v).lateF = x.lateF := by unfold Group.ws; split <;> rfl
@[simp] theorem ws_lateV (x : Group) (r : Nat) (v : Word) : (x.ws r v).lateV = x.lateV := by unfold Group.ws; split <;> rfl
@[simp] theorem ws_replayLog (x : Group) (r : Nat) (v : Word) : (x.ws r v).replayLog = x.replayLog := by unfold Group.ws; split <;> rfl
@[simp] theorem wk_resident (x : Group) (r : Nat) (v : Word) : (x.wk r v).resident = x.resident := rfl
@[simp] theorem wk_age (x : Group) (r : Nat) (v : Word) : (x.wk r v).age = x.age := rfl
@[simp] theorem wk_ident (x : Group) (r : Nat) (v : Word) : (x.wk r v).ident = x.ident := rfl
@[simp] theorem wk_s (x : Group) (r : Nat) (v : Word) : (x.wk r v).s = x.s := rfl
@[simp] theorem wk_v (x : Group) (r : Nat) (v : Word) : (x.wk r v).v = x.v := rfl
@[simp] theorem wk_b (x : Group) (r : Nat) (v : Word) : (x.wk r v).b = x.b := rfl
@[simp] theorem wk_fmt (x : Group) (r : Nat) (v : Word) : (x.wk r v).fmt = x.fmt := rfl
@[simp] theorem wk_csr (x : Group) (r : Nat) (v : Word) : (x.wk r v).csr = x.csr := rfl
@[simp] theorem wk_slotA (x : Group) (r : Nat) (v : Word) : (x.wk r v).slotA = x.slotA := rfl
@[simp] theorem wk_slotB (x : Group) (r : Nat) (v : Word) : (x.wk r v).slotB = x.slotB := rfl
@[simp] theorem wk_exited (x : Group) (r : Nat) (v : Word) : (x.wk r v).exited = x.exited := rfl
@[simp] theorem wk_joins (x : Group) (r : Nat) (v : Word) : (x.wk r v).joins = x.joins := rfl
@[simp] theorem wk_conts (x : Group) (r : Nat) (v : Word) : (x.wk r v).conts = x.conts := rfl
@[simp] theorem wk_blocks (x : Group) (r : Nat) (v : Word) : (x.wk r v).blocks = x.blocks := rfl
@[simp] theorem wk_draining (x : Group) (r : Nat) (v : Word) : (x.wk r v).draining = x.draining := rfl
@[simp] theorem wk_loads (x : Group) (r : Nat) (v : Word) : (x.wk r v).loads = x.loads := rfl
@[simp] theorem wk_stores (x : Group) (r : Nat) (v : Word) : (x.wk r v).stores = x.stores := rfl
@[simp] theorem wk_feStores (x : Group) (r : Nat) (v : Word) : (x.wk r v).feStores = x.feStores := rfl
@[simp] theorem wk_storesOther (x : Group) (r : Nat) (v : Word) : (x.wk r v).storesOther = x.storesOther := rfl
@[simp] theorem wk_copies (x : Group) (r : Nat) (v : Word) : (x.wk r v).copies = x.copies := rfl
@[simp] theorem wk_seq (x : Group) (r : Nat) (v : Word) : (x.wk r v).seq = x.seq := rfl
@[simp] theorem wk_nb (x : Group) (r : Nat) (v : Word) : (x.wk r v).nb = x.nb := rfl
@[simp] theorem wk_inFlight (x : Group) (r : Nat) (v : Word) : (x.wk r v).inFlight = x.inFlight := rfl
@[simp] theorem wk_locks (x : Group) (r : Nat) (v : Word) : (x.wk r v).locks = x.locks := rfl
@[simp] theorem wk_heldLane (x : Group) (r : Nat) (v : Word) : (x.wk r v).heldLane = x.heldLane := rfl
@[simp] theorem wk_pending (x : Group) (r : Nat) (v : Word) : (x.wk r v).pending = x.pending := rfl
@[simp] theorem wk_tickets (x : Group) (r : Nat) (v : Word) : (x.wk r v).tickets = x.tickets := rfl
@[simp] theorem wk_laneWait (x : Group) (r : Nat) (v : Word) : (x.wk r v).laneWait = x.laneWait := rfl
@[simp] theorem wk_handlerSeq (x : Group) (r : Nat) (v : Word) : (x.wk r v).handlerSeq = x.handlerSeq := rfl
@[simp] theorem wk_heldWait (x : Group) (r : Nat) (v : Word) : (x.wk r v).heldWait = x.heldWait := rfl
@[simp] theorem wk_lateF (x : Group) (r : Nat) (v : Word) : (x.wk r v).lateF = x.lateF := rfl
@[simp] theorem wk_lateV (x : Group) (r : Nat) (v : Word) : (x.wk r v).lateV = x.lateV := rfl
@[simp] theorem wk_replayLog (x : Group) (r : Nat) (v : Word) : (x.wk r v).replayLog = x.replayLog := rfl
@[simp] theorem wb_resident (x : Group) (r : Nat) (v : BitVec 128) : (x.wb r v).resident = x.resident := rfl
@[simp] theorem wb_age (x : Group) (r : Nat) (v : BitVec 128) : (x.wb r v).age = x.age := rfl
@[simp] theorem wb_ident (x : Group) (r : Nat) (v : BitVec 128) : (x.wb r v).ident = x.ident := rfl
@[simp] theorem wb_s (x : Group) (r : Nat) (v : BitVec 128) : (x.wb r v).s = x.s := rfl
@[simp] theorem wb_v (x : Group) (r : Nat) (v : BitVec 128) : (x.wb r v).v = x.v := rfl
@[simp] theorem wb_k (x : Group) (r : Nat) (v : BitVec 128) : (x.wb r v).k = x.k := rfl
@[simp] theorem wb_fmt (x : Group) (r : Nat) (v : BitVec 128) : (x.wb r v).fmt = x.fmt := rfl
@[simp] theorem wb_csr (x : Group) (r : Nat) (v : BitVec 128) : (x.wb r v).csr = x.csr := rfl
@[simp] theorem wb_slotA (x : Group) (r : Nat) (v : BitVec 128) : (x.wb r v).slotA = x.slotA := rfl
@[simp] theorem wb_slotB (x : Group) (r : Nat) (v : BitVec 128) : (x.wb r v).slotB = x.slotB := rfl
@[simp] theorem wb_exited (x : Group) (r : Nat) (v : BitVec 128) : (x.wb r v).exited = x.exited := rfl
@[simp] theorem wb_joins (x : Group) (r : Nat) (v : BitVec 128) : (x.wb r v).joins = x.joins := rfl
@[simp] theorem wb_conts (x : Group) (r : Nat) (v : BitVec 128) : (x.wb r v).conts = x.conts := rfl
@[simp] theorem wb_blocks (x : Group) (r : Nat) (v : BitVec 128) : (x.wb r v).blocks = x.blocks := rfl
@[simp] theorem wb_draining (x : Group) (r : Nat) (v : BitVec 128) : (x.wb r v).draining = x.draining := rfl
@[simp] theorem wb_loads (x : Group) (r : Nat) (v : BitVec 128) : (x.wb r v).loads = x.loads := rfl
@[simp] theorem wb_stores (x : Group) (r : Nat) (v : BitVec 128) : (x.wb r v).stores = x.stores := rfl
@[simp] theorem wb_feStores (x : Group) (r : Nat) (v : BitVec 128) : (x.wb r v).feStores = x.feStores := rfl
@[simp] theorem wb_storesOther (x : Group) (r : Nat) (v : BitVec 128) : (x.wb r v).storesOther = x.storesOther := rfl
@[simp] theorem wb_copies (x : Group) (r : Nat) (v : BitVec 128) : (x.wb r v).copies = x.copies := rfl
@[simp] theorem wb_seq (x : Group) (r : Nat) (v : BitVec 128) : (x.wb r v).seq = x.seq := rfl
@[simp] theorem wb_nb (x : Group) (r : Nat) (v : BitVec 128) : (x.wb r v).nb = x.nb := rfl
@[simp] theorem wb_inFlight (x : Group) (r : Nat) (v : BitVec 128) : (x.wb r v).inFlight = x.inFlight := rfl
@[simp] theorem wb_locks (x : Group) (r : Nat) (v : BitVec 128) : (x.wb r v).locks = x.locks := rfl
@[simp] theorem wb_heldLane (x : Group) (r : Nat) (v : BitVec 128) : (x.wb r v).heldLane = x.heldLane := rfl
@[simp] theorem wb_pending (x : Group) (r : Nat) (v : BitVec 128) : (x.wb r v).pending = x.pending := rfl
@[simp] theorem wb_tickets (x : Group) (r : Nat) (v : BitVec 128) : (x.wb r v).tickets = x.tickets := rfl
@[simp] theorem wb_laneWait (x : Group) (r : Nat) (v : BitVec 128) : (x.wb r v).laneWait = x.laneWait := rfl
@[simp] theorem wb_handlerSeq (x : Group) (r : Nat) (v : BitVec 128) : (x.wb r v).handlerSeq = x.handlerSeq := rfl
@[simp] theorem wb_heldWait (x : Group) (r : Nat) (v : BitVec 128) : (x.wb r v).heldWait = x.heldWait := rfl
@[simp] theorem wb_lateF (x : Group) (r : Nat) (v : BitVec 128) : (x.wb r v).lateF = x.lateF := rfl
@[simp] theorem wb_lateV (x : Group) (r : Nat) (v : BitVec 128) : (x.wb r v).lateV = x.lateV := rfl
@[simp] theorem wb_replayLog (x : Group) (r : Nat) (v : BitVec 128) : (x.wb r v).replayLog = x.replayLog := rfl
@[simp] theorem wv_resident (x : Group) (r l : Nat) (v : Word) : (x.wv r l v).resident = x.resident := rfl
@[simp] theorem wv_age (x : Group) (r l : Nat) (v : Word) : (x.wv r l v).age = x.age := rfl
@[simp] theorem wv_ident (x : Group) (r l : Nat) (v : Word) : (x.wv r l v).ident = x.ident := rfl
@[simp] theorem wv_s (x : Group) (r l : Nat) (v : Word) : (x.wv r l v).s = x.s := rfl
@[simp] theorem wv_k (x : Group) (r l : Nat) (v : Word) : (x.wv r l v).k = x.k := rfl
@[simp] theorem wv_b (x : Group) (r l : Nat) (v : Word) : (x.wv r l v).b = x.b := rfl
@[simp] theorem wv_fmt (x : Group) (r l : Nat) (v : Word) : (x.wv r l v).fmt = x.fmt := rfl
@[simp] theorem wv_csr (x : Group) (r l : Nat) (v : Word) : (x.wv r l v).csr = x.csr := rfl
@[simp] theorem wv_slotA (x : Group) (r l : Nat) (v : Word) : (x.wv r l v).slotA = x.slotA := rfl
@[simp] theorem wv_slotB (x : Group) (r l : Nat) (v : Word) : (x.wv r l v).slotB = x.slotB := rfl
@[simp] theorem wv_exited (x : Group) (r l : Nat) (v : Word) : (x.wv r l v).exited = x.exited := rfl
@[simp] theorem wv_joins (x : Group) (r l : Nat) (v : Word) : (x.wv r l v).joins = x.joins := rfl
@[simp] theorem wv_conts (x : Group) (r l : Nat) (v : Word) : (x.wv r l v).conts = x.conts := rfl
@[simp] theorem wv_blocks (x : Group) (r l : Nat) (v : Word) : (x.wv r l v).blocks = x.blocks := rfl
@[simp] theorem wv_draining (x : Group) (r l : Nat) (v : Word) : (x.wv r l v).draining = x.draining := rfl
@[simp] theorem wv_loads (x : Group) (r l : Nat) (v : Word) : (x.wv r l v).loads = x.loads := rfl
@[simp] theorem wv_stores (x : Group) (r l : Nat) (v : Word) : (x.wv r l v).stores = x.stores := rfl
@[simp] theorem wv_feStores (x : Group) (r l : Nat) (v : Word) : (x.wv r l v).feStores = x.feStores := rfl
@[simp] theorem wv_storesOther (x : Group) (r l : Nat) (v : Word) : (x.wv r l v).storesOther = x.storesOther := rfl
@[simp] theorem wv_copies (x : Group) (r l : Nat) (v : Word) : (x.wv r l v).copies = x.copies := rfl
@[simp] theorem wv_seq (x : Group) (r l : Nat) (v : Word) : (x.wv r l v).seq = x.seq := rfl
@[simp] theorem wv_nb (x : Group) (r l : Nat) (v : Word) : (x.wv r l v).nb = x.nb := rfl
@[simp] theorem wv_inFlight (x : Group) (r l : Nat) (v : Word) : (x.wv r l v).inFlight = x.inFlight := rfl
@[simp] theorem wv_locks (x : Group) (r l : Nat) (v : Word) : (x.wv r l v).locks = x.locks := rfl
@[simp] theorem wv_heldLane (x : Group) (r l : Nat) (v : Word) : (x.wv r l v).heldLane = x.heldLane := rfl
@[simp] theorem wv_pending (x : Group) (r l : Nat) (v : Word) : (x.wv r l v).pending = x.pending := rfl
@[simp] theorem wv_tickets (x : Group) (r l : Nat) (v : Word) : (x.wv r l v).tickets = x.tickets := rfl
@[simp] theorem wv_laneWait (x : Group) (r l : Nat) (v : Word) : (x.wv r l v).laneWait = x.laneWait := rfl
@[simp] theorem wv_handlerSeq (x : Group) (r l : Nat) (v : Word) : (x.wv r l v).handlerSeq = x.handlerSeq := rfl
@[simp] theorem wv_heldWait (x : Group) (r l : Nat) (v : Word) : (x.wv r l v).heldWait = x.heldWait := rfl
@[simp] theorem wv_lateF (x : Group) (r l : Nat) (v : Word) : (x.wv r l v).lateF = x.lateF := rfl
@[simp] theorem wv_lateV (x : Group) (r l : Nat) (v : Word) : (x.wv r l v).lateV = x.lateV := rfl
@[simp] theorem wv_replayLog (x : Group) (r l : Nat) (v : Word) : (x.wv r l v).replayLog = x.replayLog := rfl

end Sys2Proof.Laws
end

