-- ==== Sys2Proof/Tests/Base.lean ====
section
/-! SUPPORT. Small states that the witnesses of the statements' hypotheses are built from. -/

namespace Sys2Proof.Tests

set_option Elab.async false

open Sys2Proof Sys2Proof.Machine Sys2Proof.Claims

/-- A translation of 64 KiB page `n` of context 0 to itself, for the first hardware core cluster. -/
def page (n : Nat) : TlbEntry :=
  { hcl := 0, ctx := 0, va := n * 65536, size := 65536, base := n * 65536, host := false, read := true, write := true,
    exec := true, dirtyOk := true }

/-- A part that is READY, with one GiB mapped, three pages translated, and one group just started. -/
def ready : State :=
  { State.reset with
    boot := { State.reset.boot with stage := 6 },
    groups := [(0, codeGroup)],
    vm := { State.reset.vm with
      tlb := [page 1, page 2, page 3], regions := [(0, { AddrRegion.off with active := codeMap })] } }

/-- `ready` with its group changed. -/
def withMe (f : Machine.Group → Machine.Group) : State := ready.setMe (f ready.me)

/-- `ready` with its slot changed. -/
def withSl (f : Slot → Slot) : State := ready.setSl (f ready.sl)


/-- `ready` with one lane block of all lanes in its queue. -/
def laneReady : State := withMe (fun x => { x with blocks := [codeBlock] })

/-- A record register: class, base, extent, readable and writable. -/
def recBits (cls base extent : Nat) : BitVec 128 :=
  BitVec.ofNat 128 (extent * 2 ^ 64 + 3 * 2 ^ 60 + cls * 2 ^ 57 + base)

/-- Data in page 3: an ordinary record of 4 KiB. -/
def dataRec : BitVec 128 := recBits 0 0x30000 4096

/-- No sector is in the LLC, and no row-line is given up. -/
theorem coherent_of_empty (s : State) (h : s.llc.sectors = [] ∧ s.llc.discards = []) : LlcCoherent s := by
  refine ⟨h.2, fun n x hx => ?_⟩
  rw [State.sector?, h.1] at hx
  cases hx

/-- A launch of the first ticket, with nothing set. -/
def launch0 : Launch :=
  { ticket := 0, record := ⟨0, 1, 1, 1, 1, 1, 2, 0, 0, 0, 0, 0, 0, 0, 0, 0, 0, 0, 0, 0, 0, true⟩, hdr := Header.none, ctx := 0,
    launcher := .group 5, privileged := false, checked := true, begun := true, nextCluster := 1, retired := 0, status := none, gates := [],
    dirty := [], posted := [], step := 0 }

/-- The running team of groups 0 and 1. -/
def team0 : Team :=
  { key := { ticket := 0, cluster := 0, team := 0 }, stage := .running, phase := 0, core := 0, placedAt := 0, members := [0, 1],
    records := [], starts := [], live := [0, 1], total := 512, pool := 0, claimants := [], stbcfg := 0, credit := 0, windowStart := 0 }

/-- `ready` with group 0 in a team with group 1, as `t` and `f` change the team and group 1. -/
def paired (t : Team → Team) (f : Machine.Group → Machine.Group) : State :=
  { ready with
    groups := [(0, codeGroup), (1, f { codeGroup with ident := { codeGroup.ident with index := 1 } })],
    sched := { ready.sched with
      launches := [launch0],
      clusters := [{ ticket := 0, index := 0, hcl := 0, row := 0, col := 0, w := 1, h := 1, teams := [t team0], unplaced := false }] } }

/-- Group 1 waits in slot A. -/
def waits (w : SlotWait) (x : Machine.Group) : Machine.Group := { x with slotA := { x.slotA with wait := w } }

/-- Teammate 1 of `paired` is busy. -/
theorem pairBusy (s : State) (tm : Team) (h : s.teamOf s.cur.g = some tm)
    (a : 1 ≠ s.me.ident.index ∧ 1 ∈ tm.live ∧ tm.members[1]? = some 1 ∧ 1 ≠ s.cur.g
      ∧ (s.group 1).slotWaiting .bar = none ∧ (s.group 1).slotWaiting .phend = none) : TeamBusy s := by
  intro x hx
  rw [h] at hx
  cases hx
  exact ⟨1, 1, a⟩

end Sys2Proof.Tests
end

