-- ==== Sys2Proof/Tests/Slice0.lean ====
section
/-! SUPPORT. Words of the manual decode to what they stand for; ill-formed instructions are refused; small steps give the
values of the manual's examples. Each expected result is the manual's. -/

namespace Sys2Proof.Tests

set_option Elab.async false

open Sys2Proof Sys2Proof.Machine

/-- Lane instructions with every field zero. -/
def zA : LA := ⟨0, 0, 0, 0, 0, 0, false, 0, false, 0, 0, 0⟩
def zM : LM := ⟨0, 0, 0, 0, 0, 0, 0, 0, false, 0, 0, 0⟩
def zT : LT := ⟨0, 0, false, 0, 0, 0, 0, false, 0, 0, 0, 0⟩

/-! ### Words (the examples printed with each instruction) -/

/-- A scalar word reads as an instruction. -/
noncomputable def reads (w : Nat) (i : Instr) : Bool := decide (decodeTableWord 32 w = some i) && decide (encodeScalar i = some w)

/-- A lane instruction's three words, W2 first, read as an instruction. -/
noncomputable def readsLane (w2 w1 w0 : Nat) (i : Instr) : Bool :=
  decide (decodeTableWord 96 (w2 * 2 ^ 64 + w1 * 2 ^ 32 + w0) = some i)
    && decide (encodeLane i = some (w2 * 2 ^ 64 + w1 * 2 ^ 32 + w0))

theorem test_words_alu : reads 0x04310500 (.add 3 4 5) = true ∧ reads 0x0461C805 (.div 6 7 8) = true := by decide +kernel
theorem test_words_mask : reads 0x3480301C (.kpop 3 7) = true := by decide +kernel
theorem test_words_flow : reads 0x40227FFD (.b 1 4 (-3)) = true ∧ reads 0x4C000010 (.call 16) = true
    ∧ reads 0x64000006 (.jset 6) = true ∧ reads 0x60008005 (.brd 1 5) = true ∧ reads 0x6C214005 (.brx 8 20 5) = true
    ∧ reads 0x70214005 (.callx 8 20 5) = true ∧ reads 0x01720000 (.exit 2) = true := by decide +kernel
theorem test_words_system : reads 0x016000C8 (.sleep 200) = true ∧ reads 0x00414005 (.csrr 5 5) = true
    ∧ reads 0x00514061 (.csrw 5 0x61) = true ∧ reads 0x0010002A (.trap 42) = true ∧ reads 0x00300001 (.brk 1) = true
    ∧ reads 0x00200000 .tret = true ∧ reads 0x00C24000 (.publish 9) = true ∧ reads 0x80800140 (.lrun 2 false 320) = true := by
  decide +kernel
theorem test_words_team : reads 0x00F00002 (.give 2) = true ∧ reads 0x01000002 (.claim 2) = true
    ∧ reads 0x90620000 (.launch 6 8) = true := by decide +kernel
theorem test_words_memory : reads 0xC4821002 (.sld4 8 2 4 2) = true ∧ reads 0xB8100000 (.brld 1 0 0 0) = true
    ∧ reads 0x01550000 (.discard 5) = true := by decide +kernel
theorem test_words_lines : reads 0xB0620C30 (.swaproot 6 8 12 3) = true ∧ reads 0xB4721400 (.rcadj 7 8 20) = true
    ∧ reads 0xCC628000 (.caout 6 10) = true := by decide +kernel
theorem test_words_engines : reads 0x98620000 (.cpy 6 8) = true ∧ reads 0x94620A00 (.graph 6 8 10) = true
    ∧ reads 0x9C61C8C0 (.collSumAi 6 7 2 3) = true ∧ reads 0x9C61C8DC (.collGather 6 7 2 3) = true := by decide +kernel
theorem test_words_pod : reads 0xA062144B (.rinv 6 8 20 4 2 true true) = true ∧ reads 0xA4918000 (.rinvw 9 6) = true
    ∧ reads 0xA8620001 (.launchxCmt 6 8) = true ∧ reads 0x01410000 (.genr 4) = true ∧ reads 0x01314000 (.rtswap 5) = true := by
  decide +kernel

theorem test_words_lane_integer : readsLane 0x04000405 0x06070800 0
    (.vmad { zA with vd := 4, va := 5, vb := 6, vc := 7, sat := true })
    = true := by decide +kernel
theorem test_words_vtos : readsLane 0x1E000503 0 7
    (.vtos { zA with vd := 5, va := 3, imm := 7 })
    = true := by decide +kernel
theorem test_words_special : readsLane 0x42400908 0 0
    (.vexp2 { zA with ty := 4, vd := 9, va := 8 })
    = true := by decide +kernel
theorem test_words_convert : readsLane 0x50400602 0x00000006 0
    (.vcvt { zA with ty := 4, vd := 6, va := 2, sub := 6 })
    = true := by decide +kernel
theorem test_words_optimiser : readsLane 0x7F400004 0x00300000 0x23450000
    (.voptAdamw { zA with ty := 4, va := 4, vc := 48, imm := 0x23450000 }) = true := by decide +kernel
theorem test_words_cross : readsLane 0x60000506 0x00000103 1
    (.vshflXor { zA with vd := 5, va := 6, m := 1, sub := 3, imm := 1 })
    = true
    ∧ readsLane 0x63000405 0x00000200 0
    (.vscanAdd { zA with vd := 4, va := 5, m := 2 })
    = true := by decide +kernel
theorem test_words_full_empty : readsLane 0x76000507 0x60008002 0
    (.vldf { zM with vd := 5, voff := 7, b := 6, e := true, wc := 2 })
    = true := by decide +kernel
theorem test_words_column : readsLane 0x73000806 0x20008002 0x00002014
    (.vldt { zM with vd := 8, voff := 6, b := 2, e := true, wc := 2, disp := 8212 }) = true := by decide +kernel
theorem test_words_content : readsLane 0x90000802 0x00050000 6
    (.vlalLeaf { zA with vd := 8, va := 2, vc := 5, imm := 6 })
    = true := by decide +kernel
theorem test_words_replica : readsLane 0x7E400602 0x40008002 0
    (.vrld { zM with ty := 4, vd := 6, voff := 2, b := 4, e := true, wc := 2 })
    = true := by decide +kernel
theorem test_words_matrix : readsLane 0xA0320010 0x20228000 0x40000000
    (.mma { zT with shape := 3, fmt := 1, b := 16, ea := 32, eb := 34, e := true, row0 := 4 }) = true
    ∧ readsLane 0xA1330020 0x30343800 0x04010000
    (.mmas { zT with shape := 3, fmt := 1, sparse := true, b := 32, ea := 48, eb := 52, md := 56, col0 := 4, flags := 1 }) = true := by decide +kernel
theorem test_words_accumulator : readsLane 0xA5000800 0x00008000 0x12000000
    (.msta { zT with a := 8, e := true, row0 := 1, col0 := 2 }) = true
    ∧ readsLane 0xA6006003 0 0x04000000
    (.mcpySt { zT with a := 0x60, b := 3, col0 := 4 }) = true := by decide +kernel

/-! ### Ill-formed instructions (R55): one for each kind of check -/

theorem test_ill_reserved_bit : (decodeTableWord 32 0x00000001).isNone = true := by decide +kernel
theorem test_ill_sleep_zero : Instr.wf (.sleep 0) = false := by decide +kernel
theorem test_ill_odd_pair_genr : Instr.wf (.genr 3) = false := by decide +kernel
theorem test_ill_loop_without_body : Instr.wf (.loopImm 0 1 0) = false := by decide +kernel
theorem test_ill_condition : Instr.wf (.b 7 0 0) = false := by decide +kernel
theorem test_ill_brd_k0 : Instr.wf (.brd 0 1) = false := by decide +kernel
theorem test_ill_scope : Instr.wf (.fenceAcquire 7) = false := by decide +kernel
theorem test_ill_lane_type : Instr.wf (.vadd { zA with ty := 15 }) = false := by decide +kernel
theorem test_ill_lane_immediate : Instr.wf (.vadd { zA with imm := 1 }) = false := by decide +kernel
theorem test_ill_width : Instr.wf (.vld { zM with wc := 5 }) = false := by decide +kernel
theorem test_ill_tile_origin : Instr.wf (.mzero { zT with row0 := 13 }) = false := by decide +kernel
theorem test_ill_scalar_source : Instr.wf (.vmovs { zA with va := 47 }) = false := by decide +kernel

end Sys2Proof.Tests
end

