-- ==== Sys2Proof/Tests/WitnessLane.lean ====
section
/-! SUPPORT. Witnesses: for each statement about the lane stream's arithmetic, states and operands that meet the hypotheses of
its clauses together. -/

namespace Sys2Proof.Tests

set_option Elab.async false

open Sys2Proof Sys2Proof.Machine Sys2Proof.Claims

/-- Lane instructions with every field zero but the type. -/
def laT (ty : BitVec 4) : LA := ⟨ty, 0, 2, 4, 6, 0, true, 0, false, 0, 0, 0⟩

/-- `Issues`, evaluated. -/
def issuesNow (i : Instr) (kq : KReg) (need : Need) (s : State) (b : Block) : Bool :=
  decide (s.me.headBlock = some b) && (formOf i).ok
    && ((formOf i).reads ++ (formOf i).writes).all (fun r => decide (r.1 + r.2 ≤ 8 * s.me.csr.budget.toNat))
    && (decide (need.rnd ≠ 6) || decide (b.frm.toNat % 8 < 5))
    && (!need.all || (decide (kq = 0) && decide (b.mask = fullMask))) && (!need.flame || s.holdsFlame s.cur.g)
    && !(need.badFormat s.me b) && !(s.laneBusy (formOf i)) && s.me.lateF.isEmpty && s.me.lateV.isEmpty

theorem issues_of {i : Instr} {kq : KReg} {need : Need} {s : State} {b : Block} (h : issuesNow i kq need s b = true) :
    Issues i kq need s b := by
  simp only [issuesNow, Bool.and_eq_true, Bool.or_eq_true, List.all_eq_true, decide_eq_true_eq, Bool.not_eq_true',
    List.isEmpty_iff] at h
  obtain ⟨⟨⟨⟨⟨⟨⟨⟨⟨h1, h2⟩, h3⟩, h4⟩, h5⟩, h6⟩, h7⟩, h8⟩, h9⟩, h10⟩ := h
  refine ⟨h1, h2, h3, fun hr => h4.resolve_left (fun hn => hn hr), fun ha => ?_, fun hf => ?_, h7, h8, h9, h10⟩
  · rcases h5 with h5 | h5
    · simp [ha] at h5
    · exact h5
  · rcases h6 with h6 | h6
    · simp [hf] at h6
    · exact h6

/-! ### Integers, bits and moves -/

theorem wit_LaneIntegerResults : (∃ r, r ∈ intRules) ∧ Issues (.vadd (laT 0)) 0 Need.plain laneReady codeBlock
    ∧ Issues (.vadd { laT 0 with sat := true }) 0 Need.plain laneReady codeBlock
    ∧ (∃ s : State, Issues (.vneg { laT 0 with sat := true, vb := 0 }) 0 Need.plain s codeBlock
        ∧ SomeClamped s codeBlock { laT 0 with sat := true, vb := 0 } (fun a _ _ => -a)) :=
  ⟨⟨_, List.mem_cons_self⟩, issues_of (by decide +kernel), issues_of (by decide +kernel),
   laneReady.setMe (laneReady.me.wv 4 0 0x80000000), issues_of (by decide +kernel),
   0, 0, ⟨by decide, by decide +kernel, by decide⟩, by decide +kernel, by decide +kernel⟩

/-- The premises of FlagsInOrder. -/
theorem wit_FlagsInOrder : (∃ r, r ∈ intRules) ∧ Issues (.vadd { laT 0 with sat := true }) 0 Need.plain laneReady codeBlock :=
  ⟨⟨_, List.mem_cons_self⟩, issues_of (by decide +kernel)⟩

theorem wit_LaneDivideAndHigh : Issues (.vdiv (laT 0)) 0 Need.plain laneReady codeBlock
    ∧ Issues (.vdiv { laT 0 with sat := true }) 0 Need.plain laneReady codeBlock
    ∧ Issues (.vmulh (laT 3)) 0 Need.plain laneReady codeBlock :=
  ⟨issues_of (by decide +kernel), issues_of (by decide +kernel), issues_of (by decide +kernel)⟩

theorem wit_LaneBitResults : (∃ r, r ∈ bitRules) ∧ Issues (.vand (laT 0)) 0 Need.plain laneReady codeBlock
    ∧ Issues (.vsar (laT 0)) 0 Need.plain laneReady codeBlock
    ∧ Issues (.vbfe { laT 0 with vb := 0, imm := 0x1F00 }) 0 Need.plain laneReady codeBlock
    ∧ Issues (.vbfi { laT 0 with imm := 0x1F1F }) 0 Need.plain laneReady codeBlock := by
  refine ⟨⟨_, List.mem_cons_self⟩, issues_of ?_, issues_of ?_, issues_of ?_, issues_of ?_⟩ <;> decide +kernel

theorem wit_LaneMoves : Issues (.vcmp { laT 0 with sub := 5, vd := 15 }) 0 Need.plain laneReady codeBlock
    ∧ Issues (.vsel { laT 0 with vc := 15 }) 0 Need.plain laneReady codeBlock
    ∧ Issues (.vmov { laT 0 with vb := 0 }) 0 Need.plain laneReady codeBlock
    ∧ Issues (.vmovs { laT 0 with va := 63, vb := 0 }) 0 Need.plain laneReady codeBlock
    ∧ Issues (.vlane { laT 0 with va := 0, vb := 0 }) 0 Need.plain laneReady codeBlock
    ∧ (∃ s : State, Issues (.vrdx { laT 0 with vb := 0 }) 0 Need.plain s codeBlock
      ∧ (∀ i, Active s codeBlock 0 i → (s.me.rv 4 i).toNat < 8 * s.me.csr.budget.toNat)
      ∧ s.me.loads = [] ∧ (s.coreOfGroup s.cur.g).engine = [])
    ∧ (∃ s : State, Issues (.vwrx { laT 0 with vd := 0 }) 0 Need.plain s codeBlock
      ∧ (∀ i, Active s codeBlock 0 i → (s.me.rv 4 i).toNat < 8 * s.me.csr.budget.toNat)
      ∧ s.me.loads = [] ∧ (s.coreOfGroup s.cur.g).engine = [] ∧ s.me.locks = [])
    ∧ Issues (.vtos { laT 0 with vb := 0, imm := 31 }) 0 Need.plain laneReady codeBlock := by
  refine ⟨issues_of ?_, issues_of ?_, issues_of ?_, issues_of ?_, issues_of ?_,
    ⟨laneReady.setMe (laneReady.me.wv 4 31 255), issues_of ?_, fun i h => ?_, ?_, ?_⟩,
    ⟨laneReady.setMe (laneReady.me.wv 4 31 255), issues_of ?_, fun i h => ?_, ?_, ?_, ?_⟩, issues_of ?_⟩
  case refine_7 => exact (by decide +kernel : ∀ i, i < 32 →
      ((laneReady.setMe (laneReady.me.wv 4 31 255)).me.rv 4 i).toNat < 8 * (laneReady.setMe (laneReady.me.wv 4 31 255)).me.csr.budget.toNat) i h.1
  case refine_11 => exact (by decide +kernel : ∀ i, i < 32 →
      ((laneReady.setMe (laneReady.me.wv 4 31 255)).me.rv 4 i).toNat < 8 * (laneReady.setMe (laneReady.me.wv 4 31 255)).me.csr.budget.toNat) i h.1
  all_goals decide +kernel

/-- The budget is 8 registers and lane 31 names register 8. -/
def beyond : State := laneReady.setMe ({ (laneReady.me.wv 4 31 8) with csr := { laneReady.me.csr with budget := 1 } })

theorem wit_IndexedRegistersTrap : ∃ m : Word,
    (∃ i, Active beyond codeBlock 0 i ∧ 8 * beyond.me.csr.budget.toNat ≤ (beyond.me.rv 4 i).toNat)
    ∧ (∀ i, i < 32 → (m.getLsbD i = true ↔ Active beyond codeBlock 0 i ∧ 8 * beyond.me.csr.budget.toNat ≤ (beyond.me.rv 4 i).toNat))
    ∧ Issues (.vrdx { laT 0 with vb := 0 }) 0 Need.plain beyond codeBlock
    ∧ Issues (.vwrx { laT 0 with vd := 0 }) 0 Need.plain beyond codeBlock := by
  refine ⟨0x80000000, ⟨31, ⟨by decide, by decide +kernel, by decide⟩, by decide +kernel⟩, ?_, issues_of ?_, issues_of ?_⟩
  · unfold Active; decide +kernel
  all_goals decide +kernel

/-! ### Blocks and checks at issue -/

theorem wit_LaneBlockAdvances : (∃ l : Lane, l.w.testBit 47 = true) ∧ ∃ l : Lane, l.w.testBit 47 = false :=
  ⟨⟨laneReady.me.laneAt codeBlock (2 ^ 47) 0, by decide +kernel⟩, laneReady.me.laneAt codeBlock 0 0, by decide +kernel⟩

theorem wit_LaneIssueChecks :
    (∃ (i : Instr) (s : State), s.me.headBlock = some codeBlock ∧ (formOf i).ok = false)
    ∧ (∃ s : State, s.me.headBlock = some codeBlock
      ∧ ¬(∀ r ∈ (formOf (.vadd (laT 0))).reads ++ (formOf (.vadd (laT 0))).writes, r.1 + r.2 ≤ 8 * s.me.csr.budget.toNat))
    ∧ (∃ (need : Need) (b : Block), need.rnd = 6 ∧ 5 ≤ b.frm.toNat % 8)
    ∧ (∃ (need : Need) (b : Block) (kq : KReg), need.all = true ∧ ¬(kq = 0 ∧ b.mask = fullMask))
    ∧ (∃ (need : Need) (s : State), need.flame = true ∧ s.holdsFlame s.cur.g = false)
    ∧ (∃ (need : Need) (s : State) (b : Block), need.badFormat s.me b = true)
    ∧ issuesNow (.vadd (laT 0)) 0 Need.plain laneReady codeBlock = true :=
  ⟨⟨.vadd (laT 15), laneReady, by decide +kernel⟩,
   ⟨laneReady.setMe { laneReady.me with csr := { laneReady.me.csr with budget := 0 } }, by decide +kernel⟩,
   ⟨{ Need.plain with rnd := 6 }, { codeBlock with frm := 5 }, by decide +kernel⟩,
   ⟨allLanes, { codeBlock with mask := 0x7FFFFFFF }, 0, by decide +kernel⟩,
   ⟨{ Need.plain with flame := true }, laneReady, by decide +kernel⟩,
   ⟨{ Need.plain with badFormat := frecRefused (laT 0) }, laneReady, codeBlock, by decide +kernel⟩, by decide +kernel⟩

/-! ### Floating point and conversions -/

/-- A block that traps on division by zero and on invalid operations. -/
def trapBlock : Block := { codeBlock with fpe := 0x1F }

/-- A group at VFDIV of ones by lane 31's zero. -/
def dividing (b : Block) : State :=
  withMe (fun x => { ((List.range 32).foldl (fun y i => (y.wv 4 i 0x3F800000).wv 6 i 0x3F800000) x).wv 6 31 0 with blocks := [b] })

theorem wit_LaneFloatResults : (∃ r, r ∈ floatRules)
    ∧ Issues (.vfadd (laT 4)) 0 (rounds (laT 4)) laneReady codeBlock ∧ codeBlock.fpe.toNat % 32 = 0
    ∧ Issues (.vfadd { laT 4 with rnd := 6 }) 0 (rounds { laT 4 with rnd := 6 }) laneReady codeBlock
    ∧ Issues (.vfadd { laT 4 with rnd := 5, vc := 8 }) 0 (rounds { laT 4 with rnd := 5, vc := 8 }) laneReady codeBlock := by
  refine ⟨⟨_, List.mem_cons_self⟩, issues_of ?_, ?_, issues_of ?_, issues_of ?_⟩ <;> decide +kernel

/-- What lane `i`'s only element raises in `dividing`: division by zero in lane 31 and nothing elsewhere. -/
theorem dividing_flags : ∀ i, i < 32 → ∀ n, n < 5 →
    (floatElem (laT 4) (fun _ t m d a b _ => t.div m d (t.val a) (t.val b)) (dividing trapBlock) trapBlock i 0).flags.testBit n
      = (decide (i = 31) && decide (n = 3)) := by decide +kernel

theorem wit_LaneFloatTraps : ∃ m : Word, Issues (.vfdiv (laT 4)) 0 (rounds (laT 4)) (dividing trapBlock) trapBlock ∧ m ≠ 0
    ∧ (∀ i, i < 32 → (m.getLsbD i = true ↔ Active (dividing trapBlock) trapBlock 0 i
        ∧ ∃ n, n < 5 ∧ trapBlock.fpe.getLsbD n = true
          ∧ LaneFlag (laT 4) (fun _ t m d a b _ => t.div m d (t.val a) (t.val b)) (dividing trapBlock) trapBlock i n)) := by
  refine ⟨0x80000000, issues_of (by decide +kernel), by decide, fun i hi => ?_⟩
  have ha : Active (dividing trapBlock) trapBlock 0 i :=
    ⟨hi, (by decide +kernel : ∀ i, i < 32 → trapBlock.mask.getLsbD i = true) i hi, fun h => absurd rfl h⟩
  have hm := (by decide +kernel : ∀ i, i < 32 → (((0x80000000 : Word).getLsbD i = true) ↔ i = 31)) i hi
  have hc : elemCount (laT 4).ty.toNat = 1 := by decide
  rw [hm]
  constructor
  · intro h
    refine ⟨ha, 3, by decide, by decide +kernel, 0, by rw [hc]; decide, ?_⟩
    rw [dividing_flags i hi 3 (by decide), h]; decide
  · rintro ⟨_, n, hn, _, k, hk, h⟩
    rw [hc] at hk
    obtain rfl : k = 0 := by omega
    rw [dividing_flags i hi n hn] at h
    simp at h
    exact h.1

theorem wit_LaneFloatOthers : Issues (.vfcmp { laT 4 with vd := 15 }) 0 Need.plain laneReady codeBlock
    ∧ Issues (.vfclass { laT 4 with vb := 0 }) 0 Need.plain laneReady codeBlock
    ∧ Issues (.vfscale (laT 4)) 0 (rounds (laT 4)) laneReady codeBlock
    ∧ Issues (.vcvt { laT 4 with vb := 0, sub := 6 }) 0 (rounds { laT 4 with vb := 0, sub := 6 }) laneReady codeBlock
    ∧ codeBlock.fpe.toNat % 32 = 0 := by
  refine ⟨issues_of ?_, issues_of ?_, issues_of ?_, issues_of ?_, ?_⟩ <;> decide +kernel

/-- A group whose format record 0 is a usable one. -/
def formatted : State := laneReady.setMe { laneReady.me with fmt := [(0, 0x1E)] }

theorem wit_LaneDecodes :
    Issues (.vdqn { laT 14 with vd := 8 }) 0 { rounds { laT 14 with vd := 8 } with badFormat := frecRefused { laT 14 with vd := 8 } } formatted codeBlock
    ∧ Issues (.vaif { laT 4 with imm := 40 }) 0 Need.plain laneReady codeBlock
    ∧ Issues (.vrand { laT 1 with vb := 48 }) 0 Need.plain laneReady codeBlock ∧ codeBlock.fpe.toNat % 32 = 0 := by
  refine ⟨issues_of ?_, issues_of ?_, issues_of ?_, ?_⟩ <;> decide +kernel

theorem wit_LaneEncodes :
    Issues (.vqnt (laT 14)) 0 { Need.plain with badFormat := frecRefused (laT 14) } formatted codeBlock
    ∧ Issues (.vaic { laT 4 with vd := 8, vc := 7, imm := 41 }) 0 Need.plain laneReady codeBlock := by
  refine ⟨issues_of ?_, issues_of ?_⟩ <;> decide +kernel

/-! ### Across lanes -/

theorem wit_ShuffleResults : (∃ r, r ∈ shuffleRules) ∧ Issues (.vshflIdx (laT 0)) 0 Need.plain laneReady codeBlock
    ∧ Issues (.vshflXor { laT 0 with m := 1, vb := 0, sub := 3, imm := 31 }) 0 Need.plain laneReady codeBlock := by
  refine ⟨⟨_, List.mem_cons_self⟩, issues_of ?_, issues_of ?_⟩ <;> decide +kernel

/-- A member lane that is not active: mask k1 names lane 31, which the block's snapshot leaves out. -/
def absentBlock : Block := { codeBlock with mask := 0x7FFFFFFF }
def absent : State := withMe (fun x => { (x.wk 1 0x80000000) with blocks := [absentBlock] })

theorem wit_VoteResults : (∃ r, r ∈ voteRules) ∧ Issues (.vvoteAny { laT 0 with vd := 15, vb := 0 }) 0 Need.plain laneReady codeBlock
    ∧ Issues (.vvoteBallot { laT 0 with vd := 3, vb := 0, sub := 2 }) 0 Need.plain laneReady codeBlock
    ∧ (Issues (.vvoteAny { laT 0 with vd := 15, vb := 0, kq := 1 }) 1 Need.plain absent absentBlock ∧ Absent absent absentBlock 1)
    ∧ ¬Absent laneReady codeBlock 0 := by
  refine ⟨⟨_, List.mem_cons_self⟩, issues_of ?_, issues_of ?_, ⟨issues_of ?_, 31, ?_⟩, fun ⟨_, _, h, _⟩ => h rfl⟩ <;> decide +kernel

theorem wit_ReduceAndScanResults : (∃ r, r ∈ reduceRules) ∧ (∃ r, r ∈ scanRules)
    ∧ Issues (.vredAdd { laT 0 with vb := 0 }) 0 Need.plain laneReady codeBlock
    ∧ Issues (.vscanAdd { laT 0 with vb := 0, m := 2 }) 0 Need.plain laneReady codeBlock
    ∧ isFloat (laT 0).ty.toNat = false ∧ codeBlock.part.toNat % 8 < 5 ∧ codeBlock.fpe.toNat % 32 = 0 := by
  refine ⟨⟨_, List.mem_cons_self⟩, ⟨_, List.mem_cons_self⟩, issues_of ?_, issues_of ?_, ?_, ?_, ?_⟩ <;> decide +kernel

end Sys2Proof.Tests
end

