-- ==== Sys2Proof/Tests/WitnessMem.lean ====
section
/-! SUPPORT. Witnesses: for each statement about loads, stores and records, states and operands that meet the hypotheses of
its clauses together. -/

namespace Sys2Proof.Tests

set_option Elab.async false

open Sys2Proof Sys2Proof.Machine Sys2Proof.Claims

/-- Record 0 spans page 3's first 4 KiB and S1 is `o`. -/
def dataReady (o : Word) : State := withMe (fun x => (x.wb 0 dataRec).ws 1 o)

theorem wit_ScalarLoadsIssue :
    (∃ (d : SReg) (b : BReg) (o : SReg) (imm : BitVec 8) (s : State) (p : Loc), MemFree s b ∧ s.me.loadCount < 63
      ∧ Ready s [o.toNat, d.toNat] ∧ PermitsIn s (recRule s b).extent (recRule s b) (scalarAsk 4 false) [(0, offRule s o imm 4)]
      ∧ Places s (scalarWho s) (recRule s b) .load [(0, offRule s o imm 4)] (fun _ => p))
    ∧ (∃ (d : SReg) (b : BReg) (o : SReg) (imm : BitVec 8) (s : State) (p : Loc), MemFree s b ∧ s.me.loadCount < 63
      ∧ EvenReg d ∧ Ready s [o.toNat, d.toNat, d.toNat + 1] ∧ PermitsIn s (recRule s b).extent (recRule s b) (scalarAsk 8 false) [(0, offRule s o imm 4)]
      ∧ Places s (scalarWho s) (recRule s b) .load [(0, offRule s o imm 4)] (fun _ => p))
    ∧ (∃ (bd b : BReg) (o : SReg) (imm : BitVec 8) (s : State) (p : Loc), MemFree s b ∧ s.me.loadCount < 63
      ∧ Ready s [o.toNat] ∧ s.me.pendingB [bd.toNat, b.toNat] = false
      ∧ PermitsIn s (recRule s b).extent (recRule s b) (scalarAsk 16 false) [(0, offRule s o imm 16)]
      ∧ Places s (scalarWho s) (recRule s b) .load [(0, offRule s o imm 16)] (fun _ => p)) := by
  refine ⟨⟨63, 0, 1, -1, dataReady 0x1000, .dev 0x30FFC, ?_, ?_, ?_, ?_, ?_⟩,
    ⟨62, 0, 1, 2, dataReady 0, .dev 0x30008, ?_, ?_, ?_, ?_, ?_, ?_⟩,
    ⟨15, 0, 1, -2, dataReady 0x1010, .dev 0x30FF0, ?_, ?_, ?_, ?_, ?_, ?_⟩⟩
  all_goals first
    | (unfold Places; decide +kernel)
    | (constructor <;> decide +kernel)
    | decide +kernel

theorem wit_ScalarStoresIssue :
    (∃ (b : BReg) (o : SReg) (imm : BitVec 8) (s : State) (p : Loc), MemFree s b ∧ s.me.storeFull = false ∧ s.me.loads = []
      ∧ PermitsIn s (recRule s b).extent (recRule s b) (scalarAsk 4 true) [(0, offRule s o imm 4)]
      ∧ Places s (scalarWho s) (recRule s b) .store [(0, offRule s o imm 4)] (fun _ => p)
      ∧ s.creditFor s.cur.g (storeCharge 4 [(recRule s b).addr (hclOf s.cur.g) (offRule s o imm 4).toNat]) = true)
    ∧ (∃ (a : SReg) (b : BReg) (o : SReg) (imm : BitVec 8) (s : State) (p : Loc), MemFree s b ∧ s.me.storeFull = false ∧ s.me.loads = []
      ∧ EvenReg a ∧ PermitsIn s (recRule s b).extent (recRule s b) (scalarAsk 8 true) [(0, offRule s o imm 4)]
      ∧ Places s (scalarWho s) (recRule s b) .store [(0, offRule s o imm 4)] (fun _ => p)
      ∧ s.creditFor s.cur.g (storeCharge 8 [(recRule s b).addr (hclOf s.cur.g) (offRule s o imm 4).toNat]) = true) := by
  refine ⟨⟨0, 1, -1, dataReady 0x1000, .dev 0x30FFC, ?_, ?_, ?_, ?_, ?_, ?_⟩,
    ⟨62, 0, 1, -2, dataReady 0x1000, .dev 0x30FF8, ?_, ?_, ?_, ?_, ?_, ?_, ?_⟩⟩
  all_goals first
    | (unfold Places; decide +kernel)
    | (constructor <;> decide +kernel)

/-- Record 0 of class `cls`, misplaced or write-only as its other arguments say. -/
def otherReady (bits : BitVec 128) (o : Word) : State := withMe (fun x => (x.wb 0 bits).ws 1 o)

theorem wit_ScalarAccessTraps :
    let bad1 (s : State) := (recRule s 0).cls = 2 ∨ (recRule s 0).cls = 4
    let bad2 (s : State) := offRule s 1 0 4 < 0 ∨ ((recRule s 0).limit s (hclOf s.cur.g) : Int) < offRule s 1 0 4 + 4 ∨ (recRule s 0).rd = false
    let bad3 (s : State) := ((recRule s 0).base + (recRule s 0).swizzle (offRule s 1 0 4).toNat) % 4 ≠ 0
    let free (s : State) := MemFree s 0 ∧ s.me.loadCount < 63 ∧ Ready s [(1 : SReg).toNat, (2 : SReg).toNat]
    (∃ s, free s ∧ bad1 s)
    ∧ (∃ s, free s ∧ ¬bad1 s ∧ (recRule s 0).refused = false ∧ (recRule s 0).cls < 5 ∧ bad2 s)
    ∧ (∃ s, free s ∧ ¬bad1 s ∧ (recRule s 0).refused = false ∧ (recRule s 0).cls < 5 ∧ ¬bad2 s
        ∧ (recRule s 0).base % (recRule s 0).unit = 0 ∧ bad3 s) := by
  refine ⟨⟨otherReady (recBits 4 0x30000 4096) 0, by decide +kernel⟩, ⟨dataReady 0xFFD, by decide +kernel⟩,
    ⟨dataReady 0xFFB, by decide +kernel⟩⟩

/-- Group 0 with one outstanding load of `kind` at `accs`. -/
def loading (kind : LoadKind) (accs : List LaneAcc) : State :=
  withMe (fun x => x.addLoad kind accs 0 0 0 { pc := 0, lanePc := 0, w0 := 0, w1 := 0, w2 := 0, slotB := false, lane := false })

/-- The one load of `loading`. -/
def loadOf (s : State) : LoadEntry := s.me.loads.headD ⟨0, 0, .scalar 0 0, [], [], 0, 0, false, ⟨false, false, 0, 0, 0, 0, 0⟩⟩

theorem wit_ScalarLoadReturns :
    (∃ (g : Nat) (s : State) (e : LoadEntry) (p : Nat × Loc) (rd n : Nat), LlcCoherent s ∧ (s.group g).loads = [e] ∧ e.got = []
      ∧ e.accs = [{ lane := 0, va := p.1, loc := some p.2 }] ∧ s.logOf g = [] ∧ (s.group g).stores = []
      ∧ (∀ h ∈ s.hcls, h.2.packets = []) ∧ s.ras.poison = [] ∧ e.kind = .scalar rd n ∧ n = 8 ∧ rd ≠ 0)
    ∧ (∃ (g : Nat) (s : State) (e : LoadEntry) (p : Nat × Loc) (bd : Nat), LlcCoherent s ∧ (s.group g).loads = [e] ∧ e.got = []
      ∧ e.accs = [{ lane := 0, va := p.1, loc := some p.2 }] ∧ s.logOf g = [] ∧ (s.group g).stores = []
      ∧ (∀ h ∈ s.hcls, h.2.packets = []) ∧ s.ras.poison = [] ∧ e.kind = .record bd
      ∧ imageRefused (BitVec.ofNat 128 (bytesNat ((List.range 16).map (fun i => s.loadByte g e.id e.cls false (p.2.plus i))))) = false) := by
  refine ⟨⟨0, loading (.scalar 62 8) [⟨0, 0x30000, some (.dev 0x30000)⟩], loadOf (loading (.scalar 62 8) [⟨0, 0x30000, some (.dev 0x30000)⟩]), (0x30000, .dev 0x30000), 62, 8, ?_, rfl, ?_⟩,
    ⟨0, loading (.record 15) [⟨0, 0x30000, some (.dev 0x30000)⟩], loadOf (loading (.record 15) [⟨0, 0x30000, some (.dev 0x30000)⟩]), (0x30000, .dev 0x30000), 15, ?_, rfl, ?_⟩⟩
  all_goals first
    | exact coherent_of_empty _ (by decide +kernel)
    | decide +kernel

/-- Two writes that overlap, at the head of group 0's store queue. -/
def twoWrites : List Write := [⟨0x30000, some (.dev 0x30000), [1, 2, 3, 4], 0, 0⟩, ⟨0x30002, some (.dev 0x30002), [5, 6], 0, 0⟩]

/-- The lines of a DISCARD at the head of group 0's store queue. -/
def discarding : State := withMe (fun x => x.addStore (.discard [0x1800, 0x1801] 3) 0 0 false true)

theorem wit_StoreDrains :
    (∃ (g : Nat) (s : State) (e : StoreEntry) (rest : List StoreEntry) (ws : List Write), LlcCoherent s
      ∧ (s.group g).stores = e :: rest ∧ e.kind = .bytes ws ∧ (∀ w ∈ ws, ∃ d, w.loc = some (.dev d)) ∧ s.logHeads g = []
      ∧ s.logOf g = [] ∧ (s.group g).loads = [] ∧ (s.group g).feStores = [] ∧ (∀ h ∈ s.hcls, h.2.packets = []))
    ∧ (∃ (g : Nat) (s : State) (e : StoreEntry) (rest : List StoreEntry) (lines : List Nat) (stream : Nat), LlcCoherent s
      ∧ (s.group g).stores = e :: rest ∧ e.kind = .discard lines stream ∧ lines ≠ [] ∧ s.logHeads g = [] ∧ (s.group g).loads = []
      ∧ (s.group g).feStores = [] ∧ (∀ h ∈ s.hcls, h.2.packets = [])) := by
  refine ⟨⟨0, withMe (fun x => x.addStore (.bytes twoWrites) 0 0 false true), ⟨0, 0, .bytes twoWrites, 0, false, true⟩, [], twoWrites,
    coherent_of_empty _ (by decide +kernel), by decide +kernel, rfl, ?_, by decide +kernel⟩,
    ⟨0, discarding, ⟨0, 0, .discard [0x1800, 0x1801] 3, 0, false, true⟩, [], [0x1800, 0x1801], 3,
      coherent_of_empty _ (by decide +kernel), by decide +kernel⟩⟩
  intro w hw
  simp only [twoWrites, List.mem_cons, List.not_mem_nil, or_false] at hw
  rcases hw with rfl | rfl
  · exact ⟨_, rfl⟩
  · exact ⟨_, rfl⟩

theorem wit_RecordNarrowing :
    (∃ (d b : BReg) (o x : SReg) (sel : BitVec 8) (s : State), s.me.pendingB [d.toNat, b.toNat] = false ∧ s.me.pendingB [b.toNat] = false
      ∧ Ready s [o.toNat] ∧ Ready s [0] ∧ Ready s [x.toNat] ∧ (s.me.rs o.toNat).toNat ≤ (recRule s b).extent ∧ sel.toNat ≤ 9)
    ∧ (∃ (d b : BReg) (o x : SReg) (sel : BitVec 8) (s : State), s.me.pendingB [d.toNat, b.toNat] = false ∧ s.me.pendingB [b.toNat] = false
      ∧ Ready s [o.toNat] ∧ Ready s [0] ∧ Ready s [x.toNat] ∧ (recRule s b).extent < (s.me.rs o.toNat).toNat ∧ 10 ≤ sel.toNat) := by
  exact ⟨⟨15, 0, 1, 63, 9, dataReady 4096, by decide +kernel⟩, ⟨0, 0, 1, 0, 10, dataReady 4097, by decide +kernel⟩⟩

/-! ### Lanes -/

/-- A lane block, record 0 in page 3 with the bits of `extra`, lane i's v4 at `off i`, and format record 0. -/
def lanesReady (extra : Nat) (off : Nat → Word) : State :=
  withMe (fun x => { x with
    blocks := [codeBlock], fmt := [(0, 0x1E)], b := [(0, BitVec.ofNat 128 (dataRec.toNat + extra))],
    v := ((List.range 32).map (fun i => (128 + i, off i))).filter (fun e => e.2 != 0) })

/-- Lane instructions of the memory layout: record 0, offsets in v4, width code `wc`. -/
def lmW (wc : BitVec 8) : LM := ⟨0, 0, 8, 4, 0, 0, 0, 0, true, 0, wc, 0⟩

/-- Where such a lane's access lies. -/
def there (l : Nat × Int) : Loc := .dev (0x30000 + l.2.toNat)

theorem wit_LaneLoadsIssue :
    (∃ (f : LM) (s : State) (b : Block) (p : Nat × Int → Loc), Issues (.vld f) f.kq Need.plain s b ∧ MemFree s f.b ∧ s.me.loadCount < 63
      ∧ Permits s (laneRec s f) { classes := [0, 1, 3], n := 2 ^ f.wc.toNat, reads := true, writes := false } (laneOffs s b f)
      ∧ Places s (laneWho s b) (laneRec s f) .load (laneOffs s b f) p)
    ∧ (∃ (f : LM) (s : State) (b : Block) (p : Nat × Int → Loc), Issues (.vldt f) f.kq Need.plain s b ∧ MemFree s f.b ∧ s.me.loadCount < 63
      ∧ (laneRec s f).swz = 1
      ∧ (∀ l ∈ columnOffs s b f, (l.2 - l.1 * ((laneRec s f).width : Int)) / ((laneRec s f).width : Int) % 32 = 0
        ∧ (l.2 - l.1 * ((laneRec s f).width : Int)) % ((laneRec s f).width : Int) % ((2 ^ f.wc.toNat : Nat) : Int) = 0)
      ∧ Permits s (laneRec s f) { classes := [0], n := 2 ^ f.wc.toNat, reads := true, writes := false } (columnOffs s b f)
      ∧ Places s (laneWho s b) (laneRec s f) .load (columnOffs s b f) p) := by
  refine ⟨⟨lmW 4, lanesReady 0 (fun i => BitVec.ofNat 32 (0xE00 + 16 * i)), codeBlock, there, issues_of ?_, ?_, ?_, ?_, ?_⟩,
    ⟨lmW 2, lanesReady (2 ^ 120 + 2 ^ 104) (fun i => BitVec.ofNat 32 (60 + 64 * i)), codeBlock,
      fun l => .dev (0x30000 + (recOf (BitVec.ofNat 128 (dataRec.toNat + 2 ^ 120 + 2 ^ 104))).swizzle l.2.toNat), issues_of ?_, ?_, ?_, ?_, ?_, ?_, ?_⟩⟩
  all_goals first
    | (unfold Places; decide +kernel)
    | (constructor <;> decide +kernel)
    | decide +kernel

theorem wit_LaneStoresIssue :
    (∃ (f : LM) (s : State) (b : Block) (p : Nat × Int → Loc), Issues (.vst f) f.kq Need.plain s b ∧ MemFree s f.b ∧ s.me.storeFull = false
      ∧ s.me.loads = []
      ∧ Permits s (laneRec s f) { classes := [0, 1, 3], n := 2 ^ f.wc.toNat, reads := false, writes := true } (laneOffs s b f)
      ∧ Places s (laneWho s b) (laneRec s f) .store (laneOffs s b f) p
      ∧ s.creditFor s.cur.g (storeCharge (2 ^ f.wc.toNat) ((accsOf s (laneRec s f) (laneOffs s b f) p).map (·.va))) = true
      ∧ Issues (.vstnb f) f.kq Need.plain s b ∧ s.teamOf s.cur.g = none ∧ laneOffs s b f ≠ [])
    ∧ (∃ (f : LM) (s : State) (b : Block) (p : Nat × Int → Loc), Issues (.vstnb f) f.kq Need.plain s b ∧ MemFree s f.b
      ∧ s.me.storeFull = true
      ∧ Permits s (laneRec s f) { classes := [0, 1, 3], n := 2 ^ f.wc.toNat, reads := false, writes := true } (laneOffs s b f)
      ∧ Places s (laneWho s b) (laneRec s f) .store (laneOffs s b f) p) := by
  refine ⟨⟨lmW 4, lanesReady 0 (fun i => BitVec.ofNat 32 (0xE00 + 16 * i)), codeBlock, there, issues_of ?_, ?_, ?_, ?_, ?_, ?_, ?_, issues_of ?_, ?_, ?_⟩,
    ⟨lmW 0, (lanesReady 0 (fun i => BitVec.ofNat 32 i)).setMe { (lanesReady 0 (fun i => BitVec.ofNat 32 i)).me with
      stores := List.replicate 32 ⟨0, 0, .bytes twoWrites, 0, false, true⟩ }, codeBlock, there, issues_of ?_, ?_, ?_, ?_, ?_⟩⟩
  all_goals first
    | (unfold Places; decide +kernel)
    | (constructor <;> decide +kernel)
    | decide +kernel

theorem wit_BlockAccessIssue : ∃ (f : LM) (s : State) (b : Block) (p : Nat × Int → Loc),
    let w := s.me.frecOf f.b.toNat
    let vs := liveSlots f (widest w) (s.me.laneAt b (laneWord (.vldb f)) f.kq) s.me
    let vs' := liveSlots f (widest w) (s.me.laneAt b (laneWord (.vstb f)) f.kq) s.me
    Issues (.vldb f) f.kq (blockNeed f) s b ∧ Issues (.vstb f) f.kq (blockNeed f) s b ∧ MemFree s f.b ∧ s.me.loadCount < 63
      ∧ (laneRec s f).swz = 0 ∧ (laneRec s f).base % 64 = 0 ∧ s.me.storeFull = false ∧ s.me.loads = [] ∧ s.teamOf s.cur.g = none
      ∧ Permits s (laneRec s f) { classes := [0, 1, 3], n := 64, reads := true, writes := false } (slotLanes w vs)
      ∧ Places s (laneWho s b) (laneRec s f) .load (slotLanes w vs) p
      ∧ (∀ g ∈ blockGroups w vs', granuleWhole w g.2 = true)
      ∧ Permits s (laneRec s f) { classes := [0, 1, 3], n := 64, reads := false, writes := true } (slotLanes w vs')
      ∧ Places s (laneWho s b) (laneRec s f) .store (slotLanes w vs') p := by
  refine ⟨lmW 0, lanesReady 0 (fun i => BitVec.ofNat 32 (64 * (i / 4))), codeBlock, there, issues_of ?_, issues_of ?_, ?_, ?_, ?_, ?_, ?_, ?_, ?_, ?_, ?_, ?_, ?_, ?_⟩
  all_goals first
    | (unfold Places; decide +kernel)
    | (constructor <;> decide +kernel)
    | decide +kernel

theorem wit_LaneLoadReturns : ∃ (g : Nat) (s : State) (e : LoadEntry) (vd n : Nat), LlcCoherent s ∧ (s.group g).loads = [e] ∧ e.got = []
    ∧ e.accs ≠ [] ∧ e.kind = .lanes vd n ∧ n ∈ [1, 2, 4, 8, 16] ∧ (∀ a ∈ e.accs, a.lane < 32 ∧ a.loc ≠ none)
    ∧ (e.accs.map (·.lane)).Nodup ∧ s.logOf g = [] ∧ (s.group g).stores = [] ∧ (∀ h ∈ s.hcls, h.2.packets = []) ∧ s.ras.poison = [] := by
  refine ⟨0, loading (.lanes 252 16) [⟨0, 0x30000, some (.dev 0x30000)⟩, ⟨31, 0x30010, some (.dev 0x30010)⟩], loadOf (loading (.lanes 252 16) [⟨0, 0x30000, some (.dev 0x30000)⟩, ⟨31, 0x30010, some (.dev 0x30010)⟩]), 252, 16,
    coherent_of_empty _ (by decide +kernel), rfl, ?_⟩
  decide +kernel

end Sys2Proof.Tests
end

