-- ==== Sys2Proof/Tests/WitnessUnits.lean ====
section
/-! SUPPORT. Witnesses: for each statement about the matrix engine, full/empty words and atomics, states and operands that meet
the hypotheses of its clauses together. -/

namespace Sys2Proof.Tests

set_option Elab.async false

open Sys2Proof Sys2Proof.Machine Sys2Proof.Claims

/-- The result is a next state. -/
def goesOn (r : Host.Outcome State Fault Refusal) : Bool := match r with
  | .next _ => true
  | _ => false

theorem next_of {r : Host.Outcome State Fault Refusal} (h : goesOn r = true) : ∃ t, r = .next t := by
  cases r with
  | next t => exact ⟨t, rfl⟩
  | fault _ => simp [goesOn] at h
  | refused _ => simp [goesOn] at h

/-! ### The matrix engine -/

/-- A lane block of all lanes in a group that holds its core's flame, with format record 0 and records 0 in the scratchpad. -/
def matrixReady : State :=
  let s := laneReady.setMe { (laneReady.me.wb 0 (recBits 1 0 32768)) with fmt := [(0, 0x1E)] }
  s.setCore 0 { s.core 0 with flame := some 0 }

/-- Matrix fields of a shape with the highest origin. -/
def ltS (shape : BitVec 4) : LT := ⟨shape, 0, false, 0, 16, 0, 0, true, 0, 12, 12, 0⟩

theorem wit_MatrixIssues :
    Issues (.mma { ltS 4 with ea := 32, eb := 36, flags := 3 }) 0
        { matrixNeed with badFormat := matrixFormatBad { ltS 4 with ea := 32, eb := 36, flags := 3 } } matrixReady codeBlock
    ∧ (Issues (.mmas { ltS 0 with sparse := true, b := 32, md := 50 }) 0
        { matrixNeed with badFormat := matrixFormatBad { ltS 0 with sparse := true, b := 32, md := 50 } } matrixReady codeBlock
      ∧ bitmapBad { ltS 0 with sparse := true, b := 32, md := 50 } matrixReady.me = false)
    ∧ Issues (.mperm { ltS 5 with flags := 4 }) 0 matrixNeed matrixReady codeBlock
    ∧ Issues (.mzero { ltS 0 with b := 0 }) 0 matrixNeed matrixReady codeBlock
    ∧ Issues (.mlda { ltS 0 with a := 248, b := 0, row0 := 15 }) 0 matrixNeed matrixReady codeBlock
    ∧ Issues (.msta { ltS 0 with a := 248, b := 0, col0 := 15 }) 0 matrixNeed matrixReady codeBlock
    ∧ (Issues (.mcpySt { ltS 0 with b := 255 }) 0 matrixNeed matrixReady codeBlock ∧ matrixReady.me.pendingB [0] = false
      ∧ McpyOk matrixReady { ltS 0 with b := 255 } true)
    ∧ (Issues (.mcpyLd { ltS 0 with a := 8, b := 255 }) 0 matrixNeed matrixReady codeBlock ∧ matrixReady.me.pendingB [0] = false
      ∧ McpyOk matrixReady { ltS 0 with a := 8, b := 255 } false)
    ∧ (matrixReady.coreOfGroup matrixReady.cur.g).engine.length < 8 := by
  refine ⟨issues_of ?_, ⟨issues_of ?_, ?_⟩, issues_of ?_, issues_of ?_, issues_of ?_, issues_of ?_, ⟨issues_of ?_, ?_, ?_⟩,
    ⟨issues_of ?_, ?_, ?_⟩, ?_⟩
  all_goals decide +kernel

/-- The engine of core 0 holds `i`. -/
def queued (i : Instr) : EngineOp := ⟨0, 0, i, 0, 0, 0, false, 0⟩
def working (i : Instr) : State := ready.setCore 0 { ready.core 0 with engine := [queued i] }

theorem executed_of {i : Instr} (h : goesOn (execMatrixExecute 0 0 (working i)) = true) :
    ∃ t, Executed 0 (working i) t (queued i) [] := by
  obtain ⟨t, ht⟩ := next_of h
  exact ⟨t, rfl, ht⟩

theorem wit_MatrixResults :
    ((∃ t, Executed 0 (working (.mma (ltS 0))) t (queued (.mma (ltS 0))) [])
      ∧ (∃ t, Executed 0 (working (.mmas { ltS 0 with flags := 1 })) t (queued (.mmas { ltS 0 with flags := 1 })) [])
      ∧ liveSlices { ltS 0 with flags := 1 } ready.me = []
      ∧ (∃ t, Executed 0 (working (.mmas (ltS 0))) t (queued (.mmas (ltS 0))) []) ∧ liveSlices (ltS 0) ready.me = []
      ∧ (∃ t, Executed 0 (working (.mzero (ltS 0))) t (queued (.mzero (ltS 0))) [])
      ∧ (∃ t, Executed 0 (working (.mperm (ltS 0))) t (queued (.mperm (ltS 0))) [])
      ∧ (∃ t, Executed 0 (working (.mlda (ltS 0))) t (queued (.mlda (ltS 0))) [])
      ∧ (∃ t, Executed 0 (working (.mcpyLd (ltS 0))) t (queued (.mcpyLd (ltS 0))) [])
      ∧ (∃ t, Executed 0 (working (.msta (ltS 0))) t (queued (.msta (ltS 0))) [])
      ∧ (∃ t, Executed 0 (working (.mcpySt (ltS 0))) t (queued (.mcpySt (ltS 0))) []))
    ∧ (∀ q, q < shapeDepth 0 → ready.me.fragBits 0 0 63 q = 0)
    ∧ (∀ r, r < shapeDepth 0 → ((ready.me.wv 0 0 0x3C00).fragBits 0 0 0 r ≠ 0 ↔ r = 0))
    ∧ ∃ f, (working (.mma f)).core 0 = { ready.core 0 with engine := [queued (.mma f)] } := by
  refine ⟨⟨executed_of ?_, executed_of ?_, ?_, executed_of ?_, ?_, executed_of ?_, executed_of ?_, executed_of ?_,
    executed_of ?_, executed_of ?_, executed_of ?_⟩, ?_, ?_, ltS 0, rfl⟩
  all_goals decide +kernel

/-! ### Full/empty words -/

/-- One lane, lane 31, names word 5 of core 0's scratchpad, which is `full`. -/
def oneBlock : Block := { codeBlock with mask := 0x80000000 }
def wordReady (full : Bool) : State :=
  let x := ({ laneReady.me with blocks := [oneBlock] }.wb 0 (recBits 1 0 4096)).wv 4 31 20
  let s := laneReady.setMe x
  s.setCore 0 { s.core 0 with scratch := [(5, { data := 7, full := full })] }

/-- Lane instructions of the memory layout on that word. -/
def lmF (wc : BitVec 8) : LM := { lmW wc with vd := 255 }

theorem namesWord (i : Instr) (f : LM) (store full : Bool) (h : issuesNow i f.kq Need.plain (wordReady full) oneBlock = true)
    (hf : f.b = 0 ∧ f.voff = 4 ∧ f.kq = 0 ∧ f.disp = 0) : NamesWord i f store (wordReady full) oneBlock 31 0 5 := by
  obtain ⟨hb, hv, hk, hd⟩ := hf
  have p : Permits (wordReady full) (recOf ((wordReady full).me.rb 0)) { classes := [1], n := 4, reads := !store, writes := store }
      [(31, 20)] := by
    cases full <;> cases store <;> (constructor <;> decide +kernel)
  refine ⟨issues_of h, ?_, ⟨20, ?_, ?_, ?_⟩, by decide, ?_, ?_, ?_⟩
  · rw [hb]; cases full <;> decide +kernel
  · simp only [laneOffs, hv, hk, hd]; cases full <;> decide +kernel
  · simp only [laneRec, hb]; cases full <;> decide +kernel
  · simp only [laneRec, hb]; exact p
  · simp only [laneRec, hb]; cases full <;> decide +kernel
  · cases full <;> decide +kernel
  · cases full <;> decide +kernel

/-- A lane that has waited for `n` cycles, with FETMOCFG 1. -/
def waited (n : Nat) : State :=
  let s := { ready with ck := n, vm := { ready.vm with fetmocfg := 1 } }
  s.setCore 0 { s.core 0 with waiters := [⟨0, 0, 0, 5, 0, 0, 0, ⟨false, true, 0, 0, 0, 0, 0⟩⟩] }

theorem wit_FullEmptyWords :
    NamesWord (.vldf (lmF 2)) (lmF 2) false (wordReady true) oneBlock 31 0 5 ∧ (wordAt (wordReady true) 0 5).full = true
    ∧ NamesWord (.vldf (lmF 2)) (lmF 2) false (wordReady false) oneBlock 31 0 5 ∧ (wordAt (wordReady false) 0 5).full = false
    ∧ NamesWord (.vldfk (lmF 2)) (lmF 2) false (wordReady true) oneBlock 31 0 5
    ∧ NamesWord (.vste (lmF 2)) (lmF 2) true (wordReady false) oneBlock 31 0 5
    ∧ NamesWord (.vste (lmF 2)) (lmF 2) true (wordReady true) oneBlock 31 0 5
    ∧ NamesWord (.vstf (lmF 2)) (lmF 2) true (wordReady true) oneBlock 31 0 5
    ∧ NamesWord (.vfecEmpty { lmF 0 with vd := 0 }) { lmF 0 with vd := 0 } true (wordReady true) oneBlock 31 0 5
    ∧ NamesWord (.vfecFull { lmF 1 with vd := 0 }) { lmF 1 with vd := 0 } true (wordReady false) oneBlock 31 0 5
    ∧ (∃ (g : Nat) (s : State), s.vm.fetmocfg ≠ 0
      ∧ (∃ e ∈ s.cores, ∃ w ∈ e.2.waiters, w.g = g ∧ w.since + s.vm.fetmocfg.toNat < s.ck))
    ∧ (∃ (g : Nat) (s : State), s.vm.fetmocfg ≠ 0 ∧ s.cores ≠ []
      ∧ (∀ e ∈ s.cores, ∀ w ∈ e.2.waiters, w.g = g → s.ck ≤ w.since + s.vm.fetmocfg.toNat)) := by
  refine ⟨namesWord _ _ _ _ ?_ ?_, ?_, namesWord _ _ _ _ ?_ ?_, ?_, namesWord _ _ _ _ ?_ ?_, namesWord _ _ _ _ ?_ ?_,
    namesWord _ _ _ _ ?_ ?_, namesWord _ _ _ _ ?_ ?_, namesWord _ _ _ _ ?_ ?_, namesWord _ _ _ _ ?_ ?_,
    ⟨0, waited 2, ?_⟩, ⟨0, waited 1, ?_⟩⟩
  all_goals decide +kernel

/-! ### Atomics -/

/-- Fields of an atomic of type `ty`: subcode `sub` of 4 or 8 bytes, operands in v8. -/
def lmA (ty : BitVec 4) (wc : BitVec 8) : LM := { lmW wc with ty := ty }

/-- Every lane names its own 8 bytes of page 3. -/
def atomReady : State := lanesReady 0 (fun i => BitVec.ofNat 32 (8 * i))

theorem mayAtom (i : Instr) (f : LM) (op : Nat) (returns : Bool) (h : issuesNow i f.kq Need.plain atomReady codeBlock = true)
    (hf : f.b = 0 ∧ f.voff = 4 ∧ f.kq = 0 ∧ f.disp = 0) (hn : elemBits f.ty.toNat / 8 = 4 ∨ elemBits f.ty.toNat / 8 = 8) :
    MayAtom i f op returns atomReady codeBlock (fun l => 0x30000 + l.2.toNat) := by
  obtain ⟨hb, hv, hk, hd⟩ := hf
  have ho : laneOffs atomReady codeBlock f = (List.range 32).map (fun (i : Nat) => (i, ((8 * i : Nat) : Int))) := by
    simp only [laneOffs, hv, hk, hd]
    decide +kernel
  have p : ∀ n, n = 4 ∨ n = 8 → Permits atomReady (recOf (atomReady.me.rb 0)) { classes := [0], n := n, reads := returns, writes := true }
      ((List.range 32).map (fun (i : Nat) => (i, ((8 * i : Nat) : Int)))) := by
    rintro n (rfl | rfl) <;> cases returns <;> (constructor <;> decide +kernel)
  refine ⟨issues_of h, ?_, ?_, ?_, ?_, fun _ => by decide +kernel, by decide +kernel, by decide +kernel, ?_⟩
  · rw [hb]; decide +kernel
  · rw [ho]; decide
  · rw [ho]; simp only [laneRec, hb]; exact p _ hn
  · rw [ho]; simp only [laneRec, hb]; unfold Places; decide +kernel
  · rw [ho]; decide +kernel

theorem wit_AtomicsIssue :
    MayAtom (.vatomAdd (lmA 0 2)) (lmA 0 2) 0 true atomReady codeBlock (fun l => 0x30000 + l.2.toNat)
    ∧ MayAtom (.vatomMin (lmA 3 11)) (lmA 3 11) 1 true atomReady codeBlock (fun l => 0x30000 + l.2.toNat)
    ∧ MayAtom (.vatomMax (lmA 1 18)) (lmA 1 18) 2 true atomReady codeBlock (fun l => 0x30000 + l.2.toNat)
    ∧ MayAtom (.vatomAnd (lmA 0 26)) (lmA 0 26) 3 true atomReady codeBlock (fun l => 0x30000 + l.2.toNat)
    ∧ MayAtom (.vatomOr (lmA 0 34)) (lmA 0 34) 4 true atomReady codeBlock (fun l => 0x30000 + l.2.toNat)
    ∧ MayAtom (.vatomXor (lmA 0 42)) (lmA 0 42) 5 true atomReady codeBlock (fun l => 0x30000 + l.2.toNat)
    ∧ MayAtom (.vatomXchg (lmA 2 51)) (lmA 2 51) 6 true atomReady codeBlock (fun l => 0x30000 + l.2.toNat)
    ∧ MayAtom (.vatomCas { lmA 2 59 with second := 10 }) { lmA 2 59 with second := 10 } 7 true atomReady codeBlock
        (fun l => 0x30000 + l.2.toNat)
    ∧ MayAtom (.vatomFadd (lmA 4 66)) (lmA 4 66) 8 true atomReady codeBlock (fun l => 0x30000 + l.2.toNat)
    ∧ MayAtom (.vatomAiadd (lmA 2 75)) (lmA 2 75) 9 true atomReady codeBlock (fun l => 0x30000 + l.2.toNat)
    ∧ MayAtom (.vredmAdd (lmA 0 2)) (lmA 0 2) 0 false atomReady codeBlock (fun l => 0x30000 + l.2.toNat)
    ∧ MayAtom (.vredmFadd (lmA 4 66)) (lmA 4 66) 8 false atomReady codeBlock (fun l => 0x30000 + l.2.toNat)
    ∧ MayAtom (.vredmAiadd (lmA 2 75)) (lmA 2 75) 9 false atomReady codeBlock (fun l => 0x30000 + l.2.toNat)
    ∧ ReduceInstr .vredmAdd 0 ∧ ReduceInstr .vredmFadd 8 ∧ ReduceInstr .vredmAiadd 9 ∧ ∃ r, r ∈ atomInstrs := by
  refine ⟨mayAtom _ _ _ _ ?_ ?_ ?_, mayAtom _ _ _ _ ?_ ?_ ?_, mayAtom _ _ _ _ ?_ ?_ ?_, mayAtom _ _ _ _ ?_ ?_ ?_,
    mayAtom _ _ _ _ ?_ ?_ ?_, mayAtom _ _ _ _ ?_ ?_ ?_, mayAtom _ _ _ _ ?_ ?_ ?_, mayAtom _ _ _ _ ?_ ?_ ?_,
    mayAtom _ _ _ _ ?_ ?_ ?_, mayAtom _ _ _ _ ?_ ?_ ?_, mayAtom _ _ _ _ ?_ ?_ ?_, mayAtom _ _ _ _ ?_ ?_ ?_,
    mayAtom _ _ _ _ ?_ ?_ ?_, ?_, ?_, ?_, ⟨_, List.mem_cons_self⟩⟩
  case refine_40 => exact .inl ⟨rfl, rfl⟩
  case refine_41 => exact .inr (.inr (.inr (.inr (.inr (.inr (.inl ⟨rfl, rfl⟩))))))
  case refine_42 => exact .inr (.inr (.inr (.inr (.inr (.inr (.inr ⟨rfl, rfl⟩))))))
  all_goals decide +kernel

/-- A reduction of one lane at the head of group 0's store queue. -/
def reduceLanes : List (LaneAcc × Nat) := [(⟨31, 0x30000, some (.dev 0x30000)⟩, 7)]
def reducing : State := withMe (fun x => x.addStore (.reduce 9 2 true reduceLanes) 0 0 false true)

theorem wit_ReduceLeaves : ∃ (g : Nat) (s : State) (e : StoreEntry) (rest : List StoreEntry) (op ty : Nat) (rel : Bool)
    (ls : List (LaneAcc × Nat)), (s.group g).stores = e :: rest ∧ e.kind = .reduce op ty rel ls
      ∧ (∀ l ∈ ls, ∃ d, l.1.loc = some (.dev d)) ∧ s.logHeads g = [] ∧ s.logOf g = [] ∧ (s.group g).loads = []
      ∧ (s.group g).feStores = [] ∧ (s.group g).storesOther = [] ∧ s.packetsOf g = false ∧ (∀ x ∈ rest, e.id ≤ x.id)
      ∧ s.packetsFull [0x30000] = false := by
  refine ⟨0, reducing, ⟨0, 0, .reduce 9 2 true reduceLanes, 0, false, true⟩, [], 9, 2, true, reduceLanes, by decide +kernel, rfl, ?_,
    by decide +kernel⟩
  intro l hl
  simp only [reduceLanes, List.mem_cons, List.not_mem_nil, or_false] at hl
  exact hl ▸ ⟨_, rfl⟩

/-- A packet of lanes 0 and 31 on the word at 0x30000, at the head of cluster 0's queue, with its group's load. -/
def packet0 (returns : Bool) : Packet :=
  { g := 0, id := 0, ctx := 0, op := 0, ty := 0, returns := returns, ticket := 0, lanes := [(0, 0x30000, 5, 0), (31, 0x30000, 7, 0)] }
def served (returns : Bool) : State :=
  let s := if returns then loading (.atomic 255 0 0 [(0, 5, 0), (31, 7, 0)] [] false false false) [] else
    withMe (fun x => { x with storesOther := [(0, 3, 1)] })
  s.setHcl 0 { s.hcl 0 with packets := [packet0 returns] }

/-- The same with an aligned-integer add whose clamp a later instruction's bit waits for. -/
def clampPacket (returns : Bool) : Packet := { packet0 returns with op := 9, ty := 2 }
def clampUpdates : List LateFlag := [{ id := 0, bits := 0, known := false }, { id := 0, bits := 1, known := true }]
def clampServed (returns : Bool) : State :=
  let s := if returns then loading (.atomic 254 9 2 [(0, 5, 0), (31, 7, 0)] [] false false false) [] else
    withMe (fun x => { x with storesOther := [(0, 3, 1)] })
  let s := s.setGroup 0 { s.group 0 with lateV := clampUpdates }
  s.setHcl 0 { s.hcl 0 with packets := [clampPacket returns] }

theorem wit_AtomicsExecute_flags (returns : Bool) :
    ∃ (h : Nat) (s : State) (p : Packet) (rest : List Packet) (pa : Nat) (tail : List LateFlag),
      (s.hcl h).packets = p :: rest ∧ p.lanes ≠ [] ∧ (∀ l ∈ p.lanes, l.2.1 = pa ∧ l.1 < 32) ∧ (p.lanes.map (·.1)).Nodup ∧ p.ty < 5
      ∧ pa % (elemBits p.ty / 8) = 0 ∧ s.poisoned pa = false ∧ LlcCoherent s ∧ p.g < 2 ^ 20 ∧ s.preemptState p.ctx ≠ 1
      ∧ p.returns = returns ∧ p.op = 9 ∧ (∀ u ∈ tail, u.known = true) ∧ tail ≠ []
      ∧ (s.group p.g).lateV = { id := p.id, bits := 0, known := false } :: tail
      ∧ (if returns then (s.group p.g).loads.map (·.id) = [p.id] else (s.group p.g).storesOther = [(p.id, 3, 1)]) := by
  refine ⟨0, clampServed returns, clampPacket returns, [], 0x30000, [{ id := 0, bits := 1, known := true }], ?_, ?_, ?_, ?_, ?_, ?_,
    ?_, coherent_of_empty _ ?_, ?_⟩
  all_goals
    revert returns
    decide +kernel

theorem wit_AtomicsExecute :
    (∃ (h : Nat) (s : State) (p : Packet) (rest : List Packet) (pa : Nat) (e : LoadEntry) (vd : Nat) (args : List (Nat × Nat × Nat)) (acq rel cl : Bool),
      (s.hcl h).packets = p :: rest ∧ p.lanes ≠ [] ∧ (∀ l ∈ p.lanes, l.2.1 = pa ∧ l.1 < 32) ∧ (p.lanes.map (·.1)).Nodup ∧ p.ty < 5
      ∧ pa % (elemBits p.ty / 8) = 0 ∧ s.poisoned pa = false ∧ LlcCoherent s ∧ p.g < 2 ^ 20 ∧ s.preemptState p.ctx ≠ 1
      ∧ p.returns = true ∧ (s.group p.g).loads = [e] ∧ e.id = p.id ∧ e.kind = .atomic vd p.op p.ty args [] acq rel cl
      ∧ args.length = p.lanes.length)
    ∧ (∃ (h : Nat) (s : State) (p : Packet) (rest : List Packet) (pa q : Nat), (s.hcl h).packets = p :: rest ∧ p.lanes ≠ []
      ∧ (∀ l ∈ p.lanes, l.2.1 = pa ∧ l.1 < 32) ∧ (p.lanes.map (·.1)).Nodup ∧ p.ty < 5
      ∧ pa % (elemBits p.ty / 8) = 0 ∧ s.poisoned pa = false ∧ LlcCoherent s ∧ p.g < 2 ^ 20 ∧ s.preemptState p.ctx ≠ 1
      ∧ p.returns = false ∧ (s.group p.g).storesOther = [(p.id, q, 1)]) := by
  refine ⟨⟨0, served true, packet0 true, [], 0x30000, loadOf (loading (.atomic 255 0 0 [(0, 5, 0), (31, 7, 0)] [] false false false) []),
      255, [(0, 5, 0), (31, 7, 0)], false, false, false, ?_, ?_, ?_, ?_, ?_, ?_, ?_, coherent_of_empty _ ?_, ?_⟩,
    ⟨0, served false, packet0 false, [], 0x30000, 3, ?_, ?_, ?_, ?_, ?_, ?_, ?_, coherent_of_empty _ ?_, ?_⟩⟩
  all_goals decide +kernel

end Sys2Proof.Tests
end

