-- ==== Sys2Proof/Tests/WitnessContent.lean ====
section
/-! SUPPORT. Witnesses: for each statement about the optimiser, content-addressed lines and replica loads, states and operands
that meet the hypotheses of its clauses together. -/

namespace Sys2Proof.Tests

set_option Elab.async false

open Sys2Proof Sys2Proof.Machine Sys2Proof.Claims

/-! ### VOPT -/

/-- Records 0 to 3 in page 3, 1 KiB each; the gradient's is read-only. Lane i's offset is 4 i. -/
def optState : State :=
  withMe (fun x => { x with
    blocks := [codeBlock], v := (span 129 31).map (fun i => (i, BitVec.ofNat 32 (4 * (i - 128)))),
    b := [(0, recBits 0 0x30000 128), (1, BitVec.ofNat 128 ((recBits 0 0x30400 128).toNat - 2 ^ 60)), (2, recBits 0 0x30800 128),
      (3, recBits 0 0x30C00 128)] })

/-- Fields of VOPT in mode `m`: records 0, 1, 2 and, for Adam, 3. -/
def optF (m : BitVec 8) (imm : Word) : LA := { laT 4 with vd := 0, vb := 0, vc := 56, sub := m, imm := imm }

/-- Where lane i's word of record k lies. -/
def optPlace (k : Nat) (l : Nat × Int) : Loc := .dev (0x30000 + 0x400 * k + l.2.toNat)

/-- The offsets of VOPT in `optState`. -/
def optOff : List (Nat × Int) := (List.range 32).map (fun i => (i, ((4 * i : Nat) : Int)))

theorem optState_places : ∀ k, k < 4 → Places optState (laneWho optState codeBlock) (recOf (optState.me.rb k)) .load optOff (optPlace k)
    ∧ (k ≠ 1 → Places optState (laneWho optState codeBlock) (recOf (optState.me.rb k)) .store optOff (optPlace k)) := by
  unfold Places
  decide +kernel

theorem optState_records : ∀ k, k < 4 → (recOf (optState.me.rb k)).cls = 0 ∧ (recOf (optState.me.rb k)).refused = false
    ∧ (recOf (optState.me.rb k)).rd = true ∧ (k ≠ 1 → (recOf (optState.me.rb k)).wr = true) ∧ (recOf (optState.me.rb k)).base % (recOf (optState.me.rb k)).unit = 0
    ∧ ∀ l ∈ optOff, l.2 + 4 ≤ ((recOf (optState.me.rb k)).limit optState 0 : Int)
      ∧ ((recOf (optState.me.rb k)).base + (recOf (optState.me.rb k)).swizzle l.2.toNat) % 4 = 0 := by
  decide +kernel

theorem optReady (i : Instr) (f : LA) (n : Nat) (h : issuesNow i f.kq allLanes optState codeBlock = true)
    (hr : (optRecs f).length = n ∧ (∀ k, k < n → (optRecs f).getD k 0 = k) ∧ optState.me.pendingB (optRecs f) = false)
    (hf : f.va = 4) (hn : n ≤ 4) : OptReady i f n optState codeBlock optPlace := by
  obtain ⟨hl, hk, hp⟩ := hr
  have ho : optOffs f optState = optOff := by simp only [optOffs, hf]; decide +kernel
  have e : ∀ k, k < n → optRecord f optState k = recOf (optState.me.rb k) := fun k h => by rw [optRecord, hk k h]
  refine ⟨issues_of h, hl, hp, ?_, ?_, ?_, ?_, fun k h => ?_, fun k h => ?_, fun k h h1 => ?_, fun k h => ?_, fun k h => ?_, fun k h => ?_, fun k h h1 => ?_⟩
  · decide +kernel
  · decide +kernel
  · decide +kernel
  · decide +kernel
  · rw [e k h]
    obtain ⟨a, b, -⟩ := optState_records k (by omega)
    exact ⟨by rw [a]; decide, b⟩
  · rw [e k h]
    exact (optState_records k (by omega)).2.2.1
  · rw [e k h]
    exact (optState_records k (by omega)).2.2.2.1 h1
  · rw [e k h, ho]
    exact fun l hl => ((optState_records k (by omega)).2.2.2.2.2 l hl).1
  · rw [e k h, ho]
    exact ⟨(optState_records k (by omega)).2.2.2.2.1, fun l hl => ((optState_records k (by omega)).2.2.2.2.2 l hl).2⟩
  · rw [e k h, ho]
    exact (optState_places k (by omega)).1
  · rw [e k h, ho]
    exact (optState_places k (by omega)).2 h1

theorem wit_OptimiserSteps :
    OptReady (.voptAdamw (optF 0 0x01230000)) (optF 0 0x01230000) 4 optState codeBlock optPlace
    ∧ OptReady (.voptAdam (optF 1 0x01230000)) (optF 1 0x01230000) 4 optState codeBlock optPlace
    ∧ OptReady (.voptLion (optF 2 0x01200000)) (optF 2 0x01200000) 3 optState codeBlock optPlace
    ∧ OptReady (.voptSgd (optF 3 0x01200000)) (optF 3 0x01200000) 3 optState codeBlock optPlace
    ∧ (∃ r, r ∈ optInstrs) ∧ codeBlock.fpe.toNat % 32 = 0 ∧ LlcCoherent optState := by
  refine ⟨optReady _ _ _ ?_ ?_ ?_ ?_, optReady _ _ _ ?_ ?_ ?_ ?_, optReady _ _ _ ?_ ?_ ?_ ?_, optReady _ _ _ ?_ ?_ ?_ ?_,
    ⟨_, List.mem_cons_self⟩, ?_, coherent_of_empty _ ?_⟩
  all_goals decide +kernel

/-! ### Lines -/

/-- The name of 256 zero bytes under salt 0. -/
def zeroName : LineName := 0x3093c292d8be832d33bb75971323fa73

/-- An entry of region 0 for that name with ordinal `j`. -/
def zeroEntry (node : Bool) (j slot count : Nat) : DirEntry :=
  { name := zeroName ||| (BitVec.ofNat 128 j <<< 120), node := node, region := 0, slot := slot, count := count, pending := none }

/-- Record 0 is a tree record of region 0, which has `lines` slots and the entries `es`; the vector pair at v8 is zero but for
its first word, `w`. -/
def treeReady (lines : Nat) (es : List DirEntry) (w : Word) : State :=
  let s := laneReady.setMe ((laneReady.me.wb 0 (recBits 2 0x30000 4096)).wv 8 0 w)
  { s with dir := { s.dir with
    lineBase := 0x200000, lineCount := lines, entries := es,
    regions := [(0, { salt := 0, rootVa := 0x30000, rootSize := 4096, ctx := 0, flags := 1, quota := 0, live := es.length })] } }

/-- Fields of VLAL of the pair v8 with its name in s4 to s7 and its status in s1. -/
def lineF (kind : BitVec 8) : LA := { laT 0 with vd := 4, va := 8, vb := kind, vc := 1 }

theorem zeroName_of : nameOf 0 (List.replicate 256 0) 0 = zeroName := by decide +kernel

/-- The group of `treeReady`. -/
def treeGroup (w : Word) : Machine.Group := (laneReady.me.wb 0 (recBits 2 0x30000 4096)).wv 8 0 w
theorem treeGroup_zeros : (treeGroup 0).pairBytes 8 = List.replicate 256 0 := by decide +kernel
theorem treeGroup_five : (treeGroup 5).pairBytes 8 = 5 :: List.replicate 255 0 := by decide +kernel

/-- What VLAL does at its bucket: for a name found, a name free, a collision, a full store. -/
def isFound (b : Bucket) : Bool := match b with
  | .found _ => true
  | _ => false
def isFree (b : Bucket) : Bool := match b with
  | .free _ _ => true
  | _ => false
def isCollide (b : Bucket) : Bool := match b with
  | .collide => true
  | _ => false
def isFull (b : Bucket) : Bool := match b with
  | .full => true
  | _ => false

theorem found_of {b : Bucket} (h : isFound b = true) : ∃ n, b = .found n := by
  cases b <;> simp_all [isFound]
theorem free_of {b : Bucket} (h : isFree b = true) : ∃ n slot, b = .free n slot := by
  cases b <;> simp_all [isFree]
theorem collide_of {b : Bucket} (h : isCollide b = true) : b = .collide := by
  cases b <;> simp_all [isCollide]
theorem full_of {b : Bucket} (h : isFull b = true) : b = .full := by
  cases b <;> simp_all [isFull]

/-- `InRegion`, evaluated for region 0. -/
def regionNow (i : Instr) (f : LA) (write : Bool) (s : State) (b : Block) : Bool :=
  issuesNow i f.kq allLanes s b && !s.me.pendingB [f.imm.toNat % 16] && decide (s.me.loads = []) && decide (s.me.storeCount = 0)
    && decide (s.treeRegion s.me.ident.ctx (recOf (s.me.rb (f.imm.toNat % 16)))
        (if write then (recOf (s.me.rb (f.imm.toNat % 16))).wr else (recOf (s.me.rb (f.imm.toNat % 16))).rd) = some 0)

theorem inRegion_of {i : Instr} {f : LA} {write : Bool} {s : State} {b : Block} (h : regionNow i f write s b = true) :
    InRegion i f write s b 0 := by
  simp only [regionNow, Bool.and_eq_true, Bool.not_eq_true', decide_eq_true_eq] at h
  obtain ⟨⟨⟨⟨h1, h2⟩, h3⟩, h4⟩, h5⟩ := h
  exact ⟨issues_of h1, h2, h3, h4, h5⟩

/-- Neither kind of VLAL has anything in its way in `s`. -/
def linesNow (s : State) : Bool :=
  regionNow (.vlalLeaf (lineF 0)) (lineF 0) true s codeBlock && regionNow (.vlalNode (lineF 1)) (lineF 1) true s codeBlock
    && decide (s.ownPending (s.me.laneAt codeBlock (laneWord (.vlalLeaf (lineF 0))) 0) = none)
    && decide (s.ownPending (s.me.laneAt codeBlock (laneWord (.vlalLeaf (lineF 1))) 0) = none) && decide (s.teamOf s.cur.g = none)

theorem fiveName_of : nameOf 0 (5 :: List.replicate 255 0) 0 = 0xe06a8dce7c2a9eacce9ef94f263a815a := by decide +kernel

theorem fiveChildren : childNames (5 :: List.replicate 255 0) = 5 :: List.replicate 15 0 := by decide +kernel

theorem step_zeros (lines : Nat) (es : List DirEntry) (node : Bool) :
    (treeReady lines es 0).bucketStep 0 node ((treeReady lines es 0).me.pairBytes 8)
      = (treeReady lines es 0).bucketAt 0 node (List.replicate 256 0) zeroName := by
  have h : (treeReady lines es 0).me.pairBytes 8 = List.replicate 256 0 := treeGroup_zeros
  rw [h, State.bucketStep, show ((treeReady lines es 0).lineRegion 0).salt = 0 from rfl, zeroName_of]

theorem step_five (lines : Nat) (es : List DirEntry) (node : Bool) :
    (treeReady lines es 5).bucketStep 0 node ((treeReady lines es 5).me.pairBytes 8)
      = (treeReady lines es 5).bucketAt 0 node (5 :: List.replicate 255 0) 0xe06a8dce7c2a9eacce9ef94f263a815a := by
  have h : (treeReady lines es 5).me.pairBytes 8 = 5 :: List.replicate 255 0 := treeGroup_five
  rw [h, State.bucketStep, show ((treeReady lines es 5).lineRegion 0).salt = 0 from rfl, fiveName_of]

/-- A store of 4 slots with a child of name 5. -/
def withChild : List DirEntry := [{ zeroEntry false 0 0 1 with name := 5 }]
/-- Every ordinal of the zero line's name is taken, by the other kind. -/
def allTaken (node : Bool) : List DirEntry := (List.range 4).map (fun j => zeroEntry node j j 1)

/-- An empty queue leaves the reclaimer nothing to serve. -/
theorem reclaimed_of_empty (s : State) (h : s.dir.reclaim = []) : s.reclaimed = s := by
  unfold State.reclaimed
  cases s.dir.reclaim.length + s.dir.entries.length with
  | zero => rfl
  | succ n => simp [reclaimLines, h]

theorem wit_LinesAllocated :
    (QuadApart (lineF 0) ∧ QuadApart (lineF 1) ∧ InRegion (.vlalLeaf (lineF 0)) (lineF 0) true (treeReady 4 [] 0) codeBlock 0
      ∧ ∀ s ∈ [treeReady 4 [zeroEntry false 0 0 1] 0, treeReady 4 [zeroEntry true 0 0 1] 0, treeReady 4 [] 0,
          treeReady 4 withChild 5, treeReady 4 [] 5, treeReady 4 (allTaken true) 0, treeReady 4 (allTaken false) 0, treeReady 0 [] 0],
        linesNow s = true ∧ Settled s ∧ s.reclaimed = s)
    ∧ (∃ n, (treeReady 4 [zeroEntry false 0 0 1] 0).bucketStep 0 false ((treeReady 4 [zeroEntry false 0 0 1] 0).me.pairBytes 8) = .found n)
    ∧ (∃ n, (treeReady 4 [zeroEntry true 0 0 1] 0).bucketStep 0 true ((treeReady 4 [zeroEntry true 0 0 1] 0).me.pairBytes 8) = .found n)
    ∧ (∃ n slot, (treeReady 4 [] 0).bucketStep 0 false ((treeReady 4 [] 0).me.pairBytes 8) = .free n slot)
    ∧ (∃ n slot, (treeReady 4 withChild 5).bucketStep 0 true ((treeReady 4 withChild 5).me.pairBytes 8) = .free n slot)
    ∧ (∃ n slot, (treeReady 4 [] 5).bucketStep 0 true ((treeReady 4 [] 5).me.pairBytes 8) = .free n slot)
    ∧ (treeReady 4 (allTaken true) 0).bucketStep 0 false ((treeReady 4 (allTaken true) 0).me.pairBytes 8) = .collide
    ∧ (treeReady 4 (allTaken false) 0).bucketStep 0 true ((treeReady 4 (allTaken false) 0).me.pairBytes 8) = .collide
    ∧ (treeReady 0 [] 0).bucketStep 0 false ((treeReady 0 [] 0).me.pairBytes 8) = .full
    ∧ (treeReady 0 [] 0).bucketStep 0 true ((treeReady 0 [] 0).me.pairBytes 8) = .full
    ∧ (∀ c ∈ childNames ((treeReady 4 withChild 5).me.pairBytes 8), c ≠ 0 → ((treeReady 4 withChild 5).dir.knownIn 0 c).isSome = true)
    ∧ (5 ∈ childNames ((treeReady 4 [] 5).me.pairBytes 8) ∧ (treeReady 4 [] 5).dir.knownIn 0 5 = none)
    ∧ LlcCoherent (treeReady 4 [] 0) ∧ LlcCoherent (treeReady 4 withChild 5) := by
  refine ⟨⟨?_, ?_, inRegion_of ?_, ?_⟩, found_of ?_, found_of ?_, free_of ?_, free_of ?_, free_of ?_, collide_of ?_, collide_of ?_, full_of ?_, full_of ?_,
    ?_, ?_, coherent_of_empty _ ?_, coherent_of_empty _ ?_⟩
  case refine_14 =>
    rw [show (treeReady 4 withChild 5).me.pairBytes 8 = 5 :: List.replicate 255 0 from treeGroup_five, fiveChildren]
    intro c hc h
    simp only [List.mem_cons, List.mem_replicate] at hc
    rcases hc with rfl | ⟨-, rfl⟩
    · decide +kernel
    · exact absurd rfl h
  case refine_15 =>
    rw [show (treeReady 4 [] 5).me.pairBytes 8 = 5 :: List.replicate 255 0 from treeGroup_five, fiveChildren]
    exact ⟨List.mem_cons_self, by decide +kernel⟩
  case refine_4 =>
    intro s hs
    simp only [List.mem_cons, List.not_mem_nil, or_false] at hs
    rcases hs with rfl | rfl | rfl | rfl | rfl | rfl | rfl | rfl <;>
      exact ⟨by decide +kernel, by decide +kernel, reclaimed_of_empty _ (by decide +kernel)⟩
  all_goals first
    | rw [step_zeros]; decide +kernel
    | rw [step_five]; decide +kernel
    | decide +kernel

/-- Fields of VLKP: the name in s52 to s55, the line to the pair v254, the status to s1. -/
def lookF : LA := { laT 0 with vd := 254, va := 52, vb := 0, vc := 1 }

/-- A block whose s52 holds `w0` … -/
def nameBlock (n : LineName) : Block :=
  { codeBlock with args := List.replicate 4 0 ++ (List.range 4).map (fun i => BitVec.ofNat 32 (n.toNat / 2 ^ (32 * i))) ++ List.replicate 8 0 }

/-- `treeReady` with that block. -/
def lookReady (es : List DirEntry) (n : LineName) : State :=
  (treeReady 4 es 0).setMe { (treeReady 4 es 0).me with blocks := [nameBlock n] }

theorem lookReady_line (es : List DirEntry) (n : LineName) : (lookReady es n).lineBytes 0 = List.replicate 256 0 := by
  have h : (lookReady [] 0).lineBytes 0 = List.replicate 256 0 := by decide +kernel
  exact h

theorem look_corrupt (es : List DirEntry) (n : LineName) (e : DirEntry) (he : e.region = 0 ∧ e.slot = 0)
    (hp : (lookReady es n).poisoned ((lookReady es n).dir.slotAddr 0) = false) :
    (lookReady es n).lineCorrupt e = decide (digestPart zeroName ≠ digestPart e.name) := by
  rw [State.lineCorrupt, he.1, he.2, lookReady_line, show ((lookReady es n).lineRegion 0).salt = 0 from rfl, zeroName_of, hp, Bool.or_false]

theorem wit_LinesLookedUp :
    (∀ es n, (lookReady es n).reclaimed = lookReady es n ∧ (lookReady es n).vm.regions = (lookReady [] 0).vm.regions
      ∧ Settled (lookReady [] 0))
    ∧ (∃ (f : LA) (s : State) (b : Block) (k : Nat), InRegion (.vlkp f) f false s b k ∧ f.vc ≠ 0 ∧ f.vd.toNat % 2 = 0
      ∧ argRule b (f.va.toNat + 3) ++ argRule b (f.va.toNat + 2) ++ argRule b (f.va.toNat + 1) ++ argRule b f.va.toNat = (0 : LineName))
    ∧ (∃ (f : LA) (s : State) (b : Block) (k : Nat) (n : LineName), InRegion (.vlkp f) f false s b k ∧ f.vc ≠ 0 ∧ f.vd.toNat % 2 = 0
      ∧ argRule b (f.va.toNat + 3) ++ argRule b (f.va.toNat + 2) ++ argRule b (f.va.toNat + 1) ++ argRule b f.va.toNat = n
      ∧ n ≠ 0 ∧ s.dir.knownIn k n = none)
    ∧ (∃ (f : LA) (s : State) (b : Block) (k : Nat) (n : LineName) (e : DirEntry), InRegion (.vlkp f) f false s b k ∧ f.vc ≠ 0
      ∧ f.vd.toNat % 2 = 0
      ∧ argRule b (f.va.toNat + 3) ++ argRule b (f.va.toNat + 2) ++ argRule b (f.va.toNat + 1) ++ argRule b f.va.toNat = n
      ∧ n ≠ 0 ∧ s.dir.knownIn k n = some e ∧ s.lineCorrupt e = false)
    ∧ (∃ (f : LA) (s : State) (b : Block) (k : Nat) (n : LineName) (e : DirEntry), InRegion (.vlkp f) f false s b k ∧ f.vc ≠ 0
      ∧ f.vd.toNat % 2 = 0
      ∧ argRule b (f.va.toNat + 3) ++ argRule b (f.va.toNat + 2) ++ argRule b (f.va.toNat + 1) ++ argRule b f.va.toNat = n
      ∧ n ≠ 0 ∧ s.dir.knownIn k n = some e ∧ s.lineCorrupt e = true) := by
  refine ⟨fun es n => ⟨reclaimed_of_empty _ rfl, rfl, by decide +kernel⟩, ⟨lookF, lookReady [] 0, nameBlock 0, 0, inRegion_of ?_, ?_, ?_, ?_⟩,
    ⟨lookF, lookReady [] 5, nameBlock 5, 0, 5, inRegion_of ?_, ?_, ?_, ?_, ?_, ?_⟩,
    ⟨lookF, lookReady [zeroEntry false 0 0 1] zeroName, nameBlock zeroName, 0, zeroName, zeroEntry false 0 0 1, inRegion_of ?_, ?_, ?_, ?_, ?_, ?_, ?_⟩,
    ⟨lookF, lookReady withChild 5, nameBlock 5, 0, 5, { zeroEntry false 0 0 1 with name := 5 }, inRegion_of ?_, ?_, ?_, ?_, ?_, ?_, ?_⟩⟩
  case refine_17 => rw [look_corrupt _ _ _ ⟨rfl, rfl⟩ (by decide +kernel)]; decide +kernel
  case refine_24 => rw [look_corrupt _ _ _ ⟨rfl, rfl⟩ (by decide +kernel)]; decide +kernel
  all_goals decide +kernel

/-! ### Roots and counts -/

/-- A line of region 0 with the small name `n`. -/
def lineNamed (n : Nat) (node : Bool) (count : Nat) : DirEntry :=
  { name := BitVec.ofNat 128 n, node := node, region := 0, slot := n, count := count, pending := none }

/-- Record 0 is a tree record of region 0 with the lines `es`; s1 is 16, s4 `old`, s8 `new`, s12 `v`; the cell at 0x30010
holds `cell`. -/
def rootReady (es : List DirEntry) (cell : Byte) (old new v : Word) : State :=
  let s := withMe (fun x => ((((x.wb 0 (recBits 2 0x30000 4096)).ws 1 16).ws 4 old).ws 8 new).ws 12 v)
  { s with
    mem := s.mem.write 0x30010 cell,
    dir := { s.dir with
      lineBase := 0x200000, lineCount := 16, entries := es,
      regions := [(0, { salt := 0, rootVa := 0x30000, rootSize := 4096, ctx := 0, flags := 1, quota := 0, live := es.length })] } }

/-- The bytes of the cell. -/
def cell0 : List Nat := span 0x30010 16

theorem reachesCell (es : List DirEntry) (cell : Byte) (old new v : Word)
    (h : Ready (rootReady es cell old new v) [1, 4, 5, 6, 7, 8, 9, 10, 11])
    (hp : ∀ a ∈ cell0, (rootReady es cell old new v).poisoned a = false)
    (hr : MemFree (rootReady es cell old new v) 0
      ∧ (rootReady es cell old new v).treeRegion 0 (recOf ((rootReady es cell old new v).me.rb 0)) true = some 0
      ∧ (recOf ((rootReady es cell old new v).me.rb 0)) = recOf (recBits 2 0x30000 4096)
      ∧ ((rootReady es cell old new v).me.rs 1) = 16 ∧ Quiet (rootReady es cell old new v)
      ∧ (rootReady es cell old new v).resolveAll (scalarWho (rootReady es cell old new v)) 2 .store
        ((pagePieces ((recOf (recBits 2 0x30000 4096)).base + (16 : Word).toNat) 16).map (·.1)) = .places [some (.dev 0x30010)]) :
    ReachesCell 1 4 8 0 (rootReady es cell old new v) 0 cell0 := by
  obtain ⟨h1, h2, h3, h4, h5, h6⟩ := hr
  have e3 : recRule (rootReady es cell old new v) 0 = recOf (recBits 2 0x30000 4096) := h3
  have e4 : (rootReady es cell old new v).me.rs (1 : SReg).toNat = 16 := h4
  refine ⟨by decide, h, h1, ?_, ?_, ?_, ?_, rfl, ⟨h5, rfl⟩, ⟨[some (.dev 0x30010)], ?_, ?_⟩, hp, by decide +kernel⟩
  · rw [show (recRule (rootReady es cell old new v) 0).wr = true by rw [e3]; decide +kernel]; exact h2
  · rw [e3]; decide +kernel
  · rw [e3, e4]; decide +kernel
  · rw [e3, e4]; decide +kernel
  · rw [e3, e4]; exact h6
  · rw [e3, e4]; decide +kernel

/-- The state that SWAPROOT's step meets. -/
def unasked (s : State) : State := (s.unwait (scalarWho s).who).reclaimed

/-- The region of the lines belongs to context 5. -/
def elsewhere : State :=
  let s := rootReady [lineNamed 5 true 1] 0 5 0 1
  { s with dir := { s.dir with regions := [(0, { Region.off with ctx := 5, flags := 1, live := 1 })] } }

theorem wit_RootsAndCounts :
    (∃ (s : State), ReachesCell 1 4 8 0 s 0 cell0 ∧ LlcCoherent (unasked s) ∧ cellAt (unasked s) cell0 ≠ s.me.rs128 4)
    ∧ (∃ (s : State), ReachesCell 1 4 8 0 s 0 cell0 ∧ LlcCoherent (unasked s) ∧ cellAt (unasked s) cell0 = s.me.rs128 4 ∧ s.me.rs128 8 ≠ 0
      ∧ (unasked s).dir.knownIn 0 (s.me.rs128 8) = none)
    ∧ (∃ (s : State), ReachesCell 1 4 8 0 s 0 cell0 ∧ LlcCoherent (unasked s) ∧ cellAt (unasked s) cell0 = s.me.rs128 4 ∧ s.me.rs128 8 = 0)
    ∧ (∃ (s : State), ReachesCell 1 4 8 0 s 0 cell0 ∧ LlcCoherent (unasked s) ∧ cellAt (unasked s) cell0 = s.me.rs128 4
      ∧ ((unasked s).dir.knownIn 0 (s.me.rs128 8)).isSome = true)
    ∧ (∃ (d q v : SReg) (s : State), q.toNat % 4 = 0 ∧ 4 ≤ q.toNat ∧ Ready s (d.toNat :: v.toNat :: span q.toNat 4) ∧ d ≠ 0 ∧ Quiet s
      ∧ s.sl.wait = .none ∧ s.reclaimed.dir.known (s.me.rs128 q.toNat) = none)
    ∧ (∃ (d q v : SReg) (s : State) (e : DirEntry), q.toNat % 4 = 0 ∧ 4 ≤ q.toNat ∧ Ready s (d.toNat :: v.toNat :: span q.toNat 4) ∧ d ≠ 0
      ∧ Quiet s ∧ s.sl.wait = .none ∧ s.reclaimed.dir.known (s.me.rs128 q.toNat) = some e ∧ s.me.rs128 q.toNat ≠ 0
      ∧ (s.reclaimed.lineRegion e.region).ctx = s.me.ident.ctx ∧ e.count < 2 ^ 32 - 1 ∧ (e.count : Int) + (s.me.rs v.toNat).toInt < 0)
    ∧ (∃ (d q v : SReg) (s : State) (e : DirEntry), q.toNat % 4 = 0 ∧ 4 ≤ q.toNat ∧ Ready s (d.toNat :: v.toNat :: span q.toNat 4) ∧ d ≠ 0
      ∧ Quiet s ∧ s.sl.wait = .none ∧ s.reclaimed.dir.known (s.me.rs128 q.toNat) = some e ∧ s.me.rs128 q.toNat ≠ 0
      ∧ (s.reclaimed.lineRegion e.region).ctx = s.me.ident.ctx ∧ e.count < 2 ^ 32 - 1 ∧ 0 < (e.count : Int) + (s.me.rs v.toNat).toInt)
    ∧ (∃ (d q v : SReg) (s : State) (e : DirEntry), q.toNat % 4 = 0 ∧ 4 ≤ q.toNat ∧ Ready s (d.toNat :: v.toNat :: span q.toNat 4) ∧ d ≠ 0
      ∧ Quiet s ∧ s.sl.wait = .none ∧ s.reclaimed.dir.known (s.me.rs128 q.toNat) = some e ∧ s.me.rs128 q.toNat ≠ 0
      ∧ (s.reclaimed.lineRegion e.region).ctx = s.me.ident.ctx ∧ e.count < 2 ^ 32 - 1 ∧ (e.count : Int) + (s.me.rs v.toNat).toInt = 0)
    ∧ (∃ (d q v : SReg) (s : State) (e : DirEntry), q.toNat % 4 = 0 ∧ 4 ≤ q.toNat ∧ Ready s (d.toNat :: v.toNat :: span q.toNat 4) ∧ d ≠ 0
      ∧ Quiet s ∧ s.sl.wait = .none ∧ s.reclaimed.dir.known (s.me.rs128 q.toNat) = some e
      ∧ (s.reclaimed.lineRegion e.region).ctx ≠ s.me.ident.ctx)
    ∧ (∃ (d q v : SReg) (s : State) (e : DirEntry), q.toNat % 4 = 0 ∧ 4 ≤ q.toNat ∧ Ready s (d.toNat :: v.toNat :: span q.toNat 4) ∧ d ≠ 0
      ∧ Quiet s ∧ s.sl.wait = .none ∧ s.reclaimed.dir.known (s.me.rs128 q.toNat) = some e ∧ s.me.rs128 q.toNat ≠ 0
      ∧ (s.reclaimed.lineRegion e.region).ctx = s.me.ident.ctx ∧ e.count = 2 ^ 32 - 1)
    ∧ (∃ (s : State) (e : DirEntry) (rest : List DirEntry), s.dir.reclaim = e :: rest ∧ LlcCoherent s
      ∧ s.poisoned (s.dir.slotAddr e.slot) = false ∧ e.node = true)
    ∧ (∃ (d : SReg) (s : State), EvenReg d ∧ d ≠ 0 ∧ Ready s [d.toNat, d.toNat + 1]) := by
  refine ⟨⟨rootReady [] 1 2 3 0, reachesCell _ _ _ _ _ ?_ ?_ ?_, coherent_of_empty _ ?_, ?_⟩,
    ⟨rootReady [] 2 2 3 0, reachesCell _ _ _ _ _ ?_ ?_ ?_, coherent_of_empty _ ?_, ?_, ?_, ?_⟩,
    ⟨rootReady [] 2 2 0 0, reachesCell _ _ _ _ _ ?_ ?_ ?_, coherent_of_empty _ ?_, ?_, ?_⟩,
    ⟨rootReady [lineNamed 3 false 1, lineNamed 2 false 1] 2 2 3 0, reachesCell _ _ _ _ _ ?_ ?_ ?_, coherent_of_empty _ ?_, ?_, ?_⟩,
    ⟨1, 4, 12, rootReady [] 0 5 0 1, ?_⟩,
    ⟨1, 4, 12, rootReady [lineNamed 5 false 1] 0 5 0 0xFFFFFFFE, lineNamed 5 false 1, ?_⟩,
    ⟨1, 4, 12, rootReady [lineNamed 5 false 0xFFFFFFFE] 0 5 0 0x7FFFFFFF, lineNamed 5 false 0xFFFFFFFE, ?_⟩,
    ⟨1, 4, 12, rootReady [lineNamed 5 true 1] 0 5 0 0xFFFFFFFF, lineNamed 5 true 1, ?_⟩,
    ⟨1, 4, 12, elsewhere, lineNamed 5 true 1, ?_⟩,
    ⟨1, 4, 12, rootReady [lineNamed 5 true 0xFFFFFFFF] 0 5 0 1, lineNamed 5 true 0xFFFFFFFF, ?_⟩,
    ⟨{ ready with dir := { ready.dir with reclaim := [lineNamed 5 true 0] } }, lineNamed 5 true 0, [], rfl,
      coherent_of_empty _ ?_, ?_, rfl⟩, ⟨62, ready, ?_⟩⟩
  all_goals decide +kernel

/-! ### Replicas -/

/-- Communicator 3 of context 0: enabled, stale or not, with two ranks whose ids are listed at 0x20000. -/
def comm3 (stale : Bool) : Comm :=
  { Comm.off with flags := if stale then 3 else 1, elem := 4, p := 2,
                  active := some { RankTable.off with p := 2, base := 0x20000, valid := true } }

/-- `lanesReady` with record 0 replicated over communicator 3. -/
def replicated (stale : Bool) : State :=
  let s := lanesReady (4 * 2 ^ 57) (fun i => BitVec.ofNat 32 (8 * i))
  { s with mem := s.mem.write 0x20004 7,
           coll := { s.coll with comms := [(3, comm3 stale)], replicas := [(0, (0x30000, 4096, 3))] } }

/-- A replica load under generation 9, when the member's generation is 0. -/
def oldReplica (wide : Bool) : State :=
  loading (.replica 8 wide 3 9 [(0, [1])]) [⟨0, 0x30000, some (.dev 0x30000)⟩, ⟨31, 0x30008, some (.dev 0x30008)⟩]

theorem wit_ReplicaLoads :
    (∃ (f : LM) (s : State) (b : Block) (p : Nat × Int → Loc) (c : Nat), Issues (.vrld f) f.kq Need.plain s b ∧ MemFree s f.b ∧ s.me.loads = []
      ∧ (laneRec s f).cls = 4 ∧ s.replicaOf s.me.ident.ctx (laneRec s f).base (laneRec s f).extent = some c ∧ s.commOk c = true
      ∧ s.commHeld c = false
      ∧ Permits s (laneRec s f) { classes := [4], n := if f.ty = 2 then 8 else 4, reads := true, writes := false } (laneOffs s b f)
      ∧ (s.comm c).stale = false ∧ s.tableLost c = false ∧ s.me.loadCount < 63 ∧ s.member.devId ∈ s.rankIds c
      ∧ Places s (laneWho s b) (laneRec s f) .load (laneOffs s b f) p ∧ f.ty = 2)
    ∧ (∃ (f : LM) (s : State) (b : Block) (c : Nat), Issues (.vrld f) f.kq Need.plain s b ∧ MemFree s f.b ∧ s.me.loads = []
      ∧ (laneRec s f).cls = 4 ∧ s.replicaOf s.me.ident.ctx (laneRec s f).base (laneRec s f).extent = some c ∧ s.commOk c = true
      ∧ s.commHeld c = false
      ∧ Permits s (laneRec s f) { classes := [4], n := if f.ty = 2 then 8 else 4, reads := true, writes := false } (laneOffs s b f)
      ∧ (s.comm c).stale = false ∧ s.tableLost c = false ∧ s.me.loadCount < 63 ∧ s.member.devId ∉ s.rankIds c)
    ∧ (∃ (f : LM) (s : State) (b : Block) (c : Nat), Issues (.vrld f) f.kq Need.plain s b ∧ MemFree s f.b ∧ s.me.loads = []
      ∧ (laneRec s f).cls = 4 ∧ s.replicaOf s.me.ident.ctx (laneRec s f).base (laneRec s f).extent = some c ∧ s.commOk c = true
      ∧ s.commHeld c = false
      ∧ Permits s (laneRec s f) { classes := [4], n := if f.ty = 2 then 8 else 4, reads := true, writes := false } (laneOffs s b f)
      ∧ (s.comm c).stale = true ∧ f.ty = 4)
    ∧ (∃ (g : Nat) (s : State) (e : LoadEntry) (vd : Nat) (wide : Bool) (c : Nat) (was : BitVec 64) (terms : List (Nat × List Nat)),
      (s.group g).loads = [e] ∧ e.kind = .replica vd wide c was terms ∧ was ≠ s.member.gen ∧ (∀ x ∈ terms, x.1 < 32) ∧ wide = true)
    ∧ (∃ (g : Nat) (s : State) (e : LoadEntry) (vd : Nat) (wide : Bool) (c : Nat) (was : BitVec 64) (terms : List (Nat × List Nat)),
      (s.group g).loads = [e] ∧ e.kind = .replica vd wide c was terms ∧ was ≠ s.member.gen ∧ (∀ x ∈ terms, x.1 < 32) ∧ wide = false) := by
  refine ⟨⟨{ lmW 3 with ty := 2 }, replicated false, codeBlock, there, 3, issues_of ?_, ?_, ?_, ?_, ?_, ?_, ?_, ?_, ?_, ?_, ?_, ?_, ?_, ?_⟩,
    ⟨{ lmW 2 with ty := 4 }, { replicated false with member := { (replicated false).member with devId := 9 } }, codeBlock, 3, issues_of ?_, ?_, ?_, ?_, ?_, ?_, ?_, ?_, ?_, ?_, ?_, ?_⟩,
    ⟨{ lmW 2 with ty := 4 }, replicated true, codeBlock, 3, issues_of ?_, ?_, ?_, ?_, ?_, ?_, ?_, ?_, ?_, ?_⟩,
    ⟨0, oldReplica true, loadOf (oldReplica true), 8, true, 3, 9, [(0, [1])], rfl, rfl, ?_, ?_, ?_⟩,
    ⟨0, oldReplica false, loadOf (oldReplica false), 8, false, 3, 9, [(0, [1])], rfl, rfl, ?_, ?_, ?_⟩⟩
  all_goals first
    | (unfold Places; decide +kernel)
    | decide +kernel
    | (constructor <;> decide +kernel)

end Sys2Proof.Tests
end

