-- ==== Sys2Proof/Tests/WitnessEngines.lean ====
section
/-! SUPPORT. Witnesses: for each statement about commands, launches, graphs and the engines, states and operands that meet the
hypotheses of its clauses together. -/

namespace Sys2Proof.Tests

set_option Elab.async false

open Sys2Proof Sys2Proof.Machine Sys2Proof.Claims

/-- The `n` bytes of a record whose listed bytes are not zero. -/
def record (n : Nat) (cells : Sparse Byte) : List Byte := (List.range n).map (fun i => Sparse.get 0 cells i)

/-- A group whose pair s2:s3 names page 3, where those bytes stand; context 0 is enabled where `on`. -/
def placed (cells : Sparse Byte) (on : Bool) : State :=
  let s := withMe (fun x => { x with s := [(2, 0x30000)] })
  { s with
    mem := cells.map (fun e => (0x30000 + e.1, e.2)),
    host := { s.host with contexts := [(0, ⟨0, 0, 0, if on then 1 else 0⟩)] },
    dir := { s.dir with
      lineBase := 0x200000, lineCount := 16,
      regions := [(0, { salt := 0, rootVa := 0x30000, rootSize := 4096, ctx := 0, flags := 1, quota := 0, live := 0 })] } }

/-- The state that a record read leaves. -/
def afterRead (r : RecordRead) (s : State) : State :=
  match r with
  | .bytes _ u => u
  | _ => s

/-- A record read that answers `bs`. -/
def okRecord (r : RecordRead) (bs : List Byte) : Bool :=
  match r with
  | .bytes b _ => b == bs
  | _ => false

theorem record_of {r : RecordRead} {bs : List Byte} (s : State) (h : okRecord r bs = true) : r = .bytes bs (afterRead r s) := by
  cases r <;> simp_all [okRecord, afterRead]

/-- What the read of `n` bytes of `placed`'s record leaves. -/
def readOf (cells : Sparse Byte) (on : Bool) (n : Nat) : State :=
  afterRead ((placed cells on).readRecord 0x30000 n) (placed cells on)

theorem submits_of {cells : Sparse Byte} {on : Bool} {align n : Nat}
    (h : Ready (placed cells on) [1, 2, 3] ∧ ((placed cells on).me.rs64 2).toNat % align = 0 ∧ Quiet (placed cells on))
    (hr : okRecord ((placed cells on).readRecord 0x30000 n) (record n cells) = true) (ha : ((placed cells on).me.rs64 2).toNat = 0x30000) :
    Submits 1 2 align n (placed cells on) (readOf cells on n) (record n cells) :=
  ⟨rfl, h.1, h.2.1, ⟨h.2.2, rfl⟩, by rw [show (2 : SReg).toNat = 2 from rfl, ha]; exact record_of _ hr⟩

/-- A copy of 64 bytes from page 3 to 0x31000; one with a reserved byte set; one of nothing. -/
def copyCells : Sparse Byte := [(2, 3), (9, 0x10), (10, 3), (16, 64), (20, 1), (22, 1)]
def badCells : Sparse Byte := [(2, 3), (9, 0x10), (10, 3), (16, 64), (20, 1), (22, 1), (43, 1)]
def emptyCells : Sparse Byte := [(2, 3), (9, 0x10), (10, 3), (16, 64), (20, 1)]
/-- CAOUT of a leaf of region 0 to 0x31000, with room for it or not, and of an unknown name. -/
def caoutCells (room : Byte) : Sparse Byte := [(18, 3), (25, 0x10), (26, 3), (33, room)]
def strayCells : Sparse Byte := [(0, 5), (18, 3), (25, 0x10), (26, 3), (33, 1)]

theorem wit_CommandsAccepted :
    (∃ (d a : SReg) (s u : State) (bs : List Byte), Submits d a 64 64 s u bs ∧ HasRoom s ∧ s.badCpy (hclOf s.cur.g) (cpyOf bs) = false
      ∧ (cpyOf bs).empty = false)
    ∧ (∃ (d a : SReg) (s u : State) (bs : List Byte), Submits d a 64 64 s u bs ∧ HasRoom s ∧ s.badCpy (hclOf s.cur.g) (cpyOf bs) = true)
    ∧ (∃ (d a : SReg) (s u : State) (bs : List Byte), Submits d a 64 64 s u bs ∧ HasRoom s ∧ s.badCpy (hclOf s.cur.g) (cpyOf bs) = false
      ∧ (cpyOf bs).empty = true)
    ∧ (∃ (d a : SReg) (s u : State) (bs : List Byte), Submits d a 64 64 s u bs ∧ HasRoom s
      ∧ u.reclaimed.caoutCheck s.me.ident.ctx (caoutOf bs) = none)
    ∧ (∃ (d a : SReg) (s u : State) (bs : List Byte), Submits d a 64 64 s u bs ∧ HasRoom s
      ∧ u.reclaimed.caoutCheck s.me.ident.ctx (caoutOf bs) = some 4) := by
  refine ⟨⟨1, 2, placed copyCells true, readOf copyCells true 64, record 64 copyCells, submits_of ?_ ?_ ?_, ?_, ?_, ?_⟩,
    ⟨1, 2, placed badCells true, readOf badCells true 64, record 64 badCells, submits_of ?_ ?_ ?_, ?_, ?_⟩,
    ⟨1, 2, placed emptyCells true, readOf emptyCells true 64, record 64 emptyCells, submits_of ?_ ?_ ?_, ?_, ?_, ?_⟩,
    ⟨1, 2, placed (caoutCells 1) true, readOf (caoutCells 1) true 64, record 64 (caoutCells 1), submits_of ?_ ?_ ?_, ?_, ?_⟩,
    ⟨1, 2, placed (caoutCells 0) true, readOf (caoutCells 0) true 64, record 64 (caoutCells 0), submits_of ?_ ?_ ?_, ?_, ?_⟩⟩
  all_goals decide +kernel

/-- A launch record that keeps R191 but for the given header address. -/
def launchCells (hdr gz pri : Byte) : Sparse Byte :=
  [(0, hdr), (2, 2), (8, 1), (10, 1), (12, gz), (14, 1), (15, 1), (16, 1), (17, pri), (24, 8), (25, 16), (26, 30)]

theorem wit_LaunchesSubmitted :
    (∀ c ∈ [placed (launchCells 0 1 0) false, placed (launchCells 0 0 0) true, placed (launchCells 0 1 8) true,
        placed (launchCells 32 1 0) true], (∀ l ∈ c.sched.launches, l.ticket ≠ launchTicket c) ∧ NoErrors c)
    ∧ (Submits 1 2 128 128 (placed (launchCells 0 1 0) false) (readOf (launchCells 0 1 0) false 128) (record 128 (launchCells 0 1 0))
      ∧ ¬((placed (launchCells 0 1 0) false).ctxEntry 0).flags % 2 = 1)
    ∧ (Submits 1 2 128 128 (placed (launchCells 0 0 0) true) (readOf (launchCells 0 0 0) true 128) (record 128 (launchCells 0 0 0))
      ∧ ((placed (launchCells 0 0 0) true).ctxEntry 0).flags % 2 = 1 ∧ (launchRecOf (record 128 (launchCells 0 0 0))).size = 0)
    ∧ (Submits 1 2 128 128 (placed (launchCells 0 1 8) true) (readOf (launchCells 0 1 8) true 128) (record 128 (launchCells 0 1 8))
      ∧ (launchRecOf (record 128 (launchCells 0 1 8))).size ≠ 0 ∧ (launchRecOf (record 128 (launchCells 0 1 8))).ok = false)
    ∧ (Submits 1 2 128 128 (placed (launchCells 32 1 0) true) (readOf (launchCells 32 1 0) true 128) (record 128 (launchCells 32 1 0))
      ∧ (launchRecOf (record 128 (launchCells 32 1 0))).size ≠ 0 ∧ (launchRecOf (record 128 (launchCells 32 1 0))).ok = true
      ∧ (launchRecOf (record 128 (launchCells 32 1 0))).hdr % 64 ≠ 0)
    ∧ (∃ (d a : SReg) (s : State), EvenReg a ∧ Ready s [d.toNat, a.toNat, a.toNat + 1] ∧ (s.me.rs64 a.toNat).toNat % 128 ≠ 0)
    ∧ (∃ (d a b : SReg) (s : State), EvenReg a ∧ Ready s [d.toNat, a.toNat, a.toNat + 1, b.toNat] ∧ (s.me.rs64 a.toNat).toNat % 64 ≠ 0)
    ∧ (∃ (d a b : SReg) (s : State), EvenReg a ∧ Ready s [d.toNat, a.toNat, a.toNat + 1, b.toNat] ∧ (s.me.rs64 a.toNat).toNat % 64 = 0
      ∧ Quiet s ∧ s.sl.wait = .none ∧ (s.die (dieOfHcl (hclOf s.cur.g))).graphs.length < 16 ∧ s.me.rs b.toNat = 2)
    ∧ (∃ (d a b : SReg) (s : State), EvenReg a ∧ Ready s [d.toNat, a.toNat, a.toNat + 1, b.toNat] ∧ (s.me.rs64 a.toNat).toNat % 64 = 0
      ∧ s.me.rs b.toNat = 0 ∧ Quiet s ∧ s.sl.wait = .none ∧ NoErrors s ∧ (s.die (dieOfHcl (hclOf s.cur.g))).graphs = []) := by
  refine ⟨?_, ⟨submits_of ?_ ?_ ?_, ?_⟩, ⟨submits_of ?_ ?_ ?_, ?_, ?_⟩, ⟨submits_of ?_ ?_ ?_, ?_, ?_⟩, ⟨submits_of ?_ ?_ ?_, ?_, ?_, ?_⟩,
    ⟨1, 2, withMe (fun x => x.ws 2 64), ?_⟩, ⟨1, 2, 4, withMe (fun x => x.ws 2 32), ?_⟩,
    ⟨1, 2, 4, withMe (fun x => (x.ws 2 64).ws 4 2), ?_⟩, ⟨1, 2, 4, withMe (fun x => x.ws 2 64), ?_⟩⟩
  case refine_1 =>
    intro c hc
    simp only [List.mem_cons, List.not_mem_nil, or_false] at hc
    rcases hc with rfl | rfl | rfl | rfl <;> decide +kernel
  all_goals decide +kernel

/-- Communicator 3 and records 0 (2 KiB) and 1 (4 KiB). -/
def collReady (stale : Bool) : State :=
  let s := withMe (fun x => ((x.wb 0 (recBits 0 0x30000 2048)).wb 1 (recBits 0 0x20000 4096)).ws 2 3)
  { s with coll := { s.coll with comms := [(3, { comm3 stale with elem := 0 })] } }

theorem mayCollect (op mode : Nat) (stale : Bool) (h : op < 7 ∧ mode < 3) :
    MayCollect op mode 1 2 0 1 (collReady stale) 3 := by
  have hs : ∀ op, op < 7 → ∀ stale, collSizeOk op (collWidth ((collReady stale).comm 3).elem) ((collReady stale).comm 3).p
      (recRule (collReady stale) 0).extent (recRule (collReady stale) 1).extent = true := by decide +kernel
  have he : ∀ stale, ((collReady stale).comm 3).elem = 0 := by decide +kernel
  refine ⟨?_, ?_, ⟨?_, ?_, ?_⟩, ?_, ?_, ?_, hs op h.1 stale, ?_, ?_, ?_⟩
  · cases stale <;> decide +kernel
  · cases stale <;> decide +kernel
  · rw [he]; decide
  · rw [he]; simp
  · left; cases stale <;> decide +kernel
  · cases stale <;> decide +kernel
  · cases stale <;> decide +kernel
  · cases stale <;> decide +kernel
  · cases stale <;> decide +kernel
  · cases stale <;> decide +kernel
  · cases stale <;> decide +kernel

theorem wit_CollectivesStart :
    (∀ r ∈ collInstrs, MayCollect r.2.1 r.2.2 1 2 0 1 (collReady false) 3 ∧ MayCollect r.2.1 r.2.2 1 2 0 1 (collReady true) 3)
    ∧ ((collReady false).comm 3).stale = false ∧ ((collReady true).comm 3).stale = true
    ∧ (∃ (d a : SReg) (bs br : BReg) (s : State) (c : Nat), c = (s.me.rs a.toNat).toNat ∧ Ready s [d.toNat, a.toNat]
      ∧ s.me.pendingB [bs.toNat, br.toNat] = false ∧ s.commOk c = false) := by
  refine ⟨fun r hr => ?_, ?_, ?_, ⟨1, 2, 0, 1, ready, 0, ?_⟩⟩
  · have h : ∀ r ∈ collInstrs, r.2.1 < 7 ∧ r.2.2 < 3 := by
      intro r hr
      simp only [collInstrs, List.mem_cons, List.not_mem_nil, or_false] at hr
      rcases hr with rfl | rfl | rfl | rfl | rfl | rfl | rfl | rfl | rfl <;> decide
    exact ⟨mayCollect _ _ _ (h r hr), mayCollect _ _ _ (h r hr)⟩
  all_goals decide +kernel

/-! ### The engines -/

/-- Command 1 of hardware core cluster 0 for group 0. -/
def command1 (kind : CopyKind) (cells : Sparse Byte) (started : Bool) (status : Option Nat) : CopyCmd :=
  { ticket := 1, op := 1, kind := kind, bytes := record 64 cells, g := some 0, node := none, core := some 0, ctx := 0, launch := 0,
    started := started, early := none, pinned := false, status := status }

/-- Its queue holds that command. -/
def commanded (c : CopyCmd) : State :=
  let s := placed copyCells true
  s.setHcl 0 { s.hcl 0 with copyQueue := [c], locks := [⟨1, true, 0, none, 0x31000, 0x31040, 0⟩] }

/-- Die 0 runs a graph of no nodes for group 0. -/
def graph0 : Graph :=
  { ticket := 1, table := 0x30000, ctx := 0, g := some 0, hcl := 0, privileged := false, n := 0, loaded := true, statA := 0, sigA := 0,
    sigV := 0, scope := 0, nodes := [], bad := false, step := 0 }
def graphed : State := ready.setDie 0 { ready.die 0 with graphs := [graph0] }

/-- A launch whose only cluster has retired. -/
def launched : State :=
  { ready with sched := { ready.sched with
      launches := [{ launch0 with record := { launch0.record with node := 0xFFFFFFFF }, retired := 1 }] } }

theorem caout_fields : (caoutOf (record 64 (caoutCells 1))).depth = 0 ∧ (caoutOf (record 64 (caoutCells 1))).root = 0
    ∧ (caoutOf (record 64 (caoutCells 1))).dst = 0x31000 ∧ (caoutOf (record 64 (caoutCells 1))).bytes = 256 := by decide +kernel

theorem stray_fields : (caoutOf (record 64 strayCells)).depth = 0 ∧ (caoutOf (record 64 strayCells)).root = 5 := by decide +kernel

theorem range_at {s : State} {q : Asker} {va n : Nat} {k : Access} {l : Loc} (hp : pagePieces va n = [(va, n)])
    (hl : s.lookup q va k = .hit l) : s.engineRange q va n k = (s, .at_ [(l, n)]) := by
  simp only [State.engineRange, hp, engineRangeFrom, State.engineXlat, hl]

theorem walk_stray (s : State) (k : Nat) (h : s.dir.entries = []) : s.walkTree k 0 5 = .badTree := by
  rw [State.walkTree, if_neg (by decide), Dir.knownIn, h]
  rfl

theorem walk_null (s : State) (k : Nat) : s.walkTree k 0 0 = .bytes (List.replicate 256 0) := by
  rw [State.walkTree]
  rfl

/-- CAOUT of the tree's root 5 in `s`, in flight. -/
abbrev strayCmd : CopyCmd := command1 .caout strayCells true none
/-- CAOUT of the null name. -/
abbrev nullCmd : CopyCmd := command1 .caout (caoutCells 1) true none

theorem stray_walk : (commanded strayCmd).caoutWalk strayCmd = .badTree := by
  unfold State.caoutWalk
  simp only [show strayCmd.bytes = record 64 strayCells from rfl, stray_fields.1, stray_fields.2]
  exact walk_stray _ _ rfl

theorem null_walk : (commanded nullCmd).caoutWalk nullCmd = .bytes (List.replicate 256 0) := by
  unfold State.caoutWalk
  simp only [show nullCmd.bytes = record 64 (caoutCells 1) from rfl, caout_fields.1, caout_fields.2.1]
  exact walk_null _ _

theorem caout_range : (commanded nullCmd).engineRange (nullCmd.asker 0 (commanded nullCmd)) (caoutOf nullCmd.bytes).dst
    (caoutOf nullCmd.bytes).bytes .store = (commanded nullCmd, .at_ [(.dev 0x31000, (List.replicate 256 (0 : Byte)).length)]) := by
  rw [show nullCmd.bytes = record 64 (caoutCells 1) from rfl, caout_fields.2.2.1, caout_fields.2.2.2, List.length_replicate]
  exact range_at (by decide +kernel) (by decide +kernel)

/-- The line of name 5 holds zeros, which have another name. -/
def corrupted : State :=
  let s := commanded strayCmd
  { s with dir := { s.dir with entries := withChild } }

theorem corrupted_line : corrupted.lineBytes 0 = List.replicate 256 0 := by decide +kernel

theorem corrupted_walk : corrupted.caoutWalk strayCmd = .corrupt { zeroEntry false 0 0 1 with name := 5 } := by
  have hk : corrupted.dir.knownIn 0 5 = some { zeroEntry false 0 0 1 with name := 5 } := by decide +kernel
  have hd : ((corrupted.dir.known 5).map (·.region)).getD 0 = 0 := by decide +kernel
  have hc : corrupted.lineCorrupt { zeroEntry false 0 0 1 with name := 5 } = true := by
    rw [State.lineCorrupt, show ({ zeroEntry false 0 0 1 with name := 5 } : DirEntry).slot = 0 from rfl, corrupted_line,
      show (corrupted.lineRegion ({ zeroEntry false 0 0 1 with name := 5 } : DirEntry).region).salt = 0 from rfl, zeroName_of]
    decide +kernel
  unfold State.caoutWalk
  simp only [show strayCmd.bytes = record 64 strayCells from rfl, stray_fields.1, stray_fields.2, hd]
  unfold State.walkTree
  rw [if_neg (by decide), hk]
  exact if_pos hc

theorem wit_EnginesFinish :
    (∃ (h : Nat) (s : State) (c : CopyCmd), (s.hcl h).copyQueue.find? (fun x => !x.started && !(s.hcl h).blocked x.op) = some c
      ∧ (∀ x ∈ (s.hcl h).copyQueue, x.ticket = c.ticket → x = c) ∧ ((s.hcl h).copyQueue.filter CopyCmd.working).length < 8)
    ∧ (∃ (h : Nat) (s : State) (c : CopyCmd) (a b n g : Nat), MovesRow s h c a b n ∧ c.g = some g ∧ c.node = none ∧ s.ras.poison = []
      ∧ LlcCoherent s)
    ∧ (∃ (h : Nat) (s : State) (c : CopyCmd) (g st : Nat), (s.hcl h).command c.ticket = some c ∧ c.status = some st ∧ c.statA = 0
      ∧ c.node = none ∧ c.g = some g)
    ∧ (∃ (h : Nat) (s : State) (c : CopyCmd), (s.hcl h).command c.ticket = some c ∧ c.kind = .caout ∧ c.started = true ∧ c.status = none
      ∧ c.early = none ∧ Settled s ∧ s.caoutWalk c = .badTree)
    ∧ (∃ (h : Nat) (s : State) (c : CopyCmd) (e : DirEntry), (s.hcl h).command c.ticket = some c ∧ c.kind = .caout ∧ c.started = true
      ∧ c.status = none ∧ c.early = none ∧ Settled s ∧ s.caoutWalk c = .corrupt e)
    ∧ (∃ (h : Nat) (s : State) (c : CopyCmd) (bs : List Byte) (b : Nat), (s.hcl h).command c.ticket = some c ∧ c.kind = .caout
      ∧ c.started = true ∧ c.status = none ∧ c.early = none
      ∧ Settled s ∧ s.caoutLines c = [] ∧ s.caoutWalk c = .bytes bs
      ∧ s.engineRange (c.asker h s) (caoutOf c.bytes).dst (caoutOf c.bytes).bytes .store = (s, .at_ [(.dev b, bs.length)])
      ∧ LlcCoherent s)
    ∧ (∃ (die ticket node : Nat) (s : State) (x : Graph), s.graph? die ticket = some x ∧ x.loaded = true ∧ x.isOver = true
      ∧ x.nodes[node]? = none ∧ x.statA = 0 ∧ x.sigA = 0 ∧ x.scope < 5 ∧ x.g = some 0)
    ∧ (∃ (die ticket : Nat) (s : State), s.graph? die ticket = none)
    ∧ (∃ (ticket : Nat) (s : State) (l : Launch) (g : Nat), s.launch? ticket = some l ∧ l.checked = true ∧ l.status = none
      ∧ l.retired = l.record.size ∧ l.record.scope < 5 ∧ l.record.statA = 0 ∧ l.record.sigA = 0 ∧ l.record.node = 0xFFFFFFFF
      ∧ l.launcher = .group g ∧ l.step = 0 ∧ s.gridDone l = true) := by
  refine ⟨⟨0, commanded (command1 .cpy copyCells false none), command1 .cpy copyCells false none, ?_⟩,
    ⟨0, commanded (command1 .cpy copyCells true none), command1 .cpy copyCells true none, 0x30000, 0x31000, 64, 0, ?_, ?_, ?_, ?_,
      coherent_of_empty _ ?_⟩,
    ⟨0, commanded (command1 .cpy copyCells true (some 1)), command1 .cpy copyCells true (some 1), 0, 1, ?_⟩,
    ⟨0, commanded strayCmd, strayCmd, ?_, ?_, ?_, ?_, ?_, ?_, stray_walk⟩,
    ⟨0, corrupted, strayCmd, { zeroEntry false 0 0 1 with name := 5 }, ?_, ?_, ?_, ?_, ?_, ?_, corrupted_walk⟩,
    ⟨0, commanded nullCmd, nullCmd, List.replicate 256 0, 0x31000, ?_, ?_, ?_, ?_, ?_, ?_, ?_, null_walk, caout_range,
      coherent_of_empty _ ?_⟩,
    ⟨0, 1, 0, graphed, graph0, ?_⟩, ⟨0, 2, graphed, ?_⟩,
    ⟨0, launched, { launch0 with record := { launch0.record with node := 0xFFFFFFFF }, retired := 1 }, 5, ?_⟩⟩
  case refine_2 => refine ⟨?_, ?_, ?_, ?_, ?_, ?_, ?_, ?_, ?_, ?_, ?_, ?_, ?_, ?_, ?_, ?_, ?_⟩ <;> decide +kernel
  all_goals decide +kernel

end Sys2Proof.Tests
end

