-- ==== Sys2Proof/Tests/WitnessInvoke.lean ====
section
/-! SUPPORT. Witnesses: for each statement about remote invocation, states and operands that meet the hypotheses of its clauses
together. -/

namespace Sys2Proof.Tests

set_option Elab.async false

open Sys2Proof Sys2Proof.Machine Sys2Proof.Claims

/-- Every port of the part is up. -/
def upPorts (f : Fabric) : Fabric := { f with ports := (List.range 16).map (fun p => (p, { Port.down with state := 2, en := true })) }

/-- A group of a part all of whose ports are up, with s2 `dev` and s3 `h`; handler 0 takes every record. -/
def linked (dev h : Word) (vacant : List Word) : State :=
  let s := withMe (fun x => { x with s := [(2, dev), (3, h)] })
  { s with
    fabric := upPorts s.fabric, member := { s.member with vacant := vacant },
    inv := { s.inv with jcfg := 0x8000000C, handlers := [(17, 0x38)] } }

/-- A record with no arguments to handler `h` under flags `fl`; one of its reserved bytes is `bad`. -/
def invRecord (h fl bad : Byte) : List Byte := record 64 [(8, h), (10, fl), (13, bad)]

theorem mayInvoke (dev h : Word) (vac : List Word) (hd : deviceIdOk dev = true ∧ h.toNat < 4096) :
    MayInvoke 1 2 52 12 (linked dev h vac) := by
  refine ⟨by decide, rfl, ?_, ⟨?_, rfl⟩, ?_⟩
  · exact hd
  · have q : Quiet (linked 0 0 []) := by decide +kernel
    exact q
  · have q : ((linked 0 0 []).me.tickets.filter TicketSlot.awaits).length < 64 := by decide +kernel
    exact q

/-- What handler 0 says of any record to it that is well formed. -/
theorem own_accepts (bs : List Byte) (i : InvokeRecord (linked 0 0 []) 1 (linked 0 0 []).inv.nextTicket 0 52 12 3 true false bs) :
    Accepts (linked 0 0 []) 0 bs := by
  have h0 : recHidx bs = 0 := i.hidx
  have h1 : recFl bs = 7 := by rw [recFl, i.flags]; rfl
  have h2 : recNarg bs = 12 := i.narg.1
  have hp : recPrio bs = 3 := by rw [recPrio, h1]
  have hz : fieldAt bs 64 0 = 0 := by simp [fieldAt, bytesNat]
  refine ⟨fun _ => by decide +kernel, ?_, ?_, ?_, by decide +kernel, ?_⟩
  · simp [recBad, h0, h1, h2, i.narg.2, hz]
  · rw [handlerFlags, h0]; decide +kernel
  · rw [handlerFlags, h0]; decide +kernel
  · rw [hp]; decide +kernel

theorem wit_InvocationsSent :
    (MayInvoke 1 2 52 12 (linked 1 4095 []) ∧ Reaches (linked 1 4095 []) 3 1)
    ∧ (MayInvoke 1 2 52 12 (linked 0 0 []) ∧ (0 : Word) = (linked 0 0 []).member.devId ∧ (linked 0 0 []).member.devId ≠ hostSrc
      ∧ ∀ bs, InvokeRecord (linked 0 0 []) 1 (linked 0 0 []).inv.nextTicket 0 52 12 3 true false bs →
          Accepts (linked 0 0 []) (linked 0 0 []).member.devId bs)
    ∧ (MayInvoke 1 2 52 12 (linked 1 0 [1]) ∧ (linked 1 0 [1]).member.isMember 1 = false)
    ∧ (∃ (d a f : SReg) (n : BitVec 4) (s : State), Ready s ([d.toNat, a.toNat, a.toNat + 1] ++ span f.toNat n.toNat)
      ∧ EvenReg a ∧ n.toNat ≤ 12 ∧ (n = 0 → f = 0) ∧ f.toNat + n.toNat ≤ 64 ∧ deviceIdOk (s.me.rs a.toNat) = true
      ∧ 4096 ≤ (s.me.rs (a.toNat + 1)).toNat) := by
  refine ⟨⟨mayInvoke _ _ _ ?_, ?_⟩, ⟨mayInvoke _ _ _ ?_, rfl, by decide, own_accepts⟩, ⟨mayInvoke _ _ _ ?_, ?_⟩,
    ⟨1, 2, 52, 12, linked 1 4096 [], ?_⟩⟩
  all_goals decide +kernel

/-- Ticket slot 9 of device 1's record. -/
def slot9 (reply must : Bool) (retries : Nat) : TicketSlot :=
  { ticket := 9, reply := reply, must := must, record := invRecord 0 0 0, target := 1, retries := retries, retryAt := none, launchx := 0,
    members := [], answers := [], final := none, failed := false }

/-- Group 0 holds that slot; s2 names ticket `t`. -/
def awaiting (x : TicketSlot) (t : Word) : State :=
  let s := linked 0 0 []
  s.setMe { s.me with tickets := [x], s := [(2, t)] }

theorem wit_InvocationsAwaited :
    (∃ (d a : SReg) (s : State), Ready s [d.toNat, a.toNat] ∧ s.me.tickets ≠ [] ∧ (∀ x ∈ s.me.tickets, x.ticket ≠ s.me.rs a.toNat))
    ∧ (∃ (d a : SReg) (s : State) (x : TicketSlot) (w : Word), Ready s [d.toNat, a.toNat]
      ∧ s.me.tickets.find? (fun x => x.ticket == s.me.rs a.toNat) = some x ∧ x.final = some w ∧ x.must = true ∧ x.failed = false)
    ∧ (∃ (d a : SReg) (s : State) (x : TicketSlot) (w : Word), Ready s [d.toNat, a.toNat]
      ∧ s.me.tickets.find? (fun x => x.ticket == s.me.rs a.toNat) = some x ∧ x.final = some w ∧ x.must = true ∧ x.failed = true)
    ∧ (∃ (d a : SReg) (s : State) (x : TicketSlot), Ready s [d.toNat, a.toNat]
      ∧ s.me.tickets.find? (fun x => x.ticket == s.me.rs a.toNat) = some x ∧ x.final = none) := by
  refine ⟨⟨1, 2, awaiting (slot9 false false 0) 8, ?_⟩,
    ⟨1, 2, awaiting { slot9 false true 0 with final := some 1 } 9, { slot9 false true 0 with final := some 1 }, 1, ?_⟩,
    ⟨1, 2, awaiting { slot9 false true 8 with final := some 0x10, failed := true } 9,
      { slot9 false true 8 with final := some 0x10, failed := true }, 0x10, ?_⟩,
    ⟨1, 2, awaiting (slot9 false false 0) 9, slot9 false false 0, ?_⟩⟩
  all_goals decide +kernel

/-- `linked` with a membership state, handler flags, journal switch and a queue of `n` records of priority 3. -/
def receiving (st : Nat) (fl : Byte) (jcfg : Word) (n : Nat) : State :=
  let s := linked 0 0 []
  { s with
    member := { s.member with state := st },
    inv := { s.inv with jcfg := jcfg, handlers := [(17, fl)],
                        queue3 := List.replicate n { src := 1, record := [], held := false, seq := 0, bypassed := 0, member := none } } }

/-- A record as stamped for device 1. -/
def fromOne (fl bad : Byte) : List Byte := recStamp 1 (recTicket (invRecord 0 fl bad)) (invRecord 0 fl bad)

theorem wit_InvocationsReceived :
    ((1 : Word) ≠ hostSrc ∧ Reaches (receiving 2 0x38 0x8000000C 0) 0 1 ∧ Accepts (receiving 2 0x38 0x8000000C 0) 1 (fromOne 15 0))
    ∧ (Reaches (receiving 3 0x38 0x8000000C 0) 0 1 ∧ (receiving 3 0x38 0x8000000C 0).member.state = 3)
    ∧ (Reaches (receiving 2 0x38 0x8000000C 0) 0 1 ∧ recBad (fromOne 0 1) = true)
    ∧ (Reaches (receiving 2 0x28 0x8000000C 0) 0 1 ∧ recBad (fromOne 0 0) = false
      ∧ handlerFlags (receiving 2 0x28 0x8000000C 0) (fromOne 0 0) / 16 % 2 = 0)
    ∧ (Reaches (receiving 2 0x38 0x0000000C 0) 0 1 ∧ recBad (fromOne 0 0) = false ∧ (receiving 2 0x38 0x0000000C 0).inv.jcfg.getLsbD 31 = false)
    ∧ (Reaches (receiving 2 0x38 0x8000000C 1024) 0 1 ∧ recBad (fromOne 3 0) = false
      ∧ handlerFlags (receiving 2 0x38 0x8000000C 1024) (fromOne 3 0) / 8 % 2 = 1
      ∧ handlerFlags (receiving 2 0x38 0x8000000C 1024) (fromOne 3 0) / 16 % 2 = 1
      ∧ (receiving 2 0x38 0x8000000C 1024).inv.jcfg.getLsbD 31 = true
      ∧ 1024 ≤ ((receiving 2 0x38 0x8000000C 1024).inv.queue (recPrio (fromOne 3 0))).length)
    ∧ (∃ (k : Nat) (bs : List Byte) (s : State), s.inv.submitted = [(k, bs)]
      ∧ Accepts s hostSrc (recStamp hostSrc (recTicket bs) bs))
    ∧ (∃ (k : Nat) (bs : List Byte) (s : State), s.inv.submitted = [(k, bs)] ∧ recBad (recStamp hostSrc (recTicket bs) bs) = true)
    ∧ (∃ (v : Word) (s : State), s.boot.stage = 6 ∧ (Sparse.get 0 s.inv.slotStat (v.toNat % 256)).getLsbD 31 = true)
    ∧ (∃ (v : Word) (s : State), s.boot.stage = 6 ∧ (Sparse.get 0 s.inv.slotStat (v.toNat % 256)).getLsbD 31 = false) := by
  refine ⟨?_, ?_, ?_, ?_, ?_, ?_, ⟨255, invRecord 0 1 0, { linked 0 0 [] with inv := { (linked 0 0 []).inv with submitted := [(255, invRecord 0 1 0)] } }, rfl, ?_⟩,
    ⟨255, invRecord 0 1 1, { linked 0 0 [] with inv := { (linked 0 0 []).inv with submitted := [(255, invRecord 0 1 1)] } }, rfl, ?_⟩,
    ⟨0x1FF, { ready with inv := { ready.inv with slotStat := [(255, 0x80000000)] } }, ?_⟩, ⟨0x1FF, ready, ?_⟩⟩
  all_goals decide +kernel

/-- One record of device 1 in the queue of priority 2. -/
def queuedItem : InvItem := { src := 1, record := fromOne 6 0, held := false, seq := 1, bypassed := 15, member := none }
def dispatching : State := { linked 0 0 [] with inv := { (linked 0 0 []).inv with queue2 := [queuedItem] } }

theorem wit_InvocationsRun :
    (∃ (s : State) (p : Nat) (i : InvItem), p < 4 ∧ (∀ q, p < q → q < 4 → s.inv.head q = none) ∧ s.inv.head p = some i
      ∧ (∀ q j, q < 4 → s.inv.head q = some j → j.bypassed < 16) ∧ (∀ l ∈ s.sched.launches, l.ticket ≠ launchTicket s) ∧ NoErrors s)
    ∧ (∃ (g : Nat) (ticket : Word) (s : State) (x : TicketSlot), x ∈ (s.group g).tickets ∧ x.ticket = ticket ∧ x.launchx = 0
      ∧ x.final = none ∧ x.retryAt = none ∧ x.reply = false ∧ x.must = false)
    ∧ (∃ (g : Nat) (ticket : Word) (s : State) (x : TicketSlot), x ∈ (s.group g).tickets ∧ x.ticket = ticket ∧ x.launchx = 0
      ∧ x.final = none ∧ x.retryAt = none ∧ x.reply = true ∧ x.must = true ∧ x.retries < 8)
    ∧ (∃ (g : Nat) (ticket : Word) (s : State) (x : TicketSlot), x ∈ (s.group g).tickets ∧ x.ticket = ticket ∧ x.launchx = 0
      ∧ x.final = none ∧ x.retryAt = none ∧ x.must = true ∧ 8 ≤ x.retries)
    ∧ (∃ (g : Nat) (ticket : Word) (s : State) (x : TicketSlot) (due : Nat), (s.group g).tickets.find? (fun x => x.ticket == ticket) = some x
      ∧ x.retryAt = some due ∧ s.ck < due)
    ∧ (∃ (g : Nat) (ticket : Word) (s : State) (x : TicketSlot) (due : Nat), (s.group g).tickets.find? (fun x => x.ticket == ticket) = some x
      ∧ x.retryAt = some due ∧ due ≤ s.ck ∧ Reaches s (recPrio x.record) x.target) := by
  refine ⟨⟨dispatching, 2, queuedItem, by decide, ?_, ?_, ?_, ?_, ?_⟩,
    ⟨0, 9, awaiting (slot9 false false 0) 9, slot9 false false 0, ?_⟩, ⟨0, 9, awaiting (slot9 true true 7) 9, slot9 true true 7, ?_⟩,
    ⟨0, 9, awaiting (slot9 false true 8) 9, slot9 false true 8, ?_⟩,
    ⟨0, 9, awaiting { slot9 false true 1 with retryAt := some 1 } 9, { slot9 false true 1 with retryAt := some 1 }, 1, ?_⟩,
    ⟨0, 9, awaiting { slot9 false true 1 with retryAt := some 0 } 9, { slot9 false true 1 with retryAt := some 0 }, 0, ?_⟩⟩
  case refine_1 =>
    intro q h1 h2
    obtain rfl : q = 3 := by omega
    rfl
  case refine_3 =>
    intro q j hq hj
    match q, hq, hj with
    | 0, _, hj => cases hj
    | 1, _, hj => cases hj
    | 2, _, hj => cases hj; decide
    | 3, _, hj => cases hj
  all_goals decide +kernel

/-! ### LAUNCHX -/

/-- `placed` with the record of communicator 3, whose members are devices 1 and 2. -/
def launchxReady (stale : Bool) (rs : List Reservation) : State :=
  let s := placed [(0, 3)] true
  { s.setMe { s.me with reservations := rs } with
    mem := (0x20000, 1) :: (0x20004, 2) :: s.mem, fabric := upPorts s.fabric,
    coll := { s.coll with comms := [(3, comm3 stale)] }, inv := { s.inv with jcfg := 0x8000000C, handlers := [(17, 0x38)] } }

/-- A reservation made from that record, held by both members. -/
def reservation3 : Reservation := { addr := 0x30000, ticket := 7, record := record 64 [(0, 3), (4, 7)], members := [1, 2], held := true }

/-- What the read of its record leaves. -/
def launchxRead (stale : Bool) (rs : List Reservation) : State :=
  afterRead ((launchxReady stale rs).readRecord 0x30000 64) (launchxReady stale rs)

theorem submits_launchx (stale : Bool) (rs : List Reservation)
    (hr : okRecord ((launchxReady stale rs).readRecord 0x30000 64) (record 64 [(0, 3)]) = true) :
    Submits 1 2 64 64 (launchxReady stale rs) (launchxRead stale rs) (record 64 [(0, 3)]) := by
  have h : Ready (launchxReady false []) [1, 2, 3] ∧ ((launchxReady false []).me.rs64 2).toNat % 64 = 0 ∧ Quiet (launchxReady false [])
      ∧ ((launchxReady false []).me.rs64 2).toNat = 0x30000 := by decide +kernel
  have a : ((launchxReady stale rs).me.rs64 (2 : SReg).toNat).toNat = 0x30000 := h.2.2.2
  exact ⟨rfl, h.1, h.2.1, ⟨h.2.2.1, rfl⟩, by rw [a]; exact record_of _ hr⟩

theorem others {rs : List Reservation} (h1 : Reaches (launchxReady false rs) 0 1) (h2 : Reaches (launchxReady false rs) 0 2) :
    AllOthers (launchxReady false rs) [1, 2] := by
  refine ⟨by decide, fun d hd => ?_⟩
  simp only [List.mem_cons, List.not_mem_nil, or_false] at hd
  rcases hd with rfl | rfl
  · exact h1
  · exact h2

theorem ranks3 : (launchxRead false []).rankIds 3 = [1, 2] := by decide +kernel

/-- A reservation of device 1 is held here. -/
def heldItem : InvItem := { src := 1, record := record 64 [(0, 3)], held := true, seq := 0, bypassed := 0, member := none }
def holding : State := { linked 0 0 [] with inv := { (linked 0 0 []).inv with queue0 := [heldItem] } }

/-- A request of device 1 with code `op` under generation `gen`. -/
def request (op : Nat) (gen : BitVec 64) : LaunchxReq := { op := op, src := 1, ticket := 7, gen := gen, record := invRecord 0 0 0 }

theorem wit_LaunchesTogether :
    (Submits 1 2 64 64 (launchxReady true []) (launchxRead true []) (record 64 [(0, 3)])
      ∧ Submits 1 2 64 64 (launchxReady false []) (launchxRead false []) (record 64 [(0, 3)])
      ∧ recComm (record 64 [(0, 3)]) = 3
      ∧ (∀ stale, ((launchxReady stale []).comm 3).on = true ∧ ((launchxReady stale []).comm 3).ctx = 0
        ∧ ((launchxReady stale []).me.tickets.filter TicketSlot.awaits).length < 64 ∧ ((launchxReady stale []).comm 3).stale = stale)
      ∧ (launchxReady false []).tableLost 3 = false ∧ AllOthers (launchxReady false []) ((launchxRead false []).rankIds 3))
    ∧ (Submits 1 2 64 64 (launchxReady false [reservation3]) (launchxRead false [reservation3]) (record 64 [(0, 3)])
      ∧ (launchxReady false [reservation3]).me.reservations.find? (fun r => r.addr == 0x30000 && r.held) = some reservation3
      ∧ AllOthers (launchxReady false [reservation3]) reservation3.members ∧ ∃ k, k ∈ useInstrs)
    ∧ (∃ (d a : SReg) (s : State), EvenReg a ∧ Ready s [d.toNat, a.toNat, a.toNat + 1] ∧ (s.me.rs64 a.toNat).toNat % 64 ≠ 0)
    ∧ (Reaches (linked 0 0 []) 0 (request 0 1).src ∧ (request 0 1).src ≠ hostSrc ∧ (request 0 1).gen ≠ (linked 0 0 []).member.gen)
    ∧ ((request 0 0).gen = (linked 0 0 []).member.gen
      ∧ Accepts (linked 0 0 []) 1 (recStamp 1 (recTicket (request 0 0).record) (request 0 0).record))
    ∧ (Reaches holding 0 (request 1 0).src ∧ (request 1 0).op = 1
      ∧ [0, 1, 2, 3].findSome? (fun p => (holding.inv.queue p).find? (InvItem.heldBy 1 0)) = some heldItem
      ∧ recTicket (request 1 0).record = 0)
    ∧ (request 2 0).op = 2 := by
  refine ⟨⟨submits_launchx _ _ ?_, submits_launchx _ _ ?_, ?_, ?_, ?_, by rw [ranks3]; exact others (by decide +kernel) (by decide +kernel)⟩,
    ⟨submits_launchx _ _ ?_, ?_, others (by decide +kernel) (by decide +kernel), ⟨_, List.mem_cons_self⟩⟩,
    ⟨1, 2, withMe (fun x => x.ws 2 32), ?_⟩, ?_, ?_, ?_, rfl⟩
  all_goals decide +kernel

end Sys2Proof.Tests
end

