-- ==== Sys2Proof/Tests/WitnessPlace.lean ====
section
/-! SUPPORT. Witnesses: for each statement about collectives that end, rank tables, placement, windows and pre-emption, states
and operands that meet the hypotheses of its clauses together. -/

namespace Sys2Proof.Tests

set_option Elab.async false

open Sys2Proof Sys2Proof.Machine Sys2Proof.Claims

/-! ### Collectives -/

/-- A chunk of words of device 1. -/
def chunk1 (op : Nat) (gen : BitVec 16) : CollChunk :=
  { comm := 3, seq := 0, tableId := 0, gen := gen, src := 1, rank := 1, kind := 2, index := 0, op := op, mode := 2, sendSize := 4,
    exps := [], q := [], checks := [], data := [5, 0, 0, 0] }

/-- A collective of 4 bytes over `p` ranks, of which this device is the first; its own piece is read. -/
def coll1 (p : Nat) (dests : List CollDest) : Coll :=
  { comm := 3, ticket := 1, seq := 0, tableId := 0, op := 1, mode := 2, elem := 2, p := p, f := 40, rank := some 0, ranks := [0],
    g := some 0, core := 0, ctx := 0, hcl := 0, lockOp := 7, pri := 0, sendVa := 0x30000, sendSize := 4, recvVa := 0x31000,
    recvSize := 4, stream := 0, dests := dests, own := [(0, [0, 0, 0, 0])], early := some 0, retried := [], status := none }

/-- Its receiver waits for the data. -/
def dest1 : CollDest := { dst := 1, rank := some 1, next := 1, passed := 3, again := [] }

/-- The sizes that rank 1 says, and those that disagree. -/
def sizes1 (size : Nat) : CollChunk := { chunk1 1 0 with kind := 5, sendSize := size, data := [] }

/-- That collective is in flight, and `box` has arrived. -/
def collected (x : Coll) (box : List CollChunk) : State :=
  { ready with fabric := upPorts ready.fabric,
               coll := { ready.coll with comms := [(3, comm3 false)], flying := [x], inbox := box } }

theorem wit_CollectivesEnd :
    (∃ (k : CollChunk) (s : State), k.gen = s.member.gen.setWidth 16 ∧ k.kind ≠ 3)
    ∧ (∃ (k : CollChunk) (s : State), k.gen ≠ s.member.gen.setWidth 16 ∧ Leaves s k.src 0)
    ∧ (∃ (x : Coll) (s : State), ReadyToRetire s x ∧ x.status = none ∧ s.collBad x = true ∧ x.rank ≠ none)
    ∧ (∃ (x : Coll) (s : State) (bs : List Byte) (b use : Nat), ReadyToRetire s x ∧ x.status = none ∧ s.collBad x = false
      ∧ s.collResult x = (s, .bytes bs) ∧ s.collAcked x = true ∧ x.early = some use
      ∧ s.engineRange (s.collAsker x) x.recvVa bs.length .store = (s, .at_ [(.dev b, bs.length)])
      ∧ s.lookup (s.collAsker x) x.recvVa .store = .hit (.dev b) ∧ x.recvVa % 65536 + x.recvSize ≤ 65536 ∧ LlcCoherent s
      ∧ (∀ i, i < bs.length → Config.freeChoice use i = true → s.devByte (b + i) = bs.getD i 0))
    ∧ (∃ (c ticket : Nat) (s : State), s.coll.flying.find? (fun y => y.comm == c && y.ticket == ticket) = none)
    ∧ (∃ (port : Nat) (s : State), (s.port port).isUp = false)
    ∧ (∃ (port : Nat) (s : State), (s.port port).isUp = true ∧ s.collReady port = [])
    ∧ (∃ (port : Nat) (s : State) (x : CollReady) (k : CollChunk), (s.port port).isUp = true ∧ s.collReady port = [x]
      ∧ s.collUnit x.coll x.dest x.unit = (s, .got k)
      ∧ (s.port port).replay.length + ((s.port port).queue.length + ((Msg.chunk x.dest.dst k).flits 0 k.gen).length) ≤ 2048)
    ∧ (∃ (ds : List (List Byte)) (n : Nat), ds ≠ [] ∧ (∀ d ∈ ds, d.length = 4 * n) ∧ ∃ i, i < n) := by
  refine ⟨⟨chunk1 0 0, ready, ?_⟩, ⟨chunk1 0 0xFFFF, linked 0 0 [], ?_⟩,
    ⟨coll1 2 [], collected (coll1 2 []) [sizes1 8], ?_⟩,
    ⟨coll1 1 [], collected (coll1 1 []) [], [0, 0, 0, 0], 0x31000, 0, ?_, ?_, ?_, rfl, ?_, ?_, range_at ?_ ?_, ?_, ?_,
      coherent_of_empty _ ?_, ?_⟩,
    ⟨3, 2, collected (coll1 2 []) [], ?_⟩, ⟨0, ready, ?_⟩, ⟨0, linked 0 0 [], ?_⟩,
    ⟨1, collected (coll1 2 [dest1]) [sizes1 4], { coll := coll1 2 [dest1], dest := dest1, unit := 1 },
      { chunk1 1 0 with src := 0, rank := 0, data := [0, 0, 0, 0] }, ?_, ?_, rfl, ?_⟩,
    ⟨[[1, 0, 0, 0], [0xFF, 0xFF, 0xFF, 0xFF]], 1, ?_, ?_, 0, ?_⟩⟩
  case refine_14 =>
    intro i hi _
    have h : ∀ i, i < 4 → (collected (coll1 1 []) []).devByte (0x31000 + i) = ([0, 0, 0, 0] : List Byte).getD i 0 := by decide +kernel
    exact h i hi
  all_goals decide +kernel

/-- A group whose s2 names communicator 3, with this staged table, and its own wait. -/
def swapping (stale : Bool) (staged : RankTable) (w : SlotWait) (x : List Coll) : State :=
  let s := withMe (fun x => { x with s := [(2, 3)], slotA := { x.slotA with wait := w } })
  { s with coll := { s.coll with
      comms := [(3, { comm3 stale with staged := staged, hold := if w = .none then none else some 0 })], flying := x } }

/-- A staged table of 5 ranks, of which this device is the last, under generation `gen`. -/
def staged5 (gen : BitVec 64) : RankTable := { RankTable.off with gen := gen, base := 0x30000, p := 5, rank := 4, tableId := 9, valid := true }

theorem wit_RankTablesSwap :
    (∃ (a : SReg) (s : State) (c : Nat), MaySwap a s c ∧ (s.comm c).stale = false
      ∧ (s.comm c).active.map (·.gen) = some s.member.gen ∧ (s.comm c).staged.valid = false)
    ∧ (∃ (a : SReg) (s : State) (c : Nat), MaySwap a s c ∧ (s.comm c).stale = true ∧ (s.comm c).staged.valid = false)
    ∧ (∃ (a : SReg) (s : State) (c : Nat), MaySwap a s c ∧ (s.comm c).stale = true ∧ (s.comm c).staged.gen ≠ s.member.gen)
    ∧ (∃ (a : SReg) (s : State) (c : Nat), MaySwap a s c ∧ (s.comm c).staged.valid = true ∧ (s.comm c).staged.gen = s.member.gen)
    ∧ (∃ (a : SReg) (s : State) (c : Nat), c = (s.me.rs a.toNat).toNat ∧ Ready s [a.toNat] ∧ s.commOk c = true
      ∧ s.sl.wait = .swap c ∧ (s.comm c).hold = some s.cur.g ∧ ∃ x ∈ s.coll.flying, x.comm = c)
    ∧ (∃ (a : SReg) (s : State) (c : Nat), c = (s.me.rs a.toNat).toNat ∧ Ready s [a.toNat] ∧ s.commOk c = true
      ∧ s.sl.wait = .swap c ∧ (s.comm c).hold = some s.cur.g ∧ (∀ x ∈ s.coll.flying, x.comm ≠ c) ∧ s.replicaFlying c = false
      ∧ (s.comm c).staged.gen = s.member.gen ∧ s.tablePoisoned (s.comm c).staged = false)
    ∧ (∃ (a : SReg) (s : State) (c : Nat), c = (s.me.rs a.toNat).toNat ∧ Ready s [a.toNat] ∧ s.commOk c = true
      ∧ s.sl.wait = .swap c ∧ (s.comm c).hold = some s.cur.g ∧ (∀ x ∈ s.coll.flying, x.comm ≠ c) ∧ s.replicaFlying c = false
      ∧ (s.comm c).staged.gen ≠ s.member.gen)
    ∧ (∃ (a : SReg) (s : State), Ready s [a.toNat] ∧ s.commOk (s.me.rs a.toNat).toNat = false) := by
  refine ⟨⟨2, swapping false RankTable.off .none [], 3, ?_⟩, ⟨2, swapping true RankTable.off .none [], 3, ?_⟩,
    ⟨2, swapping true (staged5 9) .none [], 3, ?_⟩, ⟨2, swapping true (staged5 0) .none [], 3, ?_⟩,
    ⟨2, swapping true (staged5 0) (.swap 3) [coll1 2 []], 3, ?_⟩,
    ⟨2, swapping true (staged5 0) (.swap 3) [{ coll1 2 [] with comm := 4 }], 3, ?_⟩,
    ⟨2, swapping true (staged5 9) (.swap 3) [], 3, ?_⟩, ⟨1, ready, ?_⟩⟩
  all_goals decide +kernel

/-- Record 0 has these bits. -/
def recorded (bits : BitVec 128) : State := withMe (fun x => x.wb 0 bits)

theorem wit_DiscardAndReplicaRequests :
    (∃ (b : BReg) (s : State), MemFree s b ∧ (recRule s b).cls ≠ 0)
    ∧ (∃ (b : BReg) (s : State), MemFree s b ∧ (recRule s b).cls = 0 ∧ (recRule s b).wr = false)
    ∧ (∃ (b : BReg) (s : State), MemFree s b ∧ (recRule s b).cls = 0 ∧ (recRule s b).wr = true ∧ (recRule s b).extent = 0)
    ∧ (∃ (b : BReg) (s : State) (pa : Nat), MemFree s b ∧ (recRule s b).cls = 0 ∧ (recRule s b).wr = true ∧ 0 < (recRule s b).extent
      ∧ (recRule s b).base % 65536 + (recRule s b).extent ≤ 65536 ∧ pa % 65536 = (recRule s b).base % 65536
      ∧ s.lockConflicts (hclOf s.cur.g) s.me.ident.ctx true (recRule s b).extent [(0, (recRule s b).base)] = 0
      ∧ s.resolve (scalarWho s) 0 (recRule s b).base .store = .hit (.dev pa) ∧ s.me.storeFull = false
      ∧ s.resolveAll (scalarWho s) 0 .store (rangePages (recRule s b).base (recRule s b).extent) = .places [some (.dev pa)])
    ∧ (∃ (q : ReplicaReq) (s : State) (pa : Nat), (s.comm q.comm).on = true
      ∧ (s.replicaOf (s.comm q.comm).ctx q.va q.width).isSome = true
      ∧ s.engineRange (s.engineAsker (.replica q.comm) 0 (s.comm q.comm).ctx none) q.va q.width .load
        = (s, .at_ [(.dev pa, q.width)]) ∧ s.ras.poison = []
      ∧ LlcCoherent s ∧ Leaves s q.src 0) := by
  refine ⟨⟨0, recorded (recBits 1 0 4096), ?_⟩,
    ⟨0, recorded (BitVec.ofNat 128 (4096 * 2 ^ 64 + 2 ^ 61 + 0x30000)), ?_⟩, ⟨0, recorded (recBits 0 0x30000 0), ?_⟩,
    ⟨0, recorded (recBits 0 0x30010 100), 0x30010, ?_⟩,
    ⟨{ src := 1, comm := 3, va := 0x30008, width := 8, tag := 0 },
      { replicated false with fabric := upPorts (replicated false).fabric }, 0x30008, ?_, ?_, range_at ?_ ?_, ?_, coherent_of_empty _ ?_, ?_⟩⟩
  all_goals decide +kernel

/-! ### Placement -/

/-- A launch of one cluster of one team of one group with 32 registers, at boundaries of its own. -/
def oneLaunch : Launch :=
  { launch0 with
    record := { launch0.record with team := 1, pbreg := 8, pbscr := 2, pbl1 := 1 }, hdr := { Header.none with budget := 32 },
    launcher := .group 0 }

def oneStart : TaskItem :=
  { start := true, ticket := 0, cluster := 0, team := 0, prio := 7, bypassed := 0, reserved := false, held := [] }

/-- That launch alone, its start queued at hardware core cluster 47. -/
def starting : State :=
  { ready with groups := [], sched := { ready.sched with launches := [oneLaunch] },
               hcls := [(47, { ready.hcl 47 with tasks := [oneStart] })] }

theorem wit_ClustersPlaced :
    OneStart starting 47 oneLaunch oneStart ∧ (starting.core (47 * 12)).poolcfg ≠ oneLaunch.poolcfg
    ∧ ∃ (s : State) (h : Nat), s.sched.launches = [] ∧ (s.hcl h).tasks = [] := by
  refine ⟨?_, ?_, ready, 0, ?_⟩
  · constructor <;> decide +kernel
  all_goals decide +kernel

/-- Time `n`; the team's window began at 5; core 0's window at 5, with hits. -/
def atTime (n : Nat) : State :=
  let s := { paired (fun t => { t with windowStart := 5, credit := -3, stbcfg := 0x10000020 }) id with ck := n }
  s.setCore 0 { s.core 0 with window := 5, hits := 65, quota := 3, idle := false }

/-- A group whose limit on waiting for credit is `2 ^ 4` ck, with a handler, waits in slot A, or at the head of its lane queue. -/
def creditWait (w : SlotWait) (n : Nat) : State :=
  { withMe (fun x => { x with
      ident := { x.ident with stbcfg := 0x90000000 }, csr := { x.csr with utvec := 0x40 }, slotA := { x.slotA with wait := w },
      blocks := [codeBlock], laneWait := some (0, 0) }) with ck := n }

theorem wit_WindowsAndTimeouts :
    (∃ (k : TeamKey) (s : State) (t : Team), s.team? k = some t ∧ s.ck < t.windowStart + 2000)
    ∧ (∃ (k : TeamKey) (s : State) (t : Team), s.team? k = some t ∧ t.windowStart + 2000 ≤ s.ck ∧ t.credit < 0)
    ∧ (∃ (k : TeamKey) (s : State), s.team? k = none)
    ∧ (∃ (c : Nat) (s : State), s.boot.clock = 2000 ∧ s.ck < (s.core c).window + 1024)
    ∧ (∃ (c : Nat) (s : State), s.boot.clock = 2000 ∧ (s.core c).window + 1024 ≤ s.ck ∧ (s.core c).idle = false
      ∧ (s.core c).thrcfg.toNat % 65536 < (s.core c).hits)
    ∧ (∃ (g : Nat) (b : Bool) (s : State) (since : Nat) (w : Word), ((s.group g).slot b).wait = .credit since w ∧ Unmet s g
      ∧ (s.group g).ident.stbcfg.getLsbD 31 = true ∧ ¬since + 2 ^ ((s.group g).ident.stbcfg.toNat / 2 ^ 26 % 32) < s.ck)
    ∧ (∃ (g : Nat) (b : Bool) (s : State) (since : Nat) (w : Word), ((s.group g).slot b).wait = .credit since w ∧ Unmet s g
      ∧ (s.group g).ident.stbcfg.getLsbD 31 = true ∧ since + 2 ^ ((s.group g).ident.stbcfg.toNat / 2 ^ 26 % 32) < s.ck
      ∧ HasHandler (s.group g))
    ∧ (∃ (g : Nat) (s : State) (b : Block) (since w : Nat), (s.group g).headBlock = some b ∧ (s.group g).laneWait = some (since, w) ∧ Unmet s g
      ∧ (s.group g).ident.stbcfg.getLsbD 31 = true ∧ since + 2 ^ ((s.group g).ident.stbcfg.toNat / 2 ^ 26 % 32) < s.ck
      ∧ HasHandler (s.group g) ∧ ((s.group g).slot b.slotB).wait = .none
      ∧ w / 2 ^ 88 ≠ 0x90) := by
  refine ⟨⟨⟨0, 0, 0⟩, atTime 2004, { team0 with windowStart := 5, credit := -3, stbcfg := 0x10000020 }, ?_⟩,
    ⟨⟨0, 0, 0⟩, atTime 2005, { team0 with windowStart := 5, credit := -3, stbcfg := 0x10000020 }, ?_⟩, ⟨⟨0, 0, 1⟩, atTime 0, ?_⟩,
    ⟨0, atTime 1028, ?_⟩, ⟨0, atTime 1029, ?_⟩, ⟨0, false, creditWait (.credit 1 0) 17, 1, 0, ?_⟩,
    ⟨0, false, creditWait (.credit 1 0) 18, 1, 0, ?_⟩, ⟨0, creditWait .none 17, codeBlock, 0, 0, ?_⟩⟩
  all_goals decide +kernel

/-! ### Pre-emption -/

/-- `paired` with its team as `t` says, its launch limiting a phase to 100 ck, at time `n`; context 0's state is `st`. -/
def preempting (t : Team → Team) (st n : Nat) : State :=
  let s := paired t id
  { s with ck := n, sched := { s.sched with
      launches := [{ launch0 with record := { launch0.record with flags := 4, phlim := 100 } }], preempt := if st = 0 then [] else [(0, st)] } }

/-- The team waits in the queue with one record that is not spilled. -/
def waiting (t : Team) : Team := { t with stage := .queued, records := [{ index := 0, group := codeGroup, spilled := false }] }

theorem wit_ContextsPreempted :
    (∃ (ctx : Nat) (s : State), s.preemptState ctx = 0 ∧ s.pastLimit ctx = none
      ∧ ∃ c ∈ s.sched.clusters, s.preemptibleOf ctx c.ticket = true ∧ c.unplaced = false ∧ ∃ m ∈ c.teams, m.stage = .running)
    ∧ (∃ (ctx : Nat) (s : State), s.preemptState ctx = 0 ∧ s.pastLimit ctx = none ∧ s.sched.clusters ≠ []
      ∧ (∀ c ∈ s.sched.clusters, s.preemptibleOf ctx c.ticket = true → ∀ m ∈ c.teams, m.stage ≠ .running)
      ∧ (∀ e ∈ s.cores, e.2.sideLog = []) ∧ ∀ h ∈ s.hcls, h.2.packets = [])
    ∧ (∃ (ctx : Nat) (s : State) (tm : Team), s.preemptState ctx = 1 ∧ s.pastLimit ctx = some tm)
    ∧ (∃ (ctx : Nat) (s : State), s.preemptState ctx = 1 ∧ s.pastLimit ctx = none)
    ∧ (∃ (ctx : Nat) (s : State), s.preemptState ctx = 2)
    ∧ (∃ (ctx : Nat) (s : State), ctx < 4096 ∧ s.preemptState ctx = 3) := by
  refine ⟨⟨0, preempting id 0 100, ?_⟩, ⟨0, preempting waiting 0 101, ?_⟩, ⟨0, preempting id 1 101, team0, ?_⟩,
    ⟨0, preempting id 1 100, ?_⟩, ⟨0, preempting id 2 0, ?_⟩, ⟨0, preempting id 3 0, ?_⟩⟩
  all_goals decide +kernel

end Sys2Proof.Tests
end

