-- ==== Sys2Proof/Tests/WitnessVm.lean ====
section
/-! SUPPORT. Witnesses: for each statement about translation, address regions and hotness, states and operands that
meet the hypotheses of its clauses together. -/

namespace Sys2Proof.Tests

set_option Elab.async false

open Sys2Proof Sys2Proof.Machine Sys2Proof.Claims

/-! ### Walks -/

/-- Three table pointers at 0x200000, 0x201000 and 0x202000; at 0x203018 the leaf of page 3: its low byte, its page. -/
def tables (leaf : Byte) : Memory :=
  [(0x200000, 1), (0x200001, 0x10), (0x200002, 0x20), (0x201000, 1), (0x201001, 0x20), (0x201002, 0x20),
   (0x202000, 1), (0x202001, 0x30), (0x202002, 0x20), (0x203018, leaf), (0x20301A, 3)]

def walk3 (k : Access) : Walk :=
  { first := { who := .stream 0 false true, hcl := 0, ctx := 0, loc := 0, ticket := 0, flags := 0 }, others := [.access 0 1], va := 0x30000,
    kind := k }

/-- A request stands for page 3 of context 0. -/
def standing (s : State) : State := { s with vm := { s.vm with faults := [⟨4, 0, 3, true, 2⟩] } }

/-- Walks `ws` wait; context 0's tables are at `root`, where `m` stands. -/
def walking (ws : List Walk) (root : Nat) (m : Memory) : State :=
  { ready with vm := { ready.vm with walks := ws, nextFault := 5 }, mem := m,
               host := { ready.host with contexts := [(0, ⟨root, 0, 0, 1⟩)] } }

theorem walkTo_page3 (leaf : Byte) (h : leaf = 0x0B ∨ leaf = 0x07) :
    WalkTo (walking [walk3 .store] 0x200000 (tables leaf)) 0x200000 0x30000 0x203018 (0x30000 + leaf.toNat) := by
  rcases h with rfl | rfl <;>
    exact ⟨⟨0x201000, 0x202000, 0x203000, by unfold Points pteAt; decide +kernel, by unfold Points pteAt; decide +kernel,
      by unfold Points pteAt; decide +kernel, by decide⟩, by unfold pteAt; decide +kernel⟩

theorem walkTo_standing :
    WalkTo (standing (walking [walk3 .store] 0x200000 (tables 0x07))) 0x200000 0x30000 0x203018 0x30007 :=
  ⟨⟨0x201000, 0x202000, 0x203000, by unfold Points pteAt; decide +kernel, by unfold Points pteAt; decide +kernel,
    by unfold Points pteAt; decide +kernel, by decide⟩, by unfold pteAt; decide +kernel⟩

theorem wit_WalksEnd :
    (∃ (s : State) (k : Nat) (w : Walk) (a e : Nat), s.vm.walks[k]? = some w ∧ WalkerHas s k w ∧ w.va < 2 ^ 57 ∧ LlcCoherent s
      ∧ Settled s ∧ s.ras.poison = [] ∧ WalkTo s (s.ctxEntry w.first.ctx).root w.va a e ∧ e / permBit w.kind % 2 = 1)
    ∧ (∃ (s : State) (k : Nat) (w : Walk) (a e : Nat), s.vm.walks[k]? = some w ∧ WalkerHas s k w ∧ w.va < 2 ^ 57 ∧ LlcCoherent s
      ∧ Settled s ∧ s.ras.poison = [] ∧ WalkTo s (s.ctxEntry w.first.ctx).root w.va a e ∧ e / permBit w.kind % 2 = 0
      ∧ s.faultStands w.first.ctx w.va w.kind = none)
    ∧ (∃ (s : State) (k : Nat) (w : Walk) (a e : Nat) (f : FaultReq), s.vm.walks[k]? = some w ∧ WalkerHas s k w ∧ w.va < 2 ^ 57
      ∧ LlcCoherent s ∧ Settled s ∧ s.ras.poison = [] ∧ WalkTo s (s.ctxEntry w.first.ctx).root w.va a e ∧ e / permBit w.kind % 2 = 0
      ∧ s.faultStands w.first.ctx w.va w.kind = some f)
    ∧ (∃ (s : State) (k : Nat) (w : Walk), s.vm.walks[k]? = some w ∧ WalkerHas s k w ∧ w.va < 2 ^ 57 ∧ LlcCoherent s
      ∧ Settled s ∧ s.ras.poison = [] ∧ s.mapped ((s.ctxEntry w.first.ctx).root + 8 * (w.va / 2 ^ 39 % 2 ^ 18)) = true
      ∧ pteAt s ((s.ctxEntry w.first.ctx).root + 8 * (w.va / 2 ^ 39 % 2 ^ 18)) % 2 = 0
      ∧ s.faultStands w.first.ctx w.va w.kind = none)
    ∧ (∃ (s : State) (k : Nat) (w : Walk), s.vm.walks[k]? = some w ∧ WalkerHas s k w ∧ w.va < 2 ^ 57 ∧ LlcCoherent s
      ∧ Settled s ∧ s.ras.poison = [] ∧ s.mapped ((s.ctxEntry w.first.ctx).root + 8 * (w.va / 2 ^ 39 % 2 ^ 18)) = false)
    ∧ (∃ (s : State) (k : Nat), s.vm.walks[k]? ≠ none ∧ ∀ w, s.vm.walks[k]? = some w → ¬WalkerHas s k w) := by
  refine ⟨⟨walking [walk3 .store] 0x200000 (tables 0x0B), 0, walk3 .store, 0x203018, 0x3000B, ?_, ?_, ?_, coherent_of_empty _ ?_, ?_, ?_,
      walkTo_page3 _ (.inl rfl), ?_⟩,
    ⟨walking [walk3 .store] 0x200000 (tables 0x07), 0, walk3 .store, 0x203018, 0x30007, ?_, ?_, ?_, coherent_of_empty _ ?_, ?_, ?_,
      walkTo_page3 _ (.inr rfl), ?_, ?_⟩,
    ⟨standing (walking [walk3 .store] 0x200000 (tables 0x07)), 0, walk3 .store, 0x203018, 0x30007, ⟨4, 0, 3, true, 2⟩, ?_, ?_, ?_,
      coherent_of_empty _ ?_, ?_, ?_, walkTo_standing, ?_, ?_⟩,
    ⟨walking [walk3 .fetch] 0x200000 [], 0, walk3 .fetch, ?_, ?_, ?_, coherent_of_empty _ ?_, ?_, ?_, ?_, ?_, ?_⟩,
    ⟨walking [walk3 .load] 0x4000000000 [], 0, walk3 .load, ?_, ?_, ?_, coherent_of_empty _ ?_, ?_, ?_, ?_⟩,
    ⟨walking (List.replicate 65 (walk3 .load)) 0 [], 64, ?_, ?last⟩⟩
  case last =>
    intro w hw
    have h : (walking (List.replicate 65 (walk3 .load)) 0 []).vm.walks[64]? = some (walk3 .load) := by decide +kernel
    rw [h] at hw
    cases hw
    unfold WalkerHas
    decide +kernel
  all_goals first
    | (unfold WalkerHas; decide +kernel)
    | (unfold pteAt; decide +kernel)
    | decide +kernel

/-! ### The host's translations -/

/-- An ATS request of the walk for page 3, and what has been asked and answered of it. -/
def hostReq (id : Nat) (denied pri second : Bool) : HostReq :=
  { id := id, walk := walk3 .store, read := true, write := true, dirty := true, denied := denied, pri := pri, second := second }

def asked (rs : List HostReq) : State := { ready with vm := { ready.vm with hostReqs := rs } }

/-- A group with one load in flight to a host page. -/
def hostLoad : State := loading (.scalar 2 4) [⟨0, 0x30000, some (.host 0x30000)⟩]

theorem wit_HostTranslations :
    (∃ (id : Nat) (a : AtsReply) (s : State) (r : HostReq), s.vm.hostReqs.find? (fun r => r.id == id && !r.denied) = some r
      ∧ r.walk.kind = .store ∧ (r.write && a.write) = true)
    ∧ (∃ (id : Nat) (a : AtsReply) (s : State) (r : HostReq), s.vm.hostReqs.find? (fun r => r.id == id && !r.denied) = some r
      ∧ r.walk.kind = .store ∧ (r.write && a.write) = false ∧ r.second = true)
    ∧ (∃ (id : Nat) (a : AtsReply) (s : State) (r : HostReq), s.vm.hostReqs.find? (fun r => r.id == id && !r.denied) = some r
      ∧ r.walk.kind = .store ∧ (r.write && a.write) = false ∧ r.second = false ∧ s.vm.hostReqs = [r] ∧ r.pri = false ∧ r.id = id)
    ∧ (∃ (id : Nat) (s : State) (r : HostReq), s.vm.hostReqs = [r] ∧ r.id = id ∧ r.pri = true ∧ r.denied = true)
    ∧ (∃ (pasid : Nat) (s : State), s.hostOutstanding pasid = false)
    ∧ (∃ (pasid : Nat) (s : State), s.hostOutstanding pasid = true) := by
  refine ⟨⟨1, ⟨0x5000, 16, true, true⟩, asked [hostReq 1 false false false], hostReq 1 false false false, ?_⟩,
    ⟨1, ⟨0x5000, 16, true, false⟩, asked [hostReq 1 false false true], hostReq 1 false false true, ?_⟩,
    ⟨1, ⟨0x5000, 16, true, false⟩, asked [hostReq 1 false false false], hostReq 1 false false false, ?_⟩,
    ⟨1, asked [hostReq 1 true true false], hostReq 1 true true false, ?_⟩, ⟨0, ready, ?_⟩, ⟨0, hostLoad, ?_⟩⟩
  all_goals decide +kernel

/-- INVCMD reads `v`, a load of context 0 in flight or not. -/
def invalidating (v : Word) (load : Bool) : State :=
  let s := if load then loading (.scalar 2 4) [⟨0, 0x30000, some (.dev 0x30000)⟩] else ready
  { s with vm := { s.vm with invcmd := v } }

theorem wit_InvalidationsAndAnswers :
    (∃ (s : State), s.vm.invcmd.getLsbD 31 = true ∧ s.invOutstanding = true)
    ∧ (∃ (s : State), s.vm.invcmd.getLsbD 31 = true ∧ s.invOutstanding = false)
    ∧ (∀ m, m < 3 → ∃ (v : Word) (s : State), s.vm.invcmd.getLsbD 31 = false ∧ v.getLsbD 31 = true ∧ v.toNat % 4 = m)
    ∧ (∃ (v : Word) (s : State), 2 ^ s.ras.fqLog < (s.ras.fqTail - v).toNat)
    ∧ (∃ (v : Word) (s : State), (s.ras.fqTail - v).toNat ≤ 2 ^ s.ras.fqLog ∧ s.ras.held = [] ∧ v ≠ s.ras.fqHead) := by
  refine ⟨⟨invalidating 0x80000001 true, ?_⟩, ⟨invalidating 0x80000001 false, ?_⟩, ?_, ⟨1, ready, ?_⟩,
    ⟨0xFFFFFFFF, ready, ?_⟩⟩
  case refine_3 =>
    intro m hm
    refine ⟨BitVec.ofNat 32 (2 ^ 31 + m), ready, ?_⟩
    match m, hm with
    | 0, _ => decide +kernel
    | 1, _ => decide +kernel
    | 2, _ => decide +kernel
  all_goals decide +kernel

/-! ### Regions and hotness -/

/-- Region 1's staged mapping, and its status. -/
def committing (r : RegionMap) (status : Nat) (loc : Option Loc) : State :=
  let s := loading (.scalar 2 4) [⟨0, 0x30000, loc⟩]
  { s with vm := { s.vm with regions := [(1, { AddrRegion.off with staged := r, next := r, active := codeMap, status := status })] } }

/-- A mapping of [base, limit) whose rows are all `row`. -/
def mapOf (base limit : Nat) (row : Word) : RegionMap := { base := base, limit := limit, rows := List.replicate 30 row, slots := [] }

theorem full_rows (base limit : Nat) (row : Word) : (mapOf base limit row).full.rows = List.replicate 30 row := by
  rfl

theorem rows_of (base limit : Nat) (row : Word) (status : Nat) (loc : Option Loc) :
    row ∈ ((committing (mapOf base limit row) status loc).region 1).staged.full.rows := by
  rw [show ((committing (mapOf base limit row) status loc).region 1).staged = mapOf base limit row from rfl, full_rows]
  exact List.mem_replicate.mpr ⟨by decide, rfl⟩

/-- One data layer mapped at [0, 2^30), the identity; another region has an identity of its own. -/
def oneLayer (name : Byte) : RegionMap := { codeMap with slots := name :: List.replicate 255 0xFF }
def besides (name other : Byte) : State :=
  { ready with vm := { ready.vm with regions := [(0, { AddrRegion.off with active := { oneLayer other with base := 2 ^ 30, limit := 2 ^ 31 } }),
                                                  (1, { AddrRegion.off with staged := oneLayer name })] } }

theorem layer_rows (name : Byte) : (oneLayer name).full.rows = codeMap.rows := rfl

theorem one_sound (name : Byte) :
    let r := ((besides name 0).region 1).staged.full
    ((besides name 0).region 1).status ≠ 1 ∧ LimitsOk r ∧ r.limit ≠ r.base ∧ (∀ w ∈ r.rows, w.toNat < 2 ^ 30)
      ∧ r.singular = false := by
  have e : ((besides name 0).region 1).staged = oneLayer name := rfl
  have l : (oneLayer name).full.limit = 2 ^ 30 ∧ (oneLayer name).full.base = 0 := ⟨rfl, rfl⟩
  have u : ((besides name 0).region 1).status = 0 := rfl
  have g : codeMap.singular = false := by decide +kernel
  rw [e]
  refine ⟨by rw [u]; decide, by rw [LimitsOk, l.1, l.2]; decide, by rw [l.1, l.2]; decide, ?_, ?_⟩
  · rw [layer_rows]
    intro w hw
    obtain ⟨i, hi, rfl⟩ := List.mem_map.mp hw
    rw [BitVec.toNat_ofNat]
    exact Nat.lt_of_le_of_lt (Nat.mod_le _ _) (Nat.pow_lt_pow_right (by decide) (List.mem_range.mp hi))
  · rw [RegionMap.singular, RegionMap.pivots, layer_rows]
    exact g

/-- Hotness is counted, with its ring at 0x40000. -/
def hotPart : State :=
  { ready with ck := 2000000, hot := { ready.hot with hotcfg := 0x800003E8, glowBase := 0x40000, counters := [(3, 7)] } }

theorem wit_RegionsCommit :
    (∃ (k : Nat) (s : State), k < 8 ∧ (s.region k).status ≠ 1 ∧ ¬LimitsOk (s.region k).staged.full)
    ∧ (∃ (k : Nat) (s : State), k < 8 ∧ (s.region k).status ≠ 1 ∧ LimitsOk (s.region k).staged.full
      ∧ (s.region k).staged.full.limit = (s.region k).staged.full.base)
    ∧ (∃ (k : Nat) (s : State), k < 8 ∧ (s.region k).status ≠ 1 ∧ LimitsOk (s.region k).staged.full
      ∧ (s.region k).staged.full.limit ≠ (s.region k).staged.full.base ∧ ∃ w ∈ (s.region k).staged.full.rows, 2 ^ 30 ≤ w.toNat)
    ∧ (∃ (k : Nat) (s : State), k < 8 ∧ (s.region k).status ≠ 1 ∧ LimitsOk (s.region k).staged.full
      ∧ (s.region k).staged.full.limit ≠ (s.region k).staged.full.base ∧ (∀ w ∈ (s.region k).staged.full.rows, w.toNat < 2 ^ 30)
      ∧ ∃ w ∈ (s.region k).staged.full.rows, w = 0)
    ∧ (∀ name : Byte,
        let r := ((besides name 0).region 1).staged.full
        ((besides name 0).region 1).status ≠ 1 ∧ LimitsOk r ∧ r.limit ≠ r.base ∧ (∀ w ∈ r.rows, w.toNat < 2 ^ 30)
          ∧ r.singular = false)
    ∧ (∃ q ∈ (besides 0 0).otherMaps 1, (oneLayer 0).full.overlaps q = true)
    ∧ ((oneLayer 0x0F).full.names.Nodup ∧ (∀ q ∈ (besides 0x0F 0).otherMaps 1, (oneLayer 0x0F).full.overlaps q = false)
      ∧ ∃ b ∈ (oneLayer 0x0F).full.names, b.toNat % 16 = 15)
    ∧ ((oneLayer 0x01).full.names.Nodup ∧ (∀ q ∈ (besides 0x01 0).otherMaps 1, (oneLayer 0x01).full.overlaps q = false)
      ∧ ∀ b ∈ (oneLayer 0x01).full.names, b.toNat / 16 < 12 ∧ b.toNat % 16 ≠ 15)
    ∧ (∃ (k : Nat) (s : State), k < 8 ∧ (s.region k).status = 1 ∧ s.inFlightWithin (s.region k).active = false)
    ∧ (∃ (k : Nat) (s : State), k < 8 ∧ (s.region k).status = 1 ∧ s.inFlightWithin (s.region k).active = true)
    ∧ (∃ (s : State), s.hot.hotcfg.getLsbD 31 = false)
    ∧ (∃ (s : State), s.hot.hotcfg.getLsbD 31 = true ∧ s.ck < s.hot.since + 2000 * (s.hot.hotcfg.toNat % 65536))
    ∧ (∃ (s : State), s.hot.hotcfg.getLsbD 31 = true ∧ s.hot.since + 2000 * (s.hot.hotcfg.toNat % 65536) ≤ s.ck ∧ s.hot.tables = []
      ∧ (∀ i, i < 64 → s.mapped (s.hot.glowBaseH.toNat * 2 ^ 32 + s.hot.glowBase.toNat / 4096 * 4096
          + 4096 * (s.hot.interval % 2) + i) = true) ∧ LlcCoherent s) := by
  refine ⟨⟨1, committing (mapOf 0 5 0) 0 none, ?_⟩, ⟨1, committing (mapOf (2 ^ 30) (2 ^ 30) 0) 2 none, ?_⟩,
    ⟨1, committing (mapOf 0 (2 ^ 40) 0x40000000) 0 none, ?_, ?_, ?_, ?_, 0x40000000, rows_of _ _ _ _ _, by decide⟩,
    ⟨1, committing (mapOf 0 (2 ^ 40) 0) 0 none, ?_, ?_, ?_, ?_, ?zero, 0, rows_of _ _ _ _ _, rfl⟩,
    one_sound, ?_, ?_, ?_, ⟨1, committing (mapOf 0 0 0) 1 none, ?_⟩, ⟨1, committing (mapOf 0 0 0) 1 (some (.dev 0x30000)), ?_⟩,
    ⟨ready, ?_⟩,
    ⟨{ hotPart with ck := 1999999 }, ?_⟩, ⟨hotPart, ?_, ?_, ?_, ?_, coherent_of_empty _ ?_⟩⟩
  case zero =>
    intro w hw
    rw [show ((committing (mapOf 0 (2 ^ 40) 0) 0 none).region 1).staged = mapOf 0 (2 ^ 40) 0 from rfl, full_rows] at hw
    rw [List.eq_of_mem_replicate hw]
    decide
  all_goals first
    | (unfold LimitsOk; decide +kernel)
    | decide +kernel

end Sys2Proof.Tests
end

