-- ==== Sys2Proof/Tests/WitnessFabric.lean ====
section
/-! SUPPORT. Witnesses: for each statement about the fabric's ports, pulls and membership, states and operands that meet the
hypotheses of its clauses together. -/

namespace Sys2Proof.Tests

set_option Elab.async false

open Sys2Proof Sys2Proof.Machine Sys2Proof.Claims

/-! ### Ports -/


/-- A flit, and the same with its CRC. -/
def flitNo (seq : Word) : Flit := { seq := seq, ack := 5, type := 2, cls := 0, gen := 0, crc := 0, payload := List.replicate 256 0 }

theorem crcBits_lt : ∀ n c, c < 2 ^ 32 → crcBits n c < 2 ^ 32
  | 0, _, h => h
  | n + 1, c, h => by
    unfold crcBits
    refine crcBits_lt n _ ?_
    split
    · exact Nat.xor_lt_two_pow (by omega) (by decide)
    · omega

theorem crc32_lt (bs : List Byte) : crc32 bs < 2 ^ 32 := by
  have h : ∀ (bs : List Byte) c, c < 2 ^ 32 → bs.foldl (fun c b => crcBits 8 (c ^^^ b.toNat)) c < 2 ^ 32 := by
    intro bs
    induction bs with
    | nil => exact fun _ h => h
    | cons b bs ih => exact fun c h => ih _ (crcBits_lt 8 _ (Nat.xor_lt_two_pow h (by have := b.isLt; omega)))
  exact Nat.xor_lt_two_pow (h bs _ (by decide)) (by decide)

theorem flitGood_sealed (f : Flit) (h : f.payload.length = 256) : flitGood (flitSealed f) = true := by
  have hc := crc32_lt (flitBody f)
  have hb : flitBody (flitSealed f) = flitBody f := rfl
  simp only [flitGood, hb, Bool.and_eq_true, decide_eq_true_eq]
  refine ⟨h, ?_⟩
  simp only [flitSealed, BitVec.toNat_ofNat]
  omega

/-- Port 0 in a state; flits 5 to 7 are in its replay buffer, and 5 is acknowledged or not; 9 was accepted last. -/
def ported (state : Nat) (acked : Word) (noProgress attempts : Nat) (lfail : BitVec 16) : State :=
  let p : Port := { Port.down with
    state := state, lastAcked := acked, lastAccepted := 9, noProgress := noProgress, attempts := attempts,
    lfail := lfail, replay := [flitNo 5, flitNo 6, flitNo 7], nextSeq := 8 }
  ({ ready with ck := 9000 } : State).setPort 0 p

theorem wit_FlitsTravel :
    (∃ (port : Nat) (f : Flit) (ok : Bool) (s : State), Carries s port ∧ ok = true ∧ flitGood f = true
      ∧ f.seq = (s.port port).lastAccepted + 1 ∧ (s.port port).advances f.ack = true)
    ∧ (∃ (port : Nat) (f : Flit) (ok : Bool) (s : State), Carries s port ∧ ok = true ∧ flitGood f = true
      ∧ f.seq = (s.port port).lastAccepted + 1 ∧ (s.port port).advances f.ack = false)
    ∧ (∃ (port : Nat) (f : Flit) (ok : Bool) (s : State), Carries s port
      ∧ ¬(ok = true ∧ flitGood f = true ∧ f.seq = (s.port port).lastAccepted + 1))
    ∧ (∃ (port : Nat) (last : Word) (s : State), Carries s port ∧ (s.port port).advances last = true)
    ∧ (∃ (port : Nat) (last : Word) (s : State), Carries s port ∧ (s.port port).advances last = false ∧ (s.port port).noProgress < 7)
    ∧ (∃ (port : Nat) (s : State), Carries s port ∧ (s.port port).noProgress < 7 ∧ (s.port port).replay ≠ []
      ∧ (s.port port).ackAt + 8000 ≤ s.ck)
    ∧ (∃ (port : Nat) (s : State), Carries s port ∧ 7 ≤ (s.port port).noProgress ∧ (s.port port).replay ≠ []
      ∧ (s.port port).ackAt + 8000 ≤ s.ck)
    ∧ (∃ (port : Nat) (s : State), (s.port port).state ≠ 2 ∧ (s.port port).state ≠ 3) := by
  refine ⟨⟨0, flitSealed (flitNo 10), true, ported 2 4 0 0 0, ?_, rfl, flitGood_sealed _ List.length_replicate, ?_, ?_⟩,
    ⟨0, flitSealed (flitNo 10), true, ported 3 5 0 0 0, ?_, rfl, flitGood_sealed _ List.length_replicate, ?_, ?_⟩,
    ⟨0, flitNo 11, true, ported 2 4 0 0 0, ?_, fun h => absurd h.2.2 (by decide +kernel)⟩, ⟨0, 6, ported 2 4 0 0 0, ?_⟩, ⟨0, 4, ported 2 4 6 0 0, ?_⟩,
    ⟨0, ported 2 4 6 0 0, ?_⟩, ⟨0, ported 2 4 7 0 0, ?_⟩, ⟨0, ported 1 4 0 0 0, ?_⟩⟩
  all_goals decide +kernel

theorem wit_PortsTrain :
    (∃ (port : Nat) (s : State), port < 16 ∧ (s.port port).state = 0) ∧ (∃ (port : Nat) (s : State), port < 16 ∧ (s.port port).state ≠ 0)
    ∧ (∃ (port : Nat) (s : State), (s.port port).state = 3) ∧ (∃ (port : Nat) (s : State), (s.port port).state ≠ 3)
    ∧ (∃ (port : Nat) (pass : BitVec 16) (s : State), (s.port port).state = 1 ∧ pass = 0xFFFF)
    ∧ (∃ (port : Nat) (pass : BitVec 16) (s : State), (s.port port).state = 1 ∧ pass ≠ 0xFFFF ∧ HalfGood (~~~pass) true)
    ∧ (∃ (port : Nat) (pass : BitVec 16) (s : State), (s.port port).state = 1 ∧ ¬HalfGood (~~~pass) true ∧ HalfGood (~~~pass) false)
    ∧ (∃ (port : Nat) (pass : BitVec 16) (s : State), (s.port port).state = 1 ∧ ¬HalfGood (~~~pass) true ∧ ¬HalfGood (~~~pass) false
      ∧ (s.port port).attempts < 2)
    ∧ (∃ (port : Nat) (pass : BitVec 16) (s : State), (s.port port).state = 1 ∧ ¬HalfGood (~~~pass) true ∧ ¬HalfGood (~~~pass) false
      ∧ 2 ≤ (s.port port).attempts)
    ∧ (∃ (port lane : Nat) (s : State), port < 16 ∧ lane < 16 ∧ (s.port port).state = 2
      ∧ HalfGood ((s.port port).lfail ||| BitVec.ofNat 16 (2 ^ lane)) true)
    ∧ (∃ (port lane : Nat) (s : State), port < 16 ∧ lane < 16 ∧ (s.port port).state = 2
      ∧ ¬HalfGood ((s.port port).lfail ||| BitVec.ofNat 16 (2 ^ lane)) true
      ∧ HalfGood ((s.port port).lfail ||| BitVec.ofNat 16 (2 ^ lane)) false)
    ∧ (∃ (port lane : Nat) (s : State), port < 16 ∧ lane < 16 ∧ (s.port port).state = 2
      ∧ ¬HalfGood ((s.port port).lfail ||| BitVec.ofNat 16 (2 ^ lane)) true
      ∧ ¬HalfGood ((s.port port).lfail ||| BitVec.ofNat 16 (2 ^ lane)) false) := by
  refine ⟨⟨15, ready, ?_⟩, ⟨0, ported 2 4 0 0 0, ?_⟩, ⟨0, ported 3 4 0 0 0, ?_⟩, ⟨0, ported 2 4 0 0 0, ?_⟩,
    ⟨0, 0xFFFF, ported 1 4 0 0 0, ?_⟩, ⟨0, 0xFF00, ported 1 4 0 0 0, ?_⟩, ⟨0, 0x7FFF, ported 1 4 0 0 0, ?_⟩,
    ⟨0, 0x7F7F, ported 1 4 0 1 0, ?_⟩, ⟨0, 0x7F7F, ported 1 4 0 2 0, ?_⟩,
    ⟨0, 7, ported 2 4 0 0 0, ?_⟩, ⟨0, 15, ported 2 4 0 0 0, ?_⟩, ⟨0, 0, ported 2 4 0 0 0x8000, ?_⟩⟩
  all_goals decide +kernel

/-! ### Pulls -/

/-- A pull of one source; its command names root 7 in region 0, cell 16, depth `depth`. -/
def pull1 (running : Bool) (depth : Byte) (todo : List (LineName × Nat)) (got : List (LineName × Bool × List Byte)) : Pull :=
  { addr := 0x30000, cmd := record 64 [(0, 7), (17, depth), (18, 1), (20, 16)], running := running, todo := todo, got := got,
    made := [], j := 0, tries := 0, badHash := false, badKind := false }

/-- Pulls wait; region 0 serves; `es` are its lines, and `m` is memory. -/
def pulling (ps : List Pull) (es : List DirEntry) (m : Memory) : State :=
  let s := linked 0 0 []
  { s with
    mem := m,
    dir := { s.dir with
      pulls := ps, entries := es, lineBase := 0x200000, lineCount := 16,
      regions := [(0, { salt := 0, rootVa := 0x30000, rootSize := 4096, ctx := 0, flags := 3, quota := 0, live := es.length })] } }

theorem pullHas (p : Pull) (es : List DirEntry) (m : Memory) (todo : List (LineName × Nat)) (h : p.running = true ∧ p.todo = todo) :
    PullHas (pulling [p] es m) p [] todo := ⟨rfl, h.1, h.2⟩

theorem xlat_at {s : State} {q : Asker} {va : Nat} {k : Access} {l : Loc} (h : s.lookup q va k = .hit l) :
    s.engineXlat q va k = (s, .at_ l) := by
  simp only [State.engineXlat, h]

theorem wit_PullsRun :
    (∃ (a : Nat) (s : State), s.dir.pulls.length < 16 ∧ a % 64 = 0) ∧ (∃ (s : State), 16 ≤ s.dir.pulls.length)
    ∧ (∃ (s : State) (p : Pull) (rest : List Pull), s.dir.pulls = p :: rest ∧ p.running = false
      ∧ (∀ i, i < 64 → s.mapped (p.addr + i) = true) ∧ s.ras.poison = [] ∧ LlcCoherent s ∧ Settled s
      ∧ 7 < fieldAt (s.devBytes p.addr 64) 17 1 ∧ fieldAt (s.devBytes p.addr 64) 56 8 ≠ 0
      ∧ fieldAt (s.devBytes p.addr 64) 56 8 % 8 = 0 ∧ s.mapped (fieldAt (s.devBytes p.addr 64) 56 8) = true)
    ∧ (∃ (s : State) (p : Pull) (name : LineName) (bs : List Byte), PullHas s p [] [(name, 0)] ∧ BytesNamed s p name bs)
    ∧ (∃ (s : State) (p : Pull) (name : LineName) (level : Nat) (more : List (LineName × Nat)), PullHas s p [] ((name, level) :: more)
      ∧ p.tries + 1 = p.sources)
    ∧ (∃ (s : State) (p : Pull) (name : LineName) (bs : List Byte) (more : List (LineName × Bool × List Byte)) (e : DirEntry),
      PullHas s p [] [] ∧ p.got = (name, false, bs) :: more ∧ s.reclaimed.dir.entry name = some e ∧ e.region = p.region ∧ e.node = false
      ∧ e.pending = none ∧ e.count + 1 < 0xFFFFFFFF ∧ s.reclaimed.holdsLine e bs = true)
    ∧ (∃ (s : State) (p : Pull) (name : LineName) (bs : List Byte) (more : List (LineName × Bool × List Byte)) (slot : Nat),
      PullHas s p [] [] ∧ p.got = (name, false, bs) :: more ∧ s.reclaimed.dir.entry name = none ∧ bs.length = 256
      ∧ s.reclaimed.dir.freeSlot = some slot ∧ (s.reclaimed.lineRegion p.region).quota = 0 ∧ LlcCoherent s.reclaimed ∧ Settled s
      ∧ (s.reclaimed.dir.entries.filter (fun e => s.reclaimed.dir.bucket e.name == s.reclaimed.dir.bucket name)).length < 8)
    ∧ (∃ (s : State) (p : Pull) (pa : Nat), PullHas s p [] [] ∧ p.got = [] ∧ p.statA = 0 ∧ s.ras.poison = [] ∧ LlcCoherent s
      ∧ s.engineXlat (s.engineAsker (.pull p.addr) 0 (s.lineRegion p.region).ctx none) ((s.lineRegion p.region).rootVa + p.cell) .store
        = (s, .at_ (.dev pa))
      ∧ bytesNat (s.devBytes pa 16) = 0)
    ∧ (∃ (src : Word) (name : LineName) (k : Nat) (s : State), s.member.state = 2 ∧ s.member.inDomain (podOf src) = true
      ∧ Leaves s src 0 ∧ s.ras.poison = [] ∧ (s.lineRegion k).serves = true ∧ (s.dir.knownIn k name).isSome = true)
    ∧ (∃ (src : Word) (name : LineName) (k : Nat) (s : State), s.member.state = 2 ∧ s.member.inDomain (podOf src) = true
      ∧ Leaves s src 0 ∧ s.ras.poison = [] ∧ s.dir.knownIn k name = none) := by
  refine ⟨⟨64, ready, ?_⟩, ⟨pulling (List.replicate 16 (pull1 false 0 [] [])) [] [], ?_⟩,
    ⟨pulling [pull1 false 0 [] []] [] [(0x30011, 8), (0x3003A, 4)], pull1 false 0 [] [], [], rfl, rfl, ?_, ?_, coherent_of_empty _ ?_,
      ?_, ?_, ?_, ?_, ?_⟩,
    ⟨pulling [pull1 true 0 [(zeroName, 0)] []] [] [], pull1 true 0 [(zeroName, 0)] [], zeroName, List.replicate 256 0,
      pullHas _ _ _ _ ⟨rfl, rfl⟩, List.length_replicate, ?_⟩,
    ⟨pulling [pull1 true 0 [(7, 0)] []] [] [], pull1 true 0 [(7, 0)] [], 7, 0, [], pullHas _ _ _ _ ⟨rfl, rfl⟩, ?_⟩,
    ⟨pulling [pull1 true 0 [] [(5, false, List.replicate 256 0)]] [lineNamed 5 false 1] [], pull1 true 0 [] [(5, false, List.replicate 256 0)],
      5, List.replicate 256 0, [], lineNamed 5 false 1, pullHas _ _ _ _ ⟨rfl, rfl⟩, rfl, ?_, ?_, ?_, ?_, ?_, ?_⟩,
    ⟨pulling [pull1 true 0 [] [(6, false, List.replicate 256 1)]] [lineNamed 5 false 1] [], pull1 true 0 [] [(6, false, List.replicate 256 1)],
      6, List.replicate 256 1, [], 0, pullHas _ _ _ _ ⟨rfl, rfl⟩, rfl, ?_, List.length_replicate, ?_, ?_, coherent_of_empty _ ?_, ?_⟩,
    ⟨pulling [pull1 true 0 [] []] [] [], pull1 true 0 [] [], 0x30010, pullHas _ _ _ _ ⟨rfl, rfl⟩, rfl, ?_, ?_, coherent_of_empty _ ?_, xlat_at ?_, ?_⟩,
    ⟨1, 5, 0, pulling [] [lineNamed 5 false 1] [], ?_⟩, ⟨1, 6, 0, pulling [] [lineNamed 5 false 1] [], ?_⟩⟩
  all_goals decide +kernel

/-! ### Membership -/

/-- A part of device `dev`, of state `st`, with the engine on; the arbiter is 0 and the standby 1; `rs` are reports. -/
def member (dev : Word) (st : Nat) (gen : BitVec 64) (vacant : List Word) (rs : List (Word × Word)) : State :=
  let s := linked 0 0 vacant
  { s with
    member := { s.member with devId := dev, homeId := 0x00101000, state := st, gen := gen, arb := 0, stby := 1, flags := 1, reports := rs },
    coll := { s.coll with comms := [(3, comm3 false)] }, mem := [(0x20000, 1), (0x20004, 2)] }

/-- Direction 0's monitor. -/
def watching (m : Monitor) (heard : Bool) : State :=
  let s := member 2 2 4 [] []
  { s.setMonitor 0 { state := m, heard := heard, since := 4, window := 1 } with ck := 80000 }

theorem wit_NeighboursWatched :
    (∃ (s : State), IsMember s ∧ s.member.beaconAt < s.ck / 40000) ∧ (∃ (s : State), ¬IsMember s)
    ∧ (∃ (dir : Nat) (src : Word) (gen : BitVec 64) (s : State), s.member.flags % 2 = 1 ∧ dir < 6 ∧ (s.port (2 * dir)).isUp = true
      ∧ neighbour s.member.devId dir = src ∧ gen.toNat ≤ s.member.gen.toNat)
    ∧ (∃ (dir : Nat) (src : Word) (gen : BitVec 64) (s : State), s.member.flags % 2 = 1 ∧ dir < 6 ∧ (s.port (2 * dir)).isUp = true
      ∧ neighbour s.member.devId dir = src ∧ s.member.gen.toNat < gen.toNat ∧ Leaves s (arbiterOf s) 0)
    ∧ (∃ (dir : Nat) (s : State) (m : Monitor), s.member.flags % 2 = 1 ∧ isSpare s.member.devId = false ∧ dir < 6 ∧ (s.monitor dir).window < s.ck / 40000
      ∧ monitorRule (s.monitor dir) = some m)
    ∧ (∃ (dir : Nat) (s : State), s.member.flags % 2 = 1 ∧ isSpare s.member.devId = false ∧ dir < 6 ∧ (s.monitor dir).window < s.ck / 40000
      ∧ (s.monitor dir).state = .miss2 ∧ (s.monitor dir).heard = false
      ∧ arbiterOf s ≠ s.member.devId ∧ neighbour s.member.devId dir ≠ s.member.arb ∧ Leaves s (arbiterOf s) 0)
    ∧ (∃ (dir : Nat) (s : State), s.member.flags % 2 = 1 ∧ isSpare s.member.devId = false ∧ dir < 6 ∧ (s.monitor dir).window < s.ck / 40000
      ∧ (s.monitor dir).state = .suspect ∧ (s.monitor dir).heard = true
      ∧ arbiterOf s ≠ s.member.devId ∧ neighbour s.member.devId dir ≠ s.member.arb ∧ Leaves s (arbiterOf s) 0)
    ∧ (∃ (dir : Nat) (s : State), s.member.flags % 2 = 1 ∧ isSpare s.member.devId = false ∧ dir < 6 ∧ (s.monitor dir).window < s.ck / 40000
      ∧ (s.monitor dir).state = .vacant)
    ∧ (∃ (dir : Nat) (s : State), s.member.flags % 2 = 1 ∧ isSpare s.member.devId = false ∧ dir < 6 ∧ (s.monitor dir).window < s.ck / 40000
      ∧ (s.monitor dir).state = .suspect ∧ (s.monitor dir).heard = false ∧ 4 ≤ (s.monitor dir).since
      ∧ arbiterOf s ≠ s.member.devId ∧ neighbour s.member.devId dir ≠ s.member.arb ∧ Leaves s (arbiterOf s) 0)
    ∧ (∃ (dir : Nat) (s : State), s.member.flags % 2 = 1 ∧ isSpare s.member.devId = false ∧ dir < 6 ∧ (s.monitor dir).window < s.ck / 40000
      ∧ (s.monitor dir).state = .idle) := by
  refine ⟨⟨watching .live true, ?_⟩, ⟨member 2 1 4 [] [], ?_⟩, ⟨0, neighbour 2 0, 4, member 2 2 4 [] [], ?_⟩,
    ⟨0, neighbour 2 0, 5, member 2 2 4 [] [], ?_⟩, ⟨0, watching .miss1 false, .miss2, ?_⟩, ⟨0, watching .miss2 false, ?_⟩,
    ⟨0, watching .suspect true, ?_⟩, ⟨0, watching .vacant true, ?_⟩,
    ⟨0, watching .suspect false, ?_⟩, ⟨0, watching .idle false, ?_⟩⟩
  all_goals decide +kernel

theorem wit_MembersExpelled :
    (∃ (r named : Word) (s : State), Judges s named ∧ s.member.isMember named = true ∧ (∃ d, d < 6 ∧ neighbour named d = r)
      ∧ ∀ e ∈ s.member.reports, e.2 ≠ named)
    ∧ (∃ (r named : Word) (s : State), Judges s named ∧ s.member.isMember named = true ∧ (∃ d, d < 6 ∧ neighbour named d = r)
      ∧ ∃ q, q ≠ r ∧ (q, named) ∈ s.member.reports)
    ∧ (∃ (named : Word) (s : State), ¬Judges s named) ∧ (∃ (named : Word) (s : State), Judges s named)
    ∧ (∃ (gen : BitVec 64) (s : State), s.member.flags % 2 = 1 ∧ gen.toNat ≤ s.member.gen.toNat)
    ∧ (∃ (gen : BitVec 64) (dev : Word) (s : State), s.member.flags % 2 = 1 ∧ s.member.gen.toNat < gen.toNat
      ∧ ∃ tb, (s.comm 3).active = some tb ∧ dev ∈ s.tableIds tb)
    ∧ (∃ (gen : BitVec 64) (s : State), s.member.flags % 2 = 1 ∧ s.member.gen.toNat < gen.toNat ∧ s.member.devId = 2)
    ∧ (∃ (dev : Word) (s : State), IsMember s ∧ arbiterOf s = s.member.devId ∧ Leaves s dev 0)
    ∧ (∃ (s : State), arbiterOf s ≠ s.member.devId) := by
  refine ⟨⟨neighbour 2 3, 2, member 0 2 4 [] [(1, 3)], ?_, ?_, ⟨3, ?_⟩, fun e he => by cases List.mem_singleton.mp he; decide⟩,
    ⟨neighbour 2 3, 2, member 0 2 4 [] [(neighbour 2 1, 2)], ?_, ?_, ⟨3, ?_⟩, neighbour 2 1, ?_, ?_⟩, ⟨0, member 0 2 4 [] [], ?_⟩, ⟨0, member 1 2 4 [] [], ?_⟩,
    ⟨4, member 0 2 4 [] [], ?_⟩, ⟨5, 2, member 0 2 4 [] [], ?_, ?_, { RankTable.off with p := 2, base := 0x20000, valid := true }, ?_, ?_⟩,
    ⟨5, member 2 2 4 [] [], ?_⟩, ⟨2, member 0 2 4 [] [], ?_⟩, ⟨member 2 2 4 [] [], ?_⟩⟩
  all_goals decide +kernel

/-- A group with this SECPOL, at this time, where the risk is 9 and the last securing took no
whole microsecond, so that IVAL is 0 (R432). -/
def atRisk (pol : Word) (now : Nat) : State :=
  let s := withMe (fun x => { x with csr := { x.csr with secpol := pol } })
  { s with ck := now, member := { s.member with risk := 9, secured := some 0 } }

theorem wit_PilotsAdopted :
    (∃ (v : Word) (s : State), v.getLsbD 31 = true ∧ s.member.state = 0 ∧ v.toNat % 2 ^ 13 < 4096)
    ∧ (∃ (v : Word) (s : State), s.member.state = 0 ∧ v.getLsbD 31 = true ∧ 4096 ≤ v.toNat % 2 ^ 13)
    ∧ (∃ (dev : Word) (s : State), IsMember s ∧ arbiterOf s = s.member.devId ∧ Leaves s dev 0 ∧ dev ∈ s.member.vacant)
    ∧ (∃ (dev : Word) (s : State), IsMember s ∧ arbiterOf s = s.member.devId ∧ Leaves s dev 0 ∧ dev ∉ s.member.vacant)
    ∧ (∃ (gen : BitVec 64) (s : State), s.member.state = 1 ∧ s.member.gen.toNat ≤ gen.toNat) ∧ (∃ (s : State), s.member.state ≠ 1)
    ∧ (∃ (s : State), s.member.state = 1 ∧ s.member.adoptAt + 2000000000 ≤ s.ck ∧ ∀ p, p < 12 → (s.port p).everUp = false)
    ∧ (∃ (dev : Word) (s : State), s.member.flags % 2 = 1 ∧ ∃ d, d < 6 ∧ neighbour s.member.devId d = dev)
    ∧ (∃ (g : Nat) (s : State), (s.group g).resident = true ∧ (s.group g).secAt < s.ck / 2000
      ∧ (s.group g).csr.secpol.getLsbD 2 = false
      ∧ (s.group g).csr.secpol.toNat % 2 = 1 ∧ (s.group g).csr.secpol.toNat / 2 ^ 16 ≤ s.member.risk.toNat)
    ∧ (∃ (g : Nat) (s : State), (s.group g).resident = true ∧ (s.group g).secAt < s.ck / 2000
      ∧ (s.group g).csr.secpol.getLsbD 2 = false
      ∧ (s.group g).csr.secpol.toNat / 2 % 2 = 1 ∧ (s.group g).rateFrom + s.member.interval * 2000 ≤ s.ck)
    ∧ (∃ (g : Nat) (s : State), (s.group g).resident = true ∧ (s.group g).secAt < s.ck / 2000
      ∧ (s.group g).csr.secpol.toNat % 2 = 1 ∧ s.member.risk.toNat < (s.group g).csr.secpol.toNat / 2 ^ 16
      ∧ (s.group g).csr.secpol.toNat / 2 % 2 = 0) := by
  refine ⟨⟨0x80010002, member 0x00101000 0 4 [] [], ?_⟩, ⟨0x80011002, member 0x00101000 0 4 [] [], ?_⟩, ⟨2, member 0 2 4 [2] [], ?_⟩,
    ⟨2, member 0 2 4 [] [], ?_⟩, ⟨6, member 2 1 4 [] [], ?_⟩, ⟨ready, ?_⟩,
    ⟨{ member 2 1 4 [] [] with ck := 2000000000 }, ?_⟩, ⟨neighbour 2 5, member 2 2 4 [] [], ?_, 5, ?_⟩,
    ⟨0, atRisk 0x00090001 2000, ?_⟩, ⟨0, atRisk 0x00000002 2000, ?_⟩, ⟨0, atRisk 0x000A0001 2000, ?_⟩⟩
  all_goals decide +kernel

end Sys2Proof.Tests
end

