-- ==== Sys2Proof/Tests/WitnessHost.lean ====
section
/-! SUPPORT. Witnesses: for each statement about errors, starts, the host's accesses, encodings and steps, states and operands
that meet the hypotheses of its clauses together. -/

namespace Sys2Proof.Tests

set_option Elab.async false

open Sys2Proof Sys2Proof.Machine Sys2Proof.Claims

/-! ### Errors -/

/-- A running launch of context 0, and sector 192 of owner `owner` in the LLC with these dirty lines. -/
def cached (dirty : Word) (owner : Nat) : State :=
  let s := { ready with sched := { ready.sched with launches := [launch0] } }
  { s with llc := { s.llc with
      sectors := [(192, { way := 3, col := false, valid := 1, dirty := dirty, bytes := [], owner := owner, stream := 0, axes := [],
                          used := 0, firstOut := false })] } }

def llcError (retryOk : Bool) : LlcError :=
  { pa := 0x30000, line := 0, retryOk := retryOk, patternOk := true, tag := false, readable := 0xFFFF, synd := 5 }

/-- Retire table entry 9 names page 3, where a byte is not zero and a sector is poisoned; `ls` are launches. -/
def retiredPart (ls : List Launch) : State :=
  { ready with mem := [(0x30005, 7), (0x40000, 1)], sched := { ready.sched with launches := ls },
               ras := { ready.ras with retire := [(9, 0x80000003)], poison := [192] } }

theorem wit_ErrorsHandled :
    (∃ (e : ErrSite), e.unit ∈ [1, 2, 3, 4, 5, 6, 7, 8, 10, 12])
    ∧ (∃ (e : HbmError) (s : State), (s.place e.pa).isSome = true ∧ 1 ≤ e.unit ∧ e.unit ≤ 3 ∧ RecordsWhole s
      ∧ (if e.unit = 3 then e.failed < 4 else e.failed = 0))
    ∧ (∃ (e : HbmError) (s : State), (s.place e.pa).isSome = true ∧ 1 ≤ e.unit ∧ e.unit ≤ 3 ∧ RecordsWhole s
      ∧ ¬(if e.unit = 3 then e.failed < 4 else e.failed = 0)
      ∧ (∃ j, j < 1024 ∧ (Sparse.get 0 s.ras.retire j).getLsbD 31 = false) ∧ e.pa < 2 ^ 40)
    ∧ (∃ (e : LlcError) (s : State), (s.sector? (e.pa / 1024)).isSome = true ∧ RecordsWhole s ∧ e.retryOk = true)
    ∧ (∃ (e : LlcError) (s : State) (x : Sector), s.sector? (e.pa / 1024) = some x ∧ e.retryOk = false ∧ e.tag = false
      ∧ RecordsWhole s ∧ x.dirty = 0 ∧ s.ras.fqOk = false)
    ∧ (∃ (e : LlcError) (s : State) (x : Sector), s.sector? (e.pa / 1024) = some x ∧ e.retryOk = false ∧ e.tag = false
      ∧ RecordsWhole s ∧ x.dirty ≠ 0 ∧ x.owner ≠ 0)
    ∧ (∃ (e : PoolError), e.unit ∈ [6, 7, 8, 10] ∧ coreOf e.g = e.core ∧ e.retryOk = true)
    ∧ (∃ (e : PoolError) (s : State), e.unit ∈ [6, 7, 8, 10] ∧ coreOf e.g = e.core ∧ e.retryOk = false ∧ e.unit ≠ 8 ∧ e.record = none
      ∧ (s.group e.g).resident = true)
    ∧ (∃ (e : PoolError) (s : State) (g : Nat), e.unit ∈ [6, 7, 8, 10] ∧ coreOf e.g = e.core ∧ e.retryOk = false ∧ e.unit = 8
      ∧ (s.core e.core).flame = some g ∧ (s.group g).resident = true)
    ∧ (∃ (e : PoolError) (s : State), e.unit ∈ [6, 7, 8, 10] ∧ coreOf e.g = e.core ∧ s.wordUser e = none)
    ∧ (∃ (j : Nat) (s : State), (∀ l ∈ s.sched.launches, l.status ≠ none) ∧ (Sparse.get 0 s.ras.retire j).getLsbD 31 = true)
    ∧ (∃ (s : State), ∃ l ∈ s.sched.launches, l.status = none) := by
  refine ⟨⟨{ unit := 12, loc := 0, ctx := 0, pa := 0, synd := 0, retryOk := false }, ?_⟩,
    ⟨{ pa := 0x30000, unit := 3, failed := 3, synd := 0 }, ready, ?_, ?_, ?_, ?_, ?_⟩,
    ⟨{ pa := 0x30000, unit := 1, failed := 1, synd := 0 }, ready, ?_, ?_, ?_, ?_, ?_, ⟨1023, ?_⟩, ?_⟩,
    ⟨llcError true, cached 1 0, ?_, ?_, ?_⟩, ⟨llcError false, cached 0 0, _, rfl, ?_, ?_, ?_, ?_, ?_⟩,
    ⟨llcError false, cached 1 5, _, rfl, ?_, ?_, ?_, ?_, ?_⟩,
    ⟨{ core := 0, unit := 6, g := 0, record := none, retryOk := true, synd := 0 }, ?_⟩,
    ⟨{ core := 0, unit := 10, g := 0, record := none, retryOk := false, synd := 0 }, ready, ?_⟩,
    ⟨{ core := 0, unit := 8, g := 1, record := none, retryOk := false, synd := 0 },
      ready.setCore 0 { ready.core 0 with flame := some 0 }, 0, ?_⟩,
    ⟨{ core := 0, unit := 8, g := 1, record := none, retryOk := false, synd := 0 }, ready, ?_⟩,
    ⟨9, retiredPart [{ launch0 with status := some 0 }], ?_⟩, ⟨retiredPart [launch0], ?_⟩⟩
  all_goals first
    | (unfold RecordsWhole; decide +kernel)
    | decide +kernel

/-! ### Starts -/

/-- A part in a stage; `img` stands in the firmware load window. -/
def staged (stage : Nat) (warm : Bool) (img : Sparse Byte) (ls : List Launch) : State :=
  { ready with boot := { ready.boot with stage := stage, warm := warm }, host := { ready.host with image := img },
               sched := { ready.sched with launches := ls } }

/-- The header of an image of 512 bytes of security version 2^32 - 1 under key 0, and a signature. -/
def imageHeader : Sparse Byte :=
  [(0, 0x53), (1, 0x56), (2, 0x46), (3, 0x57), (8, 0xFF), (9, 0xFF), (10, 0xFF), (11, 0xFF), (13, 2)]

theorem get_append (d : Byte) (k : Nat) (sig : Sparse Byte) (h : ∀ e ∈ sig, e.1 ≠ k) :
    ∀ hdr : Sparse Byte, Sparse.get d (hdr ++ sig) k = Sparse.get d hdr k
  | [] => by
    induction sig with
    | nil => rfl
    | cons e sig ih =>
      have h1 : k ≠ e.1 := fun x => h e List.mem_cons_self x.symm
      have h2 := ih (fun e he => h e (List.mem_cons_of_mem _ he))
      simp only [List.nil_append, Sparse.get] at h2 ⊢
      rw [if_neg h1]
      exact h2
  | (i, v) :: rest => by
    simp only [List.cons_append, Sparse.get, get_append d k sig h rest]

/-- The header's fields do not depend on the signature. -/
theorem field_header (sig : Sparse Byte) (h : ∀ e ∈ sig, 124 ≤ e.1) (o n : Nat) (hn : o + n ≤ 124) :
    (staged 1 false (imageHeader ++ sig) []).imageField o n = (staged 1 false imageHeader []).imageField o n := by
  have hb : (span o n).map (fun a => Sparse.get 0 (imageHeader ++ sig) a) = (span o n).map (fun a => Sparse.get (0 : Byte) imageHeader a) := by
    apply List.map_congr_left
    intro a ha
    have ha : a < 124 := by
      simp only [span, List.mem_map, List.mem_range] at ha
      omega
    exact get_append 0 a sig (fun e he x => by have := h e he; omega) imageHeader
  exact congrArg bytesNat hb

/-- An image whose signature verifies under key 0, where that key is not revoked: it passes every check. -/
theorem wit_image (sig : Sparse Byte) (h : ∀ e ∈ sig, 124 ≤ e.1) (hr : Config.revokedKeys.getLsbD 0 = false)
    (hv : Config.fusedSvn ≤ 0xFFFFFFFF) :
    let s := staged 1 false (imageHeader ++ sig) []
    verify521 (beNat (sha512 s.imageMessage)) (beNat (s.imageBytes 124 66)) (beNat (s.imageBytes 190 66))
      (Config.bootKeyX 0, Config.bootKeyY 0) = true →
    s.boot.stage = 1 ∧ s.imageCode = none := by
  intro s hs
  have f : ∀ o n, o + n ≤ 124 → s.imageField o n = (staged 1 false imageHeader []).imageField o n := field_header sig h
  have f0 : s.imageField 0 4 = 0x57465653 := by rw [f 0 4 (by decide)]; decide +kernel
  have f8 : s.imageField 8 4 = 0xFFFFFFFF := by rw [f 8 4 (by decide)]; decide +kernel
  have f12 : s.imageField 12 4 = 512 := by rw [f 12 4 (by decide)]; decide +kernel
  have f16 : s.imageField 16 4 = 0 := by rw [f 16 4 (by decide)]; decide +kernel
  have f20 : s.imageField 20 104 = 0 := by rw [f 20 104 (by decide)]; decide +kernel
  refine ⟨rfl, ?_⟩
  simp only [State.imageCode, f0, f8, f12, f16, f20, hr, hs]
  simp only [ne_eq, not_true_eq_false, if_false, Bool.not_true, Bool.false_eq_true]
  rw [if_neg (by decide), if_neg (by decide), if_neg (by omega)]

theorem wit_StartsRun :
    (∃ (s : State), s.boot.stage = 1 ∧ s.imageField 0 4 ≠ 0x57465653)
    ∧ (∃ (s : State), s.boot.stage = 1 ∧ s.imageField 0 4 = 0x57465653 ∧ s.imageField 12 4 % 256 ≠ 0)
    ∧ (∃ (s : State), s.boot.stage ≠ 1) ∧ (∃ (s : State), s.boot.stage = 3) ∧ (∃ (s : State), s.boot.stage = 4)
    ∧ (∃ (s : State), s.boot.stage = 5 ∧ s.boot.warm = false)
    ∧ (∃ (s : State), s.boot.stage = 5 ∧ s.boot.warm = true ∧ LlcCoherent s)
    ∧ (∃ (s : State), s.boot.stage = 6 ∧ ∀ l ∈ s.sched.launches, l.status ≠ none)
    ∧ (∃ (s : State) (l : Launch), l ∈ s.sched.launches ∧ l.status = none ∧ s.preemptState l.ctx < 2) := by
  refine ⟨⟨staged 1 false [] [], ?_⟩, ⟨staged 1 false [(0, 0x53), (1, 0x56), (2, 0x46), (3, 0x57), (12, 1)] [], ?_⟩, ⟨staged 3 false [] [], ?_⟩,
    ⟨staged 3 false [] [], ?_⟩, ⟨staged 4 false [] [], ?_⟩, ⟨staged 5 false [] [], ?_⟩,
    ⟨staged 5 true [] [], ?_, ?_, coherent_of_empty _ ?_⟩, ⟨staged 6 false [] [{ launch0 with status := some 0 }], ?_⟩,
    ⟨staged 6 false [] [launch0], launch0, ?_⟩⟩
  all_goals decide +kernel

theorem wit_PowerAndClocks :
    (∃ (nonce : List Byte) (s : State), nonce.length = 32 ∧ s.boot.imageHash.length = 64)
    ∧ (∃ (w : Nat) (s : State), s.boot.pwrlim < w) ∧ (∃ (w : Nat) (s : State), w < s.boot.pwrlim)
    ∧ (∃ (d : Nat) (s : State), d ≤ 5 ∧ s.boot.stage ≠ 8) := by
  refine ⟨⟨List.replicate 32 0, { ready with boot := { ready.boot with imageHash := List.replicate 64 0 } }, List.length_replicate,
    List.length_replicate⟩, ⟨_, ready, Nat.lt_succ_self _⟩, ⟨0, { ready with boot := { ready.boot with pwrlim := 1000 } }, ?_⟩, ⟨5, ready, ?_⟩⟩
  all_goals decide +kernel

/-! ### The host's accesses -/

/-- Context 4095's entry of the context table. -/
def tabled4095 (root flags : Nat) : State := { ready with host := { ready.host with contexts := [(4095, ⟨root, 0, 0, flags⟩)] } }

theorem wit_HostAccesses :
    (∃ (a n : Nat) (s : State), n = 2 ∧ (∀ i, i < n → s.mapped (a + i) = true ∧ s.settling (a + i) = false) ∧ s.ras.poison = []
      ∧ s.llc.discards = [] ∧ LlcCoherent s)
    ∧ (∃ (a n : Nat) (s : State), (∀ i, s.settling i = false) ∧ 0 < n ∧ s.mapped a = false)
    ∧ (∃ (ctx : Nat) (s : State), ctx < 4096 ∧ (s.ctxEntry ctx).flags % 2 = 0 ∧ (s.ctxEntry ctx).root % 2 ^ 21 = 0
      ∧ (s.ctxEntry ctx).root < 2 ^ 40)
    ∧ (∃ (ctx : Nat) (s : State), ctx < 4096 ∧ (s.ctxEntry ctx).flags % 2 = 0 ∧ (s.ctxEntry ctx).root % 2 ^ 21 ≠ 0)
    ∧ (∃ (ctx : Nat) (s : State), ctx < 4096 ∧ (s.ctxEntry ctx).flags % 2 = 1)
    ∧ (∃ (o : Nat), o % 4 ≠ 0) ∧ (∃ (k : Nat), k < 8)
    ∧ (∃ (v : Word) (s : State), v.getLsbD 30 = false ∧ s.commandBusy = false) := by
  refine ⟨⟨0x3FFFFFFE, 2, ready, rfl, ?_, ?_, ?_, coherent_of_empty _ ?_⟩, ⟨2 ^ 30, 1, ready, ?_, ?_, ?_⟩, ⟨4095, tabled4095 0x200000 0, ?_⟩,
    ⟨4095, tabled4095 0x200010 0, ?_⟩, ⟨4095, tabled4095 0x200000 1, ?_⟩, ⟨5, ?_⟩, ⟨7, ?_⟩,
    ⟨0x0FFF0001, ready, ?_⟩⟩
  case refine_5 =>
    intro i
    rfl
  all_goals decide +kernel

/-! ### Encodings -/

/-- What a decoder found, and what it refused. -/
def found {ε α : Type} (r : Except ε α) : Option α := match r with
  | .ok i => some i
  | .error _ => none
def refused {ε α : Type} (r : Except ε α) : Option ε := match r with
  | .ok _ => none
  | .error e => some e

theorem ok_of {ε α : Type} {r : Except ε α} {i : α} (h : found r = some i) : r = .ok i := by
  cases r <;> simp_all [found]
theorem error_of {ε α : Type} {r : Except ε α} {e : ε} (h : refused r = some e) : r = .error e := by
  cases r <;> simp_all [refused]

/-- A lane word found to be an instruction. -/
def foundLane (r : Except Reject LaneWord) : Option Instr := match r with
  | .ok (.instr i) => some i
  | _ => none
theorem instr_of {r : Except Reject LaneWord} {i : Instr} (h : foundLane r = some i) : r = .ok (.instr i) := by
  match r with
  | .ok (.instr j) => simp_all [foundLane]
  | .ok (.reduce _ _) => simp [foundLane] at h
  | .error _ => simp [foundLane] at h

theorem wit_ScalarEncodingsAgree :
    (∃ (i : Instr) (w : Nat), i.wf = true ∧ encodeScalar i = some w) ∧ (∃ (i : Instr) (w : Nat), decodeScalar w = .ok i) := by
  refine ⟨⟨.launchxCmt 6 8, 0xA8620001, ?_⟩, ⟨.launchxCmt 6 8, 0xA8620001, ok_of ?_⟩⟩
  all_goals decide +kernel

theorem wit_LaneEncodingsAgree :
    (∃ (i : Instr) (w : Nat), i.wf = true ∧ encodeLane i = some w)
    ∧ (∃ (i : Instr) (w : Nat) (x : LaneWord), readLane w = .ok x ∧ ReadsAs x i) := by
  refine ⟨⟨.vadd { laT 0 with vd := 4, va := 2, vb := 3 }, 0x4020300800000000000, ?_⟩,
    ⟨.vadd { laT 0 with vd := 4, va := 2, vb := 3 }, 0x4020300800000000000, .instr (.vadd { laT 0 with vd := 4, va := 2, vb := 3 }),
      instr_of ?_, rfl⟩⟩
  all_goals decide +kernel

/-! ### Steps -/

/-- The bytes of a word at the scalar or the lane entry of `laneReady`, whose next turn is `t`; group 0's shade is `shade`. -/
def coded (cells : Memory) (t : Turn) (shade : Option Nat) (log : List ReplayRecord) : State :=
  let s := laneReady.setMe { laneReady.me with ident := { laneReady.me.ident with shade := shade }, replayLog := log }
  { s with mem := cells, turns := [t] }

def addWord : Memory := [(0x10001, 5), (0x10002, 0x31), (0x10003, 4)]
def badWord : Memory := [(0x10000, 1)]
def trapWord : Memory := [(0x10000, 42), (0x10002, 0x10)]
def genrWord : Memory := [(0x10002, 0x41), (0x10003, 1)]
def vaddWord : Memory := [(0x20005, 0x80), (0x20007, 3), (0x20008, 2), (0x20009, 4)]

theorem wit_StepRunsDecoded :
    (∃ (s : State) (g : Nat) (b : Bool) (rest : List Turn) (w : Nat) (i : Instr), s.boot.stage ≠ 8 ∧ s.turns = .scalar g b :: rest
      ∧ (s.group g).resident = true ∧ FetchesWord (atTurn s rest g b) g b w ∧ decodeScalar w = .ok i)
    ∧ (∃ (s : State) (g : Nat) (b : Bool) (rest : List Turn) (w : Nat), s.boot.stage ≠ 8 ∧ s.turns = .scalar g b :: rest
      ∧ (s.group g).resident = true ∧ FetchesWord (atTurn s rest g b) g b w ∧ decodeScalar w = .error .reserved)
    ∧ (∃ (s : State) (g : Nat) (b : Block) (rest : List Turn) (w : Nat) (x : LaneWord) (i : Instr), s.boot.stage ≠ 8
      ∧ s.turns = .lane g :: rest ∧ (s.group g).resident = true ∧ FetchesLane (atTurn s rest g b.slotB) g b w ∧ readLane w = .ok x
      ∧ ReadsAs x i ∧ (countsAsLoad i = true → (atTurn s rest g b.slotB).holdsQuota g = true))
    ∧ (∃ (s : State) (i : Instr) (rest : List Turn), s.boot.stage ≠ 8 ∧ s.turns = .act i :: rest)
    ∧ (∃ (s : State) (g : Nat) (b : Bool) (rest : List Turn), s.boot.stage ≠ 8 ∧ (s.group g).resident = false
      ∧ s.turns = .scalar g b :: rest) := by
  refine ⟨⟨coded addWord (.scalar 0 false) none [], 0, false, [], 0x04310500, .add 3 4 5, ?_, rfl, ?_,
      ⟨?_, [0, 5, 0x31, 4], ?_, ?_⟩, ok_of ?_⟩,
    ⟨coded badWord (.scalar 0 false) none [], 0, false, [], 1, ?_, rfl, ?_, ⟨?_, [1, 0, 0, 0], ?_, ?_⟩, error_of ?_⟩,
    ⟨coded vaddWord (.lane 0) none [], 0, codeBlock, [], 0x4020300800000000000, .instr (.vadd { laT 0 with vd := 4, va := 2, vb := 3 }),
      .vadd { laT 0 with vd := 4, va := 2, vb := 3 }, ?_, rfl, ?_, ⟨?_, ?_, [0, 0, 0, 0, 0, 0x80, 0, 3, 2, 4, 0, 0], ?_, ?_⟩, instr_of ?_, rfl, ?_⟩,
    ⟨coded [] (.act .beaconSend) none [], .beaconSend, [], ?_, rfl⟩, ⟨coded [] (.scalar 1 true) none [], 1, true, [], ?_, ?_, rfl⟩⟩
  all_goals decide +kernel

/-- The state after `r`. -/
def after (r : Host.Outcome State Fault Refusal) : State := match r with
  | .next t => t
  | _ => ready

theorem next_after {r : Host.Outcome State Fault Refusal} (h : goesOn r = true) : r = .next (after r) := by
  cases r <;> simp_all [goesOn, after]

/-- A pair issues GENR, or TRAP, which it has no handler for; its log has `n` records. -/
def pairIssues (trap : Bool) (t : Turn) (n : Nat) : State := coded (if trap then trapWord else genrWord) t (some 8) (List.replicate n .passed)
def pairInstr (trap : Bool) : Instr := if trap then .trap 42 else .genr 4
def pairBytes (trap : Bool) : List Byte := if trap then [42, 0, 0x10, 0] else [0, 0, 0x41, 1]

theorem wit_ShadePairsCompared :
    ∀ trap, ∀ t ∈ [Turn.scalar 0 false, .differ 0 false false false, .differ 0 false false true], ∀ n ∈ [0, 4096],
      let s := pairIssues trap t n
      let a := scalarFetched (atTurn s [] 0 false) 0 false
      s.boot.stage ≠ 8 ∧ (s.group 0).resident = true ∧ (s.group 0).ident.shade ≠ none
        ∧ FetchesWord (atTurn s [] 0 false) 0 false (leNat (pairBytes trap)) ∧ decodeScalar (leNat (pairBytes trap)) = .ok (pairInstr trap)
        ∧ (∃ u, exec (pairInstr trap) a = .next u ∧ (if trap then a.trapped u else a.passed u false) = true)
        ∧ s.turns = [t] ∧ (s.group 0).replayLog.length = n := by
  intro trap t ht n hn
  simp only [List.mem_cons, List.not_mem_nil, or_false] at ht hn
  cases trap <;> rcases ht with rfl | rfl | rfl <;> rcases hn with rfl | rfl
  all_goals
    refine ⟨by decide +kernel, by decide +kernel, by decide +kernel, ⟨by decide +kernel, _, by decide +kernel, rfl⟩,
      ok_of (by decide +kernel), ⟨_, next_after (by decide +kernel), by decide +kernel⟩, rfl, by decide +kernel⟩

/-- A step of a canonical memory that goes on. -/
theorem wit_StepKeepsMemory :
    ∃ s t, MemoryWf s ∧ s.mem ≠ [] ∧ step s = .next t :=
  ⟨coded addWord (.scalar 0 false) none [], _, by unfold MemoryWf; decide +kernel, by decide +kernel, next_after (by decide +kernel)⟩

end Sys2Proof.Tests
end

