-- ==== Sys2Proof/Tests/WitnessScalar.lean ====
section
/-! SUPPORT. Witnesses: for each statement about the scalar stream, states and operands that meet the hypotheses of its
clauses together, at the edges of their ranges. -/

namespace Sys2Proof.Tests

set_option Elab.async false

open Sys2Proof Sys2Proof.Machine Sys2Proof.Claims

/-! ### The ALU -/

theorem wit_RegisterFrame : ∃ i s t ds ks bs, writesOf i = some (ds, ks, bs) ∧ scalarFields i = true ∧ exec i s = .next t :=
  ⟨.nop, ready, ready.advance, [], [], [], rfl, rfl, rfl⟩

theorem wit_ScalarWordResults : (∃ r, r ∈ wordRules ++ moreWordRules) ∧ ∃ (d a b : SReg) (s : State), Ready s [d.toNat, a.toNat, b.toNat] :=
  ⟨⟨_, List.mem_cons_self⟩, 63, 0, 1, ready, by decide +kernel⟩

theorem wit_ScalarBitCounts : ∃ (d a : SReg) (s : State), Ready s [d.toNat, a.toNat] := ⟨0, 63, ready, by decide +kernel⟩

theorem wit_ScalarPairResults :
    (∃ (d a b : SReg) (s : State), EvenReg d ∧ EvenReg a ∧ EvenReg b
      ∧ Ready s [d.toNat, d.toNat + 1, a.toNat, a.toNat + 1, b.toNat, b.toNat + 1])
    ∧ ∃ (d a b : SReg) (s : State), EvenReg d ∧ EvenReg a ∧ ¬EvenReg b ∧ Ready s [d.toNat, d.toNat + 1, a.toNat, a.toNat + 1, b.toNat] :=
  ⟨⟨62, 0, 2, ready, by decide +kernel⟩, 0, 62, 63, ready, by decide +kernel⟩

theorem wit_ScalarImmediateResults : (∃ r, r ∈ immRules) ∧ (∃ r, r ∈ immShiftRules) ∧ ∃ (d a : SReg) (s : State), Ready s [d.toNat, a.toNat] :=
  ⟨⟨_, List.mem_cons_self⟩, ⟨_, List.mem_cons_self⟩, 63, 63, ready, by decide +kernel⟩

theorem wit_MaskResults : (∃ r, r ∈ maskRules) ∧ ∃ (x : SReg) (s : State), Ready s [x.toNat] :=
  ⟨⟨_, List.mem_cons_self⟩, 0, ready, by decide +kernel⟩

theorem wit_OddPairsTrap : (∃ d a b : SReg, ¬(EvenReg d ∧ EvenReg a ∧ EvenReg b)) ∧ ∃ d a : SReg, ¬(EvenReg d ∧ EvenReg a) :=
  ⟨⟨0, 0, 63, by decide⟩, 0, 1, by decide⟩

/-! ### Control flow -/

theorem wit_BranchesGo :
    (∃ (c : BitVec 5) (r : SReg) (s : State), c.toNat ≤ 6 ∧ (c = 6 → r = 0) ∧ Ready s [r.toNat] ∧ condRule c.toNat (s.me.rs r.toNat).toInt)
    ∧ (∃ (c : BitVec 5) (r : SReg) (s : State), c.toNat ≤ 6 ∧ (c = 6 → r = 0) ∧ Ready s [r.toNat]
      ∧ ¬condRule c.toNat (s.me.rs r.toNat).toInt)
    ∧ (∃ (c : BitVec 2) (k : KReg) (s : State), condMask c.toNat (s.me.rk k.toNat) s.sl.xm)
    ∧ (∃ (c : BitVec 2) (k : KReg) (s : State), ¬condMask c.toNat (s.me.rk k.toNat) s.sl.xm)
    ∧ (∃ (a : SReg) (s : State), EvenReg a ∧ Ready s [a.toNat, a.toNat + 1] ∧ TargetOk (s.me.rs64 a.toNat))
    ∧ (∃ s : State, Ready s [46, 47] ∧ TargetOk (s.me.rs64 46)) :=
  ⟨⟨6, 0, ready, by decide +kernel⟩, ⟨5, 1, withMe (fun x => x.ws 1 1), by decide +kernel⟩, ⟨1, 0, ready, by decide +kernel⟩,
   ⟨2, 15, ready, by decide +kernel⟩,
   ⟨62, withMe (fun x => (x.ws 62 0xFFFFFFFC).ws 63 0x01FFFFFF), by decide +kernel⟩,
   ⟨withMe (fun x => x.ws 46 4), by decide +kernel⟩⟩

theorem wit_CallsLink :
    (∃ s : State, Ready s [46, 47])
    ∧ (∃ (a : SReg) (s : State), EvenReg a ∧ Ready s [a.toNat, a.toNat + 1, 46, 47] ∧ TargetOk (s.me.rs64 a.toNat))
    ∧ (∃ (a : SReg) (s : State), EvenReg a ∧ Ready s [a.toNat, a.toNat + 1, 46, 47] ∧ 2 ^ 57 ≤ (s.me.rs64 a.toNat).toNat)
    ∧ (∃ (a : SReg) (s : State), EvenReg a ∧ Ready s [a.toNat, a.toNat + 1, 46, 47] ∧ (s.me.rs64 a.toNat).toNat < 2 ^ 57
      ∧ (s.me.rs64 a.toNat).toNat % 4 ≠ 0) :=
  ⟨⟨ready, by decide +kernel⟩, ⟨46, ready, by decide +kernel⟩,
   ⟨46, withMe (fun x => x.ws 47 0x02000000), by decide +kernel⟩,
   ⟨62, withMe (fun x => (x.ws 62 0xFFFFFFFF).ws 63 0x01FFFFFF), by decide +kernel⟩⟩

/-- A level of four words after `ready`'s pc. -/
def level : LoopLevel := { high := 0, start := 0x10004, stop := 0x10010, count := 2 }

/-- `ready` inside `n` such levels. -/
def inLoops (n : Nat) : State := withSl (fun y => { y with depth := n, loops := [level, level, level, level], pc := 0x10010 })

theorem wit_LoopsOpenAndClose :
    (∃ (l : BitVec 2) (c : BitVec 8) (e : BitVec 15) (s : State), e ≠ 0 ∧ LoopOk s l.toNat e.toNat ∧ c = 0)
    ∧ (∃ (l : BitVec 2) (c : BitVec 8) (e : BitVec 15) (s : State), e ≠ 0 ∧ LoopOk s l.toNat e.toNat ∧ c = 255)
    ∧ (∃ (l : BitVec 2) (r : SReg) (e : BitVec 15) (s : State), e ≠ 0 ∧ LoopOk s l.toNat e.toNat ∧ Ready s [r.toNat])
    ∧ (∃ (l : BitVec 2) (s : State), l.toNat ≠ s.sl.depth)
    ∧ (∃ (s : State) (d : Nat), s.sl.depth = d + 1) ∧ (∃ s : State, s.sl.depth = 0) :=
  ⟨⟨0, 0, 1, ready, by decide +kernel⟩, ⟨0, 255, 32767, ready, by decide +kernel⟩,
   ⟨3, 63, 1, withSl (fun y => { y with depth := 3, loops := [level, level, level, level] }), by decide +kernel⟩,
   ⟨3, inLoops 4, by decide +kernel⟩, ⟨inLoops 4, 3, by decide +kernel⟩, ready, by decide +kernel⟩

theorem wit_LoopEnds :
    (∃ y : Slot, y.depth = 0)
    ∧ (∃ (y : Slot) (d : Nat), y.depth = d + 1 ∧ low32 y.pc ≠ (y.loops.getD d LoopLevel.zero).stop)
    ∧ (∃ (y : Slot) (d : Nat), y.depth = d + 1 ∧ low32 y.pc = (y.loops.getD d LoopLevel.zero).stop
      ∧ (y.loops.getD d LoopLevel.zero).count ≠ 1)
    ∧ (∃ (y : Slot) (d : Nat), y.depth = d + 1 ∧ low32 y.pc = (y.loops.getD d LoopLevel.zero).stop
      ∧ (y.loops.getD d LoopLevel.zero).count = 1) :=
  ⟨⟨Slot.free, rfl⟩, ⟨{ (inLoops 1).sl with pc := 0x10004 }, 0, by decide +kernel⟩, ⟨(inLoops 4).sl, 3, by decide +kernel⟩,
   ⟨{ (inLoops 1).sl with loops := [{ level with count := 1 }] }, 0, by decide +kernel⟩⟩

theorem wit_LrunEnqueues :
    (∃ (b : BitVec 20) (s : State), s.me.ident.laneSize ≤ b.toNat * 12)
    ∧ (∃ (k : KReg) (b : BitVec 20) (s : State), b.toNat * 12 < s.me.ident.laneSize ∧ snapshotRule s k = 0)
    ∧ (∃ (k : KReg) (b : BitVec 20) (s : State), b.toNat * 12 < s.me.ident.laneSize ∧ snapshotRule s k ≠ 0 ∧ s.me.queueFull = false
      ∧ s.blockCount s.cur.g < 16 ∧ Ready s ((List.range 16).map (48 + ·)))
    ∧ (∃ (k : KReg) (b : BitVec 20) (s : State), b.toNat * 12 < s.me.ident.laneSize ∧ snapshotRule s k ≠ 0 ∧ s.me.queueFull = true) :=
  ⟨⟨1, withMe (fun x => { x with ident := { x.ident with laneSize := 12 } }), by decide +kernel⟩,
   ⟨15, 0xFFFFF, ready, by decide +kernel⟩, ⟨0, 0xFFFFF, ready, by decide +kernel⟩,
   ⟨0, 0, withMe (fun x => { x with blocks := List.replicate 16 codeBlock }), by decide +kernel⟩⟩

theorem wit_WaitsAndSleep :
    (∃ (b l st c tb : BitVec 4) (s : State), Within b (s.blockCount s.cur.g) ∧ Within l s.me.loadCount ∧ Within st s.me.storeCount
      ∧ Within c s.me.copies ∧ Within tb s.me.batchCount)
    ∧ (∃ (b l st c tb : BitVec 4) (s : State), ¬(Within b (s.blockCount s.cur.g) ∧ Within l s.me.loadCount ∧ Within st s.me.storeCount
      ∧ Within c s.me.copies ∧ Within tb s.me.batchCount))
    ∧ (∃ n : BitVec 16, n ≠ 0)
    ∧ (∃ (g : Nat) (b : Bool) (s : State) (n : Nat), ((s.group g).slot b).sleep = some n ∧ n ≤ s.ck) ∧ (∃ (g : Nat) (b : Bool) (s : State) (n : Nat), ((s.group g).slot b).sleep = some n ∧ s.ck < n) :=
  ⟨⟨0, 0, 0, 0, 15, ready, by decide +kernel⟩,
   ⟨15, 15, 15, 14, 15, withMe (fun x => { x with copies := 15 }), by decide +kernel⟩, ⟨1, by decide⟩,
   ⟨0, false, withSl (fun y => { y with sleep := some 0 }), 0, by decide +kernel⟩,
   ⟨0, false, withSl (fun y => { y with sleep := some 1 }), 1, by decide +kernel⟩⟩

/-! ### CSRs -/

/-- `ready` with a privileged group. -/
def privileged : State := withMe (fun x => { x with ident := { x.ident with privileged := true } })

theorem wit_CsrAccess :
    (∃ (d : SReg) (c : BitVec 12) (s : State) (v : Word), s.csrRead c.toNat = some v ∧ (0x800 ≤ c.toNat → s.me.ident.privileged = true)
      ∧ Ready s [d.toNat])
    ∧ (∃ (d : SReg) (s : State), EvenReg d ∧ Ready s [d.toNat, d.toNat + 1])
    ∧ (∃ (a : SReg) (c : BitVec 12) (s : State) (v : Word) (t : State), s.csrRead c.toNat = some v ∧ (0x800 ≤ c.toNat → s.me.ident.privileged = true)
      ∧ csrReadOnly c.toNat = false ∧ Ready s [a.toNat] ∧ s.csrWrite c.toNat (s.me.rs a.toNat) = some t)
    ∧ (∃ (a : SReg) (c : BitVec 12) (s : State) (v : Word) (t : State), s.csrRead c.toNat = some v ∧ csrReadOnly c.toNat = false ∧ Ready s [a.toNat]
      ∧ s.csrWrite c.toNat (v ||| s.me.rs a.toNat) = some t)
    ∧ (∃ (a : SReg) (c : BitVec 12) (s : State) (v : Word) (t : State), s.csrRead c.toNat = some v ∧ csrReadOnly c.toNat = false ∧ Ready s [a.toNat]
      ∧ s.csrWrite c.toNat (v &&& ~~~s.me.rs a.toNat) = some t)
    ∧ (∃ (c : BitVec 12) (s : State), s.csrRead c.toNat = none ∧ c ≠ 3)
    ∧ (∃ c : BitVec 12, csrReadOnly c.toNat = true) ∧ (∃ (c : BitVec 12) (s : State), 0x800 ≤ c.toNat ∧ s.me.ident.privileged = false) :=
  ⟨⟨0, 0x818, privileged, 1000, by decide +kernel⟩, ⟨62, ready, by decide +kernel⟩,
   ⟨0, 0x818, privileged, 1000, _, by decide +kernel, by decide +kernel, by decide +kernel, by decide +kernel, rfl⟩,
   ⟨0, 5, ready, 0, _, by decide +kernel, by decide +kernel, by decide +kernel, rfl⟩,
   ⟨0, 5, ready, 0, _, by decide +kernel, by decide +kernel, by decide +kernel, rfl⟩,
   ⟨0x7FF, ready, by decide +kernel⟩, ⟨2, by decide +kernel⟩, 0x800, ready, by decide +kernel⟩

theorem wit_PartWrites : (∃ (a : SReg) (s : State), Ready s [a.toNat] ∧ 5 ≤ (s.me.rs a.toNat).toNat % 8)
    ∧ ∃ (a : SReg) (s : State), Ready s [a.toNat] ∧ (s.me.rs a.toNat).toNat % 8 < 5 :=
  ⟨⟨1, withMe (fun x => x.ws 1 5), by decide +kernel⟩, 1, withMe (fun x => x.ws 1 12), by decide +kernel⟩

/-! ### Traps -/

/-- `ready` with a handler at byte 256. -/
def handled : State := withMe (fun x => { x with csr := { x.csr with utvec := 0x100 } })

/-- `ready` inside its handler. -/
def handling : State := withMe (fun x => { x with csr := { x.csr with utvec := 0x100, tcause := 0x8012 }, heldLane := true })

theorem wit_TrapEntry : ∃ s : State, HasHandler s.me ∧ s.sl.wait = .none := ⟨handled, by decide +kernel⟩

theorem wit_TrapTerminates : (∃ s : State, ¬HasHandler s.me) ∧ ∃ s : State, s.me.csr.utvec ≠ 0 ∧ ¬HasHandler s.me :=
  ⟨⟨ready, by decide +kernel⟩, handling, by decide +kernel⟩

theorem wit_TrapReturn : (∃ s : State, s.me.csr.tcause.getLsbD 15 = false)
    ∧ ∃ s : State, s.me.csr.tcause.getLsbD 15 = true ∧ s.blockCount s.cur.g = 0 ∧ s.sl.depth = s.me.handlerDepth :=
  ⟨⟨handled, by decide +kernel⟩, handling, by decide +kernel⟩

/-- A floating-point trap that waits. -/
def pendingTrap : Trap :=
  { cause := causeFpx, mask := 1, code := 1, reason := 0, addr := 0,
    site := { slotB := false, lane := true, pc := 0x10000, lanePc := 0x20000, w0 := 0, w1 := 0, w2 := 0 } }

theorem wit_PendingTrapDelivered : ∃ (g : Nat) (s : State) (p : Trap) (rest : List Trap), (s.group g).pending = p :: rest ∧ (s.group g).csr.tcause.getLsbD 15 = false
    ∧ (s.group g).handles p.cause = true ∧ ((s.group g).slot p.site.slotB).wait = .none :=
  ⟨0, handled.setMe { handled.me with pending := [pendingTrap] }, pendingTrap, [], by decide +kernel⟩

end Sys2Proof.Tests
end

