-- ==== Sys2Proof/Tests/WitnessTeam.lean ====
section
/-! SUPPORT. Witnesses: for each statement about parts, fences, barriers, phases, the pool, the flame and batches, states and
operands that meet the hypotheses of its clauses together. -/

namespace Sys2Proof.Tests

set_option Elab.async false

open Sys2Proof Sys2Proof.Machine Sys2Proof.Claims

/-! ### Divergence -/

/-- A region with `n` parts whose JOIN stands at `ready`'s pc. -/
def region (n : Nat) : JoinEntry := { joinPc := 0x10000, count := n, arrived := 0, depth := 0, call := false, loops := loopsZero, parent := none }

/-- Inside region 0, with `x` further changed. -/
def inRegion (e : JoinEntry) (f : Machine.Group → Machine.Group) : State :=
  withMe (fun x => f { x with joins := [(0, e)], slotA := { x.slotA with top := some 0 } })

/-- Slot B holds a part too: slot A has lanes `a`, slot B the others. -/
def halves (a : Word) (x : Machine.Group) : Machine.Group :=
  { x with slotA := { x.slotA with xm := a, lanes := a }, slotB := { x.slotA with pc := 0x10100, xm := ~~~a, lanes := ~~~a } }

theorem wit_DivisionAndJoin :
    (∃ (s : State) (n : Nat), s.me.inHandler = false ∧ n < 16 ∧ Sparse.find s.me.joins n = none
      ∧ (∀ m, m < n → Sparse.find s.me.joins m ≠ none))
    ∧ (∃ (s : State) (n : Nat) (e : JoinEntry), PartReady s ∧ TopIs s n e ∧ e.joinPc = s.sl.pc ∧ e.depth = s.sl.depth ∧ 2 ≤ e.count
      ∧ (otherSlot s s).live = true ∧ s.me.conts = [])
    ∧ (∃ (s : State) (n : Nat) (e : JoinEntry), PartReady s ∧ TopIs s n e ∧ e.joinPc = s.sl.pc ∧ e.depth = s.sl.depth ∧ 2 ≤ e.count
      ∧ (otherSlot s s).live = true ∧ s.me.conts ≠ [])
    ∧ (∃ (s : State) (n : Nat) (e : JoinEntry), PartReady s ∧ TopIs s n e ∧ e.joinPc = s.sl.pc ∧ e.depth = s.sl.depth ∧ e.count = 1)
    ∧ (∃ (s : State) (n : Nat) (e : JoinEntry), s.me.inHandler = false ∧ TopIs s n e ∧ e.call = true ∧ e.depth = s.sl.depth)
    ∧ (∃ (k : KReg) (s : State) (n : Nat) (e : JoinEntry), k ≠ 0 ∧ PartReady s ∧ TopIs s n e ∧ takenSide s k = 0)
    ∧ (∃ (k : KReg) (s : State) (n : Nat) (e : JoinEntry), k ≠ 0 ∧ PartReady s ∧ TopIs s n e ∧ takenSide s k ≠ 0 ∧ fallSide s k = 0)
    ∧ (∃ (k : KReg) (s : State) (n : Nat) (e : JoinEntry), k ≠ 0 ∧ PartReady s ∧ TopIs s n e ∧ takenSide s k ≠ 0 ∧ fallSide s k ≠ 0
      ∧ (otherSlot s s).live = false)
    ∧ (∃ (k : KReg) (s : State) (n : Nat) (e : JoinEntry), k ≠ 0 ∧ PartReady s ∧ TopIs s n e ∧ takenSide s k ≠ 0 ∧ fallSide s k ≠ 0
      ∧ (otherSlot s s).live = true ∧ s.me.conts.length < 4
      ∧ popNat 32 (takenSide s k).toNat ≤ popNat 32 (fallSide s k).toNat)
    ∧ (∃ (k : KReg) (s : State) (n : Nat) (e : JoinEntry), k ≠ 0 ∧ PartReady s ∧ TopIs s n e ∧ takenSide s k ≠ 0 ∧ fallSide s k ≠ 0
      ∧ (otherSlot s s).live = true ∧ s.me.conts.length < 4
      ∧ popNat 32 (fallSide s k).toNat < popNat 32 (takenSide s k).toNat)
    ∧ (∃ (k : KReg) (s : State), PartReady s ∧ s.sl.lanes &&& ~~~exitSide s k ≠ 0) := by
  refine ⟨⟨withMe (fun x => { x with joins := (List.range 15).map (fun n => (n, region 1)) }), 15, ?_⟩,
    ⟨inRegion (region 2) (halves 0xFFFF), 0, region 2, ?_⟩,
    ⟨inRegion (region 3) (fun x => { (halves 0xFF x) with conts := [⟨0x10200, 0xFF00, some 0, 0, loopsZero⟩] }), 0, region 3, ?_⟩,
    ⟨inRegion (region 1) id, 0, region 1, ?_⟩,
    ⟨inRegion { region 1 with call := true } id, 0, { region 1 with call := true }, ?_⟩,
    ⟨1, inRegion (region 1) id, 0, region 1, ?_⟩,
    ⟨15, inRegion (region 1) (fun x => x.wk 15 fullMask), 0, region 1, ?_⟩,
    ⟨1, inRegion (region 1) (fun x => x.wk 1 1), 0, region 1, ?_⟩,
    ⟨1, inRegion (region 2) (fun x => (halves 0xFFFF x).wk 1 0xFF), 0, region 2, ?_⟩,
    ⟨1, inRegion (region 2) (fun x => (halves 0xFFFF x).wk 1 0x1FF), 0, region 2, ?_⟩,
    ⟨1, withMe (fun x => x.wk 1 1), ?_⟩⟩
  all_goals decide +kernel

theorem ready_alone (s : State) (h : s.teamOf s.cur.g = none) : TeamBusy s := by
  intro tm hm
  rw [h] at hm
  cases hm

theorem wit_ExitEndsGroup :
    (∃ (k : KReg) (s : State) (tm : Team), PartReady s ∧ s.sl.lanes &&& ~~~exitSide s k = 0 ∧ (otherSlot s s).live = false ∧ s.me.conts = []
      ∧ s.me.joins = [] ∧ s.sl.top = none ∧ Quiet s ∧ TeamBusy s ∧ s.me.ident.shade = none ∧ s.me.reservations = []
      ∧ s.teamOf s.cur.g = some tm)
    ∧ (∃ (k : KReg) (s : State), PartReady s ∧ s.sl.lanes &&& ~~~exitSide s k = 0 ∧ (otherSlot s s).live = false ∧ s.me.conts = []
      ∧ s.me.joins = [] ∧ s.sl.top = none ∧ Quiet s ∧ TeamBusy s ∧ s.me.ident.shade = none ∧ s.me.reservations = []
      ∧ s.teamOf s.cur.g = none) := by
  refine ⟨⟨0, paired id id, team0, ?_, ?_, ?_, ?_, ?_, ?_, ?_, pairBusy _ team0 ?_ ?_, ?_, ?_, ?_⟩,
    ⟨1, withMe (fun x => { (x.wk 1 fullMask) with exited := 0 }), ?_, ?_, ?_, ?_, ?_, ?_, ?_, ready_alone _ ?_, ?_, ?_, ?_⟩⟩
  all_goals decide +kernel

/-- A table of two words at page 3 (each names a target in page 1), lanes 0 to 15 at index 0 and the others at index 1, and a
procedure header before the first target. -/
def tabled (n0 n1 : Byte) (p : Word) : State :=
  let s := withMe (fun x => { x with
    v := (span 272 16).map (fun i => (i, 1)), s := [(2, p)], joins := [(0, region 1)], slotA := { x.slotA with top := some 0 } })
  { s with mem := ((((s.mem.write 0x1003C 0x20).write 0x1003E 0xC0).write 0x1003F 0xF7).write 0x30000 n0).write 0x30004 n1 }

theorem tabled_pc (n0 n1 : Byte) (p : Word) : (tabled n0 n1 p).sl.pc = 0x10000 := rfl

/-- The words that the lanes of `tabled` read. -/
def tabledWords : List Word := List.replicate 16 0x10 ++ List.replicate 16 0x20

theorem tabled_legal (n0 n1 : Byte) (p : Word) (ws : List Word)
    (h : ∀ w ∈ ws, 0 ≤ (0x10000 : Int) + 4 * w.toInt ∧ (0x10000 : Int) + 4 * w.toInt < 2 ^ 57) :
    ∀ w ∈ ws, 0 ≤ tableTarget (tabled n0 n1 p) w ∧ tableTarget (tabled n0 n1 p) w < 2 ^ 57 := h

/-- Lanes 16 to 31 of `tabled` have index 1. -/
theorem tabled_index (n0 n1 : Byte) (p : Word) : ∀ l, l < 32 → ((tabled n0 n1 p).me.rv 8 l).toNat = if l < 16 then 0 else 1 := by
  have h : ∀ l, l < 32 → (Sparse.get 0 ((span 272 16).map (fun i => (i, (1 : Word)))) (32 * 8 + l)).toNat = if l < 16 then 0 else 1 := by
    decide +kernel
  exact h

theorem tabled_lanes (n0 n1 : Byte) (p : Word) : xmLanes (tabled n0 n1 p) = List.range 32 := by
  have h : (List.range 32).filter (fullMask : Word).getLsbD = List.range 32 := by decide +kernel
  exact h

/-- A table read that answers `ws`. -/
def okWords (r : TableRead) (ws : List Word) : Bool :=
  match r with
  | .words v _ => v == ws
  | _ => false

theorem words_of {r : TableRead} {ws : List Word} (h : okWords r ws = true) : ∃ u, r = .words ws u := by
  cases r <;> simp_all [okWords]

/-- A table read after which another one answers `ws`. -/
def okThen (r : TableRead) (as : List Nat) (ws : List Word) : Bool :=
  match r with
  | .words _ u => okWords (u.readWords as) ws
  | _ => false

theorem then_of {r : TableRead} {as : List Nat} {ws : List Word} (h : okThen r as ws = true) (v : List Word) (u : State)
    (hr : r = .words v u) : ∃ z, u.readWords as = .words ws z := by
  subst hr
  exact words_of h

theorem wit_TableBranches :
    (∃ (v : VReg) (p : SReg) (len : BitVec 12) (s : State) (n : Nat) (e : JoinEntry) (ws : List Word), ReadsTable s v p len n e ws
      ∧ s.me.conts = [] ∧ (distinct (ws.map (tableTarget s))).length ≤ 5)
    ∧ (∃ (v : VReg) (p : SReg) (len : BitVec 12) (s : State) (n : Nat) (e : JoinEntry) (ws : List Word) (tg : Int) (h : Word),
      ReadsTable s v p len n e ws ∧ (∀ w ∈ ws, tableTarget s w = tg) ∧ s.me.conts.length ≤ 31
      ∧ (∀ u, s.readWords (tableSlots s v p) = .words ws u → ∃ z, u.readWords [(tg.toNat + 2 ^ 64 - 4) % 2 ^ 64] = .words [h] z)
      ∧ h.toNat / 2 ^ 16 = 0xF7C0 ∧ h.toNat / 64 % 1024 = 0 ∧ 1 ≤ h.toNat % 64 ∧ h.toNat % 64 ≤ 32
      ∧ h.toNat % 64 ≤ s.me.csr.budget.toNat)
    ∧ (∃ (v : VReg) (p : SReg) (len : BitVec 12) (s : State) (n : Nat) (e : JoinEntry) (m : Word), PartReady s ∧ TopIs s n e
      ∧ p.toNat % 2 = 0 ∧ len ≠ 0 ∧ v.toNat < 8 * s.me.csr.budget.toNat ∧ s.pendingV s.cur.g [(v.toNat, 1)] = false
      ∧ Ready s [p.toNat, p.toNat + 1]
      ∧ (∀ l, l < 32 → (m.getLsbD l = true ↔ l ∈ xmLanes s ∧ len.toNat ≤ (s.me.rv v.toNat l).toNat)) ∧ m ≠ 0)
    ∧ (∃ (v : VReg) (p : SReg) (len : BitVec 12) (s : State) (n : Nat) (e : JoinEntry) (m : Word), PartReady s ∧ TopIs s n e
      ∧ p.toNat % 2 = 0 ∧ len ≠ 0 ∧ v.toNat < 8 * s.me.csr.budget.toNat ∧ s.pendingV s.cur.g [(v.toNat, 1)] = false
      ∧ Ready s [p.toNat, p.toNat + 1]
      ∧ (∀ l, l < 32 → (m.getLsbD l = true ↔ l ∈ xmLanes s ∧ len.toNat ≤ (s.me.rv v.toNat l).toNat))
      ∧ m = 0 ∧ xmLanes s ≠ [] ∧ (s.me.rs64 p.toNat).toNat % 4 ≠ 0) := by
  refine ⟨⟨8, 2, 2, tabled 0x10 0x20 0x30000, 0, region 1, tabledWords, ⟨?_, ?_, ?_, ?_, ?_, ?_, ?_, ?_, ?_, tabled_legal _ _ _ _ ?_⟩, ?_, ?_⟩,
    ⟨8, 2, 2, tabled 0x10 0x10 0x30000, 0, region 1, List.replicate 32 0x10, 0x10040, 0xF7C00020,
      ⟨?_, ?_, ?_, ?_, ?_, ?_, ?_, ?_, ?_, tabled_legal _ _ _ _ ?_⟩, ?_, ?_, ?_, ?_, ?_, ?_, ?_, ?_⟩,
    ⟨8, 2, 1, tabled 0x10 0x10 0x30000, 0, region 1, 0xFFFF0000, ?_, ?_, ?_, ?_, ?_, ?_, ?_, fun l hl => ?_, ?_⟩,
    ⟨8, 2, 2, tabled 0x10 0x10 0x30001, 0, region 1, 0, ?_, ?_, ?_, ?_, ?_, ?_, ?_, fun l hl => ?_, ?_, ?_, ?_⟩⟩
  case refine_7 | refine_19 =>
    rw [tabled_lanes]
    intro l hl
    rw [show (8 : VReg).toNat = 8 from rfl, tabled_index _ _ _ l (List.mem_range.1 hl)]
    split <;> decide
  case refine_10 =>
    intro w hw
    simp only [tabledWords, List.mem_append, List.mem_replicate] at hw
    rcases hw with ⟨-, rfl⟩ | ⟨-, rfl⟩ <;> decide
  case refine_22 | refine_23 =>
    intro w hw
    rw [List.eq_of_mem_replicate hw]
    decide
  case refine_38 =>
    rw [tabled_lanes, show (8 : VReg).toNat = 8 from rfl, tabled_index _ _ _ l hl]
    revert l
    decide +kernel
  case refine_47 =>
    rw [tabled_lanes, show (8 : VReg).toNat = 8 from rfl, tabled_index _ _ _ l hl]
    revert l
    decide +kernel
  case refine_9 | refine_21 => exact words_of (by decide +kernel)
  case refine_25 => exact then_of (by decide +kernel) _
  all_goals decide +kernel

/-! ### Fences, barriers, phases -/

/-- A load that was issued before the fence. -/
def oneLoad (x : Machine.Group) : Machine.Group :=
  x.addLoad (.scalar 1 4) [⟨0, 0x30000, some (.dev 0x30000)⟩] 0 0 0
    { pc := 0, lanePc := 0, w0 := 0, w1 := 0, w2 := 0, slotB := false, lane := false }

theorem wit_FencesOrder :
    (∃ (sc : BitVec 3) (s : State), sc.toNat < 7 ∧ s.sl.wait = .none ∧ s.me.blocks = [] ∧ s.me.loads = [])
    ∧ (∃ (sc : BitVec 3) (s : State), sc.toNat < 7 ∧ s.sl.wait = .none ∧ s.me.blocks = [] ∧ (∃ e ∈ s.me.loads, e.seq < s.me.seq))
    ∧ (∃ (sc : BitVec 3) (s : State), sc.toNat < 7 ∧ s.sl.wait = .none ∧ Quiet s ∧ (5 ≤ sc.toNat → s.me.posted = false))
    ∧ (∃ (sc : BitVec 3) (s : State), sc.toNat < 5 ∧ s.sl.wait = .none ∧ Quiet s ∧ s.me.posted = true)
    ∧ (∃ (sc : BitVec 3) (w : BitVec 4) (s : State), sc.toNat < 7 ∧ w ≠ 0 ∧ s.sl.wait = .none ∧ s.me.blocks = [] ∧ s.logOf s.cur.g = []
      ∧ s.me.stores ≠ [] ∧ (∀ e ∈ s.me.stores, ∀ i ∈ e.kind.streams, w.getLsbD i = false) ∧ (5 ≤ sc.toNat → s.me.posted = false)) := by
  refine ⟨⟨6, ready, ?_⟩, ⟨0, withMe oneLoad, ?_⟩, ⟨5, ready, ?_⟩, ⟨4, withMe (fun x => { x with posted := true }), ?_⟩,
    ⟨6, 8, withMe (fun x => x.addStore (.bytes [⟨0x30000, some (.dev 0x30000), [1], 2, 0⟩]) 0 0 false false), ?_⟩⟩
  all_goals decide +kernel

/-- Window 63 of context 0 with its halves in pages 2 and 3. -/
def windowed (busy : List (Nat × Bool)) (ctx : Nat) : State :=
  (withMe (fun x => x.ws 1 63)).setWindow 63
    { half0 := 0x20000, half1 := 0x30000, size := 0x10000, ctx := ctx, flags := 1, vera := 0x1000, ver := 6, p := false, busy := busy }

theorem wit_PublishTurnsWindow :
    (∃ (a : SReg) (s : State), Ready s [a.toNat] ∧ (s.me.rs a.toNat).toNat < 64 ∧ (windowAt s (s.me.rs a.toNat).toNat).flags % 2 = 1
      ∧ (windowAt s (s.me.rs a.toNat).toNat).ctx = s.me.ident.ctx ∧ (windowAt s (s.me.rs a.toNat).toNat).busy = []
      ∧ (windowAt s (s.me.rs a.toNat).toNat).ver % 2 = 0 ∧ Quiet s ∧ s.sl.wait = .none ∧ s.me.heldWait = .none)
    ∧ (∃ (a : SReg) (s : State), Ready s [a.toNat] ∧ (s.me.rs a.toNat).toNat < 64 ∧ (windowAt s (s.me.rs a.toNat).toNat).flags % 2 = 1
      ∧ (windowAt s (s.me.rs a.toNat).toNat).ctx = s.me.ident.ctx ∧ (windowAt s (s.me.rs a.toNat).toNat).busy ≠ []
      ∧ (s.cur.g, s.cur.slotB) ∉ (windowAt s (s.me.rs a.toNat).toNat).busy ∧ Quiet s ∧ s.sl.wait = .none ∧ s.me.heldWait = .none)
    ∧ (∃ (a : SReg) (s : State), Ready s [a.toNat] ∧ (s.me.rs a.toNat).toNat < 64 ∧ (windowAt s (s.me.rs a.toNat).toNat).flags % 2 = 1
      ∧ (windowAt s (s.me.rs a.toNat).toNat).ctx = s.me.ident.ctx ∧ s.sl.wait = .publish (s.me.rs a.toNat).toNat
      ∧ s.me.posted = false)
    ∧ (∃ (a : SReg) (s : State), Ready s [a.toNat] ∧ (windowAt s (s.me.rs a.toNat).toNat).ctx ≠ s.me.ident.ctx) := by
  refine ⟨⟨1, windowed [] 0, ?_⟩, ⟨1, windowed [(0, true), (1, false)] 0, ?_⟩,
    ⟨1, (windowed [(0, false)] 0).setSl { (windowed [(0, false)] 0).sl with wait := .publish 63 }, ?_⟩, ⟨1, windowed [] 1, ?_⟩⟩
  all_goals decide +kernel

/-- In `paired`, the only other live member of the team is group 1. -/
theorem other_of_pair {s : State} {tm : Team} {h : Nat} (hl : tm.live = [0, 1]) (hm : tm.members = [0, 1]) (hg : s.cur.g = 0)
    (o : OtherMember s tm h) : h = 1 := by
  obtain ⟨hn, i, hi, he⟩ := o
  rw [hl] at hi
  rw [hm] at he
  rw [hg] at hn
  simp only [List.mem_cons, List.not_mem_nil, or_false] at hi
  rcases hi with rfl | rfl <;> simp_all

theorem wit_BarrierMeets :
    (∃ (s : State) (tm : Team), Alone s ∧ Quiet s ∧ MemberOf s tm ∧ (∀ h, OtherMember s tm h → (s.group h).slotWaiting .bar ≠ none)
      ∧ OtherMember s tm 1)
    ∧ (∃ (s : State) (tm : Team), Alone s ∧ Quiet s ∧ MemberOf s tm ∧ TeamBusy s)
    ∧ (∃ s : State, Alone s ∧ Quiet s ∧ s.teamOf s.cur.g = none) := by
  refine ⟨⟨paired id (waits .bar), team0, ?_, ?_, ?_, fun h o => ?_, ?_, 1, ?_, ?_⟩, ⟨paired id id, team0, ?_, ?_, ?_, pairBusy _ team0 ?_ ?_⟩,
    ⟨ready, ?_⟩⟩
  case refine_4 =>
    obtain rfl := other_of_pair (s := paired id (waits .bar)) rfl rfl rfl o
    decide +kernel
  all_goals decide +kernel

theorem wit_PhaseEnds :
    (∃ (s : State) (tm : Team), Alone s ∧ Quiet s ∧ MemberOf s tm ∧ s.me.joins = [] ∧ TeamBusy s)
    ∧ (∃ (s : State) (tm : Team) (l : Launch), Alone s ∧ Quiet s ∧ MemberOf s tm ∧ s.me.joins = []
      ∧ (∀ h, OtherMember s tm h → (s.group h).slotWaiting .phend ≠ none)
      ∧ s.launch? s.me.ident.team.ticket = some l ∧ s.preemptState l.ctx ≠ 1 ∧ l.gated s.me.ident.team (tm.phase + 1) = false) := by
  refine ⟨⟨paired id id, team0, ?_, ?_, ?_, ?_, pairBusy _ team0 ?_ ?_⟩,
    ⟨paired id (waits .phend), team0, launch0, ?_, ?_, ?_, ?_, fun h o => ?_, ?_, ?_, ?_⟩⟩
  case refine_11 =>
    obtain rfl := other_of_pair (s := paired id (waits .phend)) rfl rfl rfl o
    decide +kernel
  all_goals decide +kernel

/-- `paired` with group 0's budget at `n` units and the team's pool at `pool` registers. -/
def budgeted (n : Word) (pool : Nat) : State :=
  let s := paired (fun t => { t with pool := pool }) id
  s.setMe { s.me with csr := { s.me.csr with budget := n } }

/-- Core 0 with its flame at `f`. -/
def flamed (s : State) (f : Option Nat) : State := s.setCore 0 { s.core 0 with flame := f }

theorem wit_PoolAndFlame :
    (∃ (n : BitVec 6) (s : State) (tm : Team), 1 ≤ n.toNat ∧ n.toNat < s.me.csr.budget.toNat ∧ Alone s ∧ Quiet s
      ∧ s.teamOf s.cur.g = some tm)
    ∧ (∃ (n : BitVec 6) (s : State) (tm : Team), 1 ≤ n.toNat ∧ s.me.csr.budget.toNat + n.toNat ≤ 32 ∧ Alone s
      ∧ s.teamOf s.cur.g = some tm ∧ 8 * n.toNat ≤ tm.total - 8 * (tm.live.length - 1) ∧ 8 * n.toNat ≤ tm.pool ∧ tm.claimants = [])
    ∧ (∃ (n : BitVec 6) (s : State) (tm : Team), 1 ≤ n.toNat ∧ s.me.csr.budget.toNat + n.toNat ≤ 32 ∧ Alone s
      ∧ s.teamOf s.cur.g = some tm ∧ 8 * n.toNat ≤ tm.total - 8 * (tm.live.length - 1) ∧ tm.pool < 8 * n.toNat
      ∧ s.cur.g ∉ tm.claimants)
    ∧ (∃ (n : BitVec 6) (s : State), Alone s ∧ n ≠ 0 ∧ s.me.csr.budget.toNat ≤ n.toNat)
    ∧ (∃ (n : BitVec 6) (s : State), Alone s ∧ 32 < s.me.csr.budget.toNat + n.toNat)
    ∧ (∃ s : State, Alone s ∧ (s.coreOfGroup s.cur.g).flame = none ∧ (s.coreOfGroup s.cur.g).takers = [])
    ∧ (∃ (s : State) (h : Nat), Alone s ∧ (s.coreOfGroup s.cur.g).flame = some h ∧ h ≠ s.cur.g
      ∧ s.cur.g ∉ (s.coreOfGroup s.cur.g).takers)
    ∧ (∃ (a : SReg) (s : State) (h : Nat), Alone s ∧ Ready s [a.toNat] ∧ (s.me.rs a.toNat).toNat < 16
      ∧ s.member? (s.me.rs a.toNat).toNat = some h ∧ coreOf h = coreOf s.cur.g ∧ s.holdsFlame s.cur.g = true ∧ Quiet s)
    ∧ (∃ (a : SReg) (s : State) (h : Nat), Alone s ∧ Ready s [a.toNat] ∧ (s.me.rs a.toNat).toNat < 16
      ∧ s.member? (s.me.rs a.toNat).toNat = some h ∧ coreOf h = coreOf s.cur.g ∧ s.holdsFlame s.cur.g = false) := by
  refine ⟨⟨31, budgeted 32 0, { team0 with pool := 0 }, ?_⟩, ⟨31, budgeted 1 248, { team0 with pool := 248 }, ?_⟩,
    ⟨31, budgeted 1 247, { team0 with pool := 247 }, ?_⟩, ⟨32, budgeted 32 0, ?_⟩, ⟨1, budgeted 32 0, ?_⟩, ⟨ready, ?_⟩,
    ⟨flamed ready (some 1), 1, ?_⟩,
    ⟨1, flamed ((paired id id).setMe ((paired id id).me.ws 1 1)) (some 0), 1, ?_⟩,
    ⟨0, flamed (paired id id) none, 0, ?_⟩⟩
  all_goals decide +kernel

theorem wit_BatchesRetire :
    (∃ (d : SReg) (s : State), Ready s [d.toNat] ∧ s.me.inFlight.length < 63 ∧ s.me.nb = 0xFFFFFFFF)
    ∧ (∃ (a : SReg) (s : State), Ready s [a.toNat] ∧ s.me.rs a.toNat ≠ 0 ∧ (∀ b ∈ s.me.inFlight, b.1 ≠ s.me.rs a.toNat))
    ∧ (∃ (a : SReg) (s : State), Ready s [a.toNat] ∧ s.me.rs a.toNat ≠ 0 ∧ (∃ b ∈ s.me.inFlight, b.1 = s.me.rs a.toNat))
    ∧ (∃ (a : SReg) (s : State), Ready s [a.toNat] ∧ s.me.rs a.toNat = 0)
    ∧ (∃ (g : Nat) (s : State) (b : Word × Nat) (rest : List (Word × Nat)), (s.group g).inFlight = b :: rest
      ∧ (∀ x ∈ (s.group g).blocks, b.2 ≤ x.seq) ∧ (∀ e ∈ (s.coreOfGroup g).engine, e.g = g → b.2 ≤ e.block)) := by
  refine ⟨⟨63, withMe (fun x => { x with nb := 0xFFFFFFFF, inFlight := List.replicate 62 (1, 0) }), ?_⟩,
    ⟨1, withMe (fun x => { x with inFlight := [(2, 0)] }.ws 1 1), ?_⟩, ⟨1, withMe (fun x => { x with inFlight := [(2, 0)] }.ws 1 2), ?_⟩,
    ⟨1, ready, ?_⟩, ⟨0, withMe (fun x => { x with inFlight := [(1, 3)], blocks := [{ codeBlock with seq := 3 }] }), (1, 3), [], ?_⟩⟩
  all_goals decide +kernel

end Sys2Proof.Tests
end

section

namespace Sys2Proof.Proofs

open Sys2Proof.Machine Sys2Proof.Claims Sys2Proof.Laws

/-! ### Updates of the issuing group -/

/-- Listing a key twice leaves the second value. -/
theorem sparse_put_put {α : Type} (m : Sparse α) (k : Nat) (v w : α) :
    Sparse.put (Sparse.put m k v) k w = Sparse.put m k w := by
  induction m with
  | nil => simp [Sparse.put]
  | cons e rest ih =>
    obtain ⟨i, x⟩ := e
    simp only [Sparse.put]
    split
    · simp [Sparse.put]
    · split <;> simp_all [Sparse.put]

@[simp] theorem setMe_setMe (s : State) (x y : Machine.Group) : (s.setMe x).setMe y = s.setMe y := by
  simp only [State.setMe, State.setGroup, sparse_put_put]

/-- The issuing group goes on as `x`: the next state of every instruction that only changes its own group. -/
theorem advance_setMe (s : State) (x : Machine.Group) :
    (s.setMe x).advance = s.setMe (x.setSlot s.cur.slotB (x.slot s.cur.slotB).advance) := by
  simp only [State.advance, State.setSl, setMe_setMe, me_setMe, setMe_sl, setMe_cur]

theorem advance_eq_setMe (s : State) : s.advance = s.setMe (s.me.setSlot s.cur.slotB s.sl.advance) := rfl

theorem onlyGroup_refl (g : Nat) (s : State) : OnlyGroup g s s := ⟨rfl, fun _ _ => rfl, fun _ => rfl⟩

theorem onlyGroup_setGroup (s : State) (g : Nat) (x : Machine.Group) : OnlyGroup g s (s.setGroup g x) :=
  ⟨rfl, fun _ e => group_setGroup_other s x e, fun _ => rfl⟩

theorem onlyGroup_setMe (s : State) (x : Machine.Group) : OnlyGroup s.cur.g s (s.setMe x) := onlyGroup_setGroup s _ x

/-! ### The frame of an instruction on registers alone -/

/-- Two groups that differ in the listed scalar, mask and record registers alone. -/
def RegistersOnly (w : List Nat × List Nat × List Nat) (x y : Machine.Group) : Prop :=
  (∀ r, r ∉ w.1 → y.rs r = x.rs r) ∧ (∀ r, r ∉ w.2.1 → y.rk r = x.rk r) ∧ (∀ r, r ∉ w.2.2 → y.rb r = x.rb r)
    ∧ y = { x with s := y.s, k := y.k, b := y.b }

theorem registersOnly_refl (w : List Nat × List Nat × List Nat) (x : Machine.Group) : RegistersOnly w x x :=
  ⟨fun _ _ => rfl, fun _ _ => rfl, fun _ _ => rfl, rfl⟩

theorem registersOnly_ws (x : Machine.Group) (r : Nat) (v : Word) : RegistersOnly ([r], [], []) x (x.ws r v) := by
  refine ⟨fun q hq => rs_ws_other x v (by simpa using hq), fun q _ => ?_, fun q _ => ?_, ?_⟩
  · simp [Group.rk]
  · simp [Group.rb]
  · unfold Group.ws; split <;> rfl

theorem registersOnly_ws64 (x : Machine.Group) (r : Nat) (v : Dword) : RegistersOnly ([r, r + 1], [], []) x (x.ws64 r v) := by
  obtain ⟨hs, hk, hb, hx⟩ := registersOnly_ws x r (v.extractLsb' 0 32)
  obtain ⟨hs', hk', hb', hx'⟩ := registersOnly_ws (x.ws r (v.extractLsb' 0 32)) (r + 1) (v.extractLsb' 32 32)
  refine ⟨fun q hq => ?_, fun q hq => (hk' q hq).trans (hk q hq), fun q hq => (hb' q hq).trans (hb q hq), ?_⟩
  · simp only [List.mem_cons, List.not_mem_nil, or_false, not_or] at hq
    exact (hs' q (by simpa using hq.2)).trans (hs q (by simpa using hq.1))
  · rw [Group.ws64, hx', hx]

theorem registersOnly_wk (x : Machine.Group) (r : Nat) (v : Word) : RegistersOnly ([], [r], []) x (x.wk r v) :=
  ⟨fun _ _ => rfl, fun _ hq => rk_wk_other x v (by simpa using hq), fun _ _ => rfl, rfl⟩

/-- A stream that waits changes nothing. -/
theorem regsOnly_refl (w : List Nat × List Nat × List Nat) (s : State) : RegsOnly w.1 w.2.1 w.2.2 s s :=
  ⟨onlyGroup_refl _ s, fun _ _ => rfl, fun _ _ => rfl, fun _ _ => rfl, rfl, rfl, rfl⟩

/-- The issuing slot goes on, and nothing of the group changed but registers. -/
theorem regsOnly_advance {w : List Nat × List Nat × List Nat} {s : State} {x : Machine.Group} (h : RegistersOnly w s.me x) :
    RegsOnly w.1 w.2.1 w.2.2 s (s.setMe x).advance := by
  obtain ⟨hs, hk, hb, hx⟩ := h
  have hslot : x.slot s.cur.slotB = s.sl := by rw [hx]; rfl
  have hother : x.slot (!s.cur.slotB) = s.me.slot (!s.cur.slotB) := by rw [hx]; rfl
  have hsl : (s.setMe x).advance.sl = s.sl.advance := by rw [State.advance, sl_setSl, setMe_sl, hslot]
  rw [RegsOnly, hsl, advance_setMe, hslot]
  refine ⟨onlyGroup_setMe s _, fun r hr => ?_, fun r hr => ?_, fun r hr => ?_, ?_, ?_, rfl⟩ <;> rw [me_setMe]
  · simpa [Group.rs] using hs r hr
  · simpa [Group.rk] using hk r hr
  · simpa [Group.rb] using hb r hr
  · rw [hx]; cases s.cur.slotB <;> rfl
  · rw [slot_setSlot_other, hother]

theorem regsOnly_onRegs {w : List Nat × List Nat × List Nat} {rs : List SReg} {f : Machine.Group → Machine.Group} {s t : State}
    (hf : RegistersOnly w s.me (f s.me)) (h : onRegs rs f s = .next t) : RegsOnly w.1 w.2.1 w.2.2 s t := by
  unfold onRegs stall retire at h
  split at h <;> cases h
  · exact regsOnly_refl w s
  · exact regsOnly_advance hf

theorem guarded_of_fields {i : Instr} (h : scalarFields i = true) (s : State) (k : State → Res) : guarded i s k = k s :=
  if_pos h

end Sys2Proof.Proofs
end

section

namespace Sys2Proof.Proofs

open Sys2Proof.Machine Sys2Proof.Claims Sys2Proof.Laws

@[simp] theorem setMe_me_advance (s : State) : (s.setMe s.me).advance = s.advance := by
  rw [advance_setMe, advance_eq_setMe]; rfl

theorem regsOnly_go (s : State) : RegsOnly [] [] [] s s.advance := by
  simpa only [setMe_me_advance] using regsOnly_advance (registersOnly_refl ([], [], []) s.me)

theorem regsOnly_alu2 {f : Word → Word → Word} {d a b : SReg} {s t : State} (h : alu2 f d a b s = .next t) :
    RegsOnly [d.toNat] [] [] s t :=
  regsOnly_onRegs (registersOnly_ws s.me _ _) h

theorem regsOnly_alu1 {f : Word → Word} {d a : SReg} {s t : State} (h : alu1 f d a s = .next t) :
    RegsOnly [d.toNat] [] [] s t :=
  regsOnly_onRegs (registersOnly_ws s.me _ _) h

theorem regsOnly_aluPairs {i : Instr} {f : Dword → Dword → Dword} {d a b : SReg} {s t : State} (hi : scalarFields i = true)
    (h : guarded i s (aluPairs f d a b) = .next t) : RegsOnly [d.toNat, d.toNat + 1] [] [] s t :=
  regsOnly_onRegs (registersOnly_ws64 s.me _ _) ((guarded_of_fields hi s _).symm.trans h)

theorem regsOnly_aluShift64 {i : Instr} {f : Dword → Nat → Dword} {d a b : SReg} {s t : State} (hi : scalarFields i = true)
    (h : guarded i s (aluShift64 f d a b) = .next t) : RegsOnly [d.toNat, d.toNat + 1] [] [] s t :=
  regsOnly_onRegs (registersOnly_ws64 s.me _ _) ((guarded_of_fields hi s _).symm.trans h)

theorem regsOnly_mask2 {f : Word → Word → Word} {d a b : KReg} {s t : State} (h : mask2 f d a b s = .next t) :
    RegsOnly [] [d.toNat] [] s t := by
  cases h
  exact regsOnly_advance (registersOnly_wk s.me _ _)

theorem regsOnly_maskGet {f : Word → Word} {a : KReg} {x : SReg} {s t : State} (h : maskGet f a x s = .next t) :
    RegsOnly [x.toNat] [] [] s t :=
  regsOnly_onRegs (registersOnly_ws s.me _ _) h

theorem regsOnly_brget {d : SReg} {b : BReg} {n : BitVec 8} {s t : State} (hi : scalarFields (.brget d b n) = true)
    (h : execBrget d b n s = .next t) : RegsOnly [d.toNat] [] [] s t := by
  rw [execBrget, guarded_of_fields hi] at h
  unfold stall at h
  split at h
  · cases h; exact regsOnly_refl ([d.toNat], [], []) s
  · exact regsOnly_onRegs (registersOnly_ws s.me _ _) h

/-- The frame, with the registers of the instruction in one triple. -/
theorem regsOnly_of_writesOf {i : Instr} {s t : State} {w : List Nat × List Nat × List Nat} (hw : writesOf i = some w)
    (hi : scalarFields i = true) (h : exec i s = .next t) : RegsOnly w.1 w.2.1 w.2.2 s t := by
  unfold exec at h
  cases i with
  | nop => cases hw; cases h; exact regsOnly_go s
  | add | sub | mul | mulh | mulhn | div | divn | rem | remn | and | or | xor | andn | shl | shr | sar | rotl | min | max
  | minn | maxn | seq | sne | slt | sltn | sle | slen | selz => cases hw; exact regsOnly_alu2 h
  | clz | popc | brev | addi | andi | ori | xori | shli | shri | sari | slti | sltni | muli => cases hw; exact regsOnly_alu1 h
  | lih => cases hw; exact regsOnly_onRegs (registersOnly_ws s.me _ _) h
  | add64 | sub64 => cases hw; exact regsOnly_aluPairs hi h
  | shl64 | shr64 | sar64 => cases hw; exact regsOnly_aluShift64 hi h
  | movp => cases hw; exact regsOnly_onRegs (registersOnly_ws64 s.me _ _) ((guarded_of_fields hi s _).symm.trans h)
  | kand | kor | kxor | kandn | knot | kmov => cases hw; exact regsOnly_mask2 h
  | xmget => cases hw; cases h; exact regsOnly_advance (registersOnly_wk s.me _ _)
  | kset => cases hw; exact regsOnly_onRegs (registersOnly_wk s.me _ _) h
  | kget | kpop | kff => cases hw; exact regsOnly_maskGet h
  | brget => cases hw; exact regsOnly_brget hi h
  | _ => cases hw

/-- Settles O1: each of these instructions changes the registers that it names and its slot's pc and loops, or waits. -/
theorem registerFrame : Obligations.RegisterFrame := by
  intro i s t ds ks bs hw hi h
  exact ⟨regsOnly_of_writesOf hw hi h, rs_zero t.me⟩

end Sys2Proof.Proofs
end

section

namespace Sys2Proof.Proofs

open Sys2Proof.Machine Sys2Proof.Claims Sys2Proof.Laws

/-- What was decoded, as an option: equality of options is decided by running the decoder. -/
def accepted {α : Type} : Except Reject α → Option α
  | .ok a => some a
  | .error _ => none

/-- Why a word was refused, as an option. -/
def refusedFor {α : Type} : Except Reject α → Option Reject
  | .ok _ => none
  | .error e => some e

theorem eq_ok_of_accepted {α : Type} {r : Except Reject α} {a : α} (h : accepted r = some a) : r = .ok a := by
  cases r with
  | ok b => cases h; rfl
  | error e => cases h

theorem eq_error_of_refusedFor {α : Type} {r : Except Reject α} {e : Reject} (h : refusedFor r = some e) : r = .error e := by
  cases r with
  | ok b => cases h
  | error f => cases h; rfl

/-- The listed lane word adds registers 2 and 3 into 4 and ends its block. -/
theorem vadd_word_decodes : ∃ f, readLane 0x000004020300800000000000 = .ok (.instr (.vadd f)) ∧ f.vd = 4 ∧ f.va = 2 ∧ f.vb = 3
    ∧ f.ty = 0 ∧ f.e = true :=
  ⟨laOf 0x000004020300800000000000, eq_ok_of_accepted (by decide +kernel), by decide +kernel, by decide +kernel,
    by decide +kernel, by decide +kernel, by decide +kernel⟩

/-- Settles O23: the decoder is run on each of the words. -/
theorem wordsDecode : Obligations.WordsDecode := by
  refine ⟨eq_ok_of_accepted ?_, eq_ok_of_accepted ?_, eq_ok_of_accepted ?_, eq_ok_of_accepted ?_, eq_ok_of_accepted ?_,
    eq_ok_of_accepted ?_, eq_ok_of_accepted ?_, eq_ok_of_accepted ?_, eq_ok_of_accepted ?_, eq_ok_of_accepted ?_,
    eq_ok_of_accepted ?_, vadd_word_decodes, eq_error_of_refusedFor ?_⟩
  all_goals decide +kernel

end Sys2Proof.Proofs
end

section

namespace Sys2Proof.Proofs

open Sys2Proof.Machine Sys2Proof.Claims Sys2Proof.Laws

/-! ### Lane instructions: the checks at issue and the block's advance -/

theorem endsBlock_eq_testBit (w : Nat) : endsBlock w = w.testBit 47 := by
  rw [endsBlock, Nat.testBit_eq_decide_div_mod_eq]; rfl

theorem inBudget_iff (x : Machine.Group) (rs : List (Nat × Nat)) :
    x.inBudget rs = true ↔ ∀ r ∈ rs, r.1 + r.2 ≤ 8 * x.csr.budget.toNat := by
  simp [Machine.Group.inBudget]

/-- R12, R16, R19: what a completed lane instruction leaves of its block. -/
theorem laneBlockAdvances : LaneBlockAdvances := by
  intro l s
  rw [State.laneDone, endsBlock_eq_testBit]
  cases l.w.testBit 47 with
  | true => exact ⟨_, rfl, rfl, fun _ => rfl, Bool.noConfusion⟩
  | false => exact ⟨_, rfl, rfl, Bool.noConfusion, fun _ => ⟨rfl, rfl⟩⟩

/-- A lane instruction that fails a check at issue traps, with no lane named. -/
theorem laneOp_of_trap {i : Instr} {kq : KReg} {need : Need} {s : State} {b : Block} {k : Lane → State → Res} {c : Nat}
    (hb : s.me.headBlock = some b) (h : s.issueTrap (s.me.laneAt b (laneWord i) kq) (formOf i) kq need = some c) :
    laneOp i kq need s k = .next (s.laneTrap (s.me.laneAt b (laneWord i) kq) c 0 0) := by
  simp only [laneOp, laneGate, hb, h]

/-- One that passes them and waits for nothing runs. -/
theorem laneOp_of_ready {i : Instr} {kq : KReg} {need : Need} {s : State} {b : Block} {k : Lane → State → Res}
    (hb : s.me.headBlock = some b) (h : s.issueTrap (s.me.laneAt b (laneWord i) kq) (formOf i) kq need = none)
    (hw : s.laneBusy (formOf i) = false) :
    laneOp i kq need s k = k (s.me.laneAt b (laneWord i) kq) s := by
  simp only [laneOp, laneGate, hb, h, hw, Bool.false_eq_true, if_false]

/-- Two conditions in turn with one answer. -/
theorem same_of_either {α : Type} (p q : Prop) [Decidable p] [Decidable q] (a b : α) :
    (if p then a else if q then a else b) = if p ∨ q then a else b := by
  by_cases hp : p
  · rw [if_pos hp, if_pos (.inl hp)]
  · simp only [hp, if_false, false_or]

/-- The checks at issue in the order of R56, as statements about the fields. -/
theorem issueTrap_eq (s : State) (l : Lane) (form : LaneForm) (kq : KReg) (need : Need) :
    s.issueTrap l form kq need =
      if form.ok = false ∨ ¬(∀ r ∈ form.reads ++ form.writes, r.1 + r.2 ≤ 8 * s.me.csr.budget.toNat)
        ∨ (need.rnd = 6 ∧ 5 ≤ l.b.frm.toNat % 8) then some causeIllegal
      else if need.all = true ∧ ¬(kq = 0 ∧ l.b.mask = fullMask) then some causeIllconv
      else if need.flame = true ∧ s.holdsFlame s.cur.g = false then some causeFlame
      else if need.badFormat s.me l.b = true then some causeIllfmt
      else none := by
  have fields : (!form.ok || !s.me.inBudget (form.reads ++ form.writes)) = true
      ↔ form.ok = false ∨ ¬(∀ r ∈ form.reads ++ form.writes, r.1 + r.2 ≤ 8 * s.me.csr.budget.toNat) := by
    rw [← inBudget_iff]; simp
  have lanes : (need.all = true ∧ (kq ≠ 0 ∨ l.b.mask ≠ fullMask)) ↔ need.all = true ∧ ¬(kq = 0 ∧ l.b.mask = fullMask) := by
    rw [Decidable.not_and_iff_not_or_not]
  simp only [State.issueTrap, fields, lanes, same_of_either, or_assoc]

theorem laneIssueChecks : LaneIssueChecks := by
  intro i kq need s b k hb bad1 bad2 bad3 bad4 traps
  have issue := issueTrap_eq s (s.me.laneAt b (laneWord i) kq) (formOf i) kq need
  have hl : (s.me.laneAt b (laneWord i) kq).b = b := rfl
  rw [hl] at issue
  refine ⟨fun h1 => ?_, fun h1 h2 => ?_, fun h1 h2 h3 => ?_, fun h1 h2 h3 h4 => ?_, fun h1 h2 h3 h4 => ?_⟩
  · exact laneOp_of_trap hb (issue.trans (if_pos h1))
  · exact laneOp_of_trap hb (issue.trans ((if_neg h1).trans (if_pos h2)))
  · exact laneOp_of_trap hb (issue.trans ((if_neg h1).trans ((if_neg h2).trans (if_pos h3))))
  · exact laneOp_of_trap hb (issue.trans ((if_neg h1).trans ((if_neg h2).trans ((if_neg h3).trans (if_pos h4)))))
  · exact laneOp_of_ready hb (issue.trans ((if_neg h1).trans ((if_neg h2).trans ((if_neg h3).trans (if_neg h4)))))

/-- Settles O39, from the block's advance and the order of the checks. -/
theorem laneBlocks : Obligations.LaneBlocks := ⟨laneBlockAdvances, laneIssueChecks⟩

end Sys2Proof.Proofs
end

section

namespace Sys2Proof.Proofs

open Sys2Proof.Machine Sys2Proof.Claims Sys2Proof.Laws

/-! ### CSRs -/

/-- An instruction on registers none of which is awaited. -/
theorem onRegs_of_ready {rs : List SReg} {f : Machine.Group → Machine.Group} {s : State} (h : Ready s (rs.map (·.toNat))) :
    onRegs rs f s = .next (s.setMe (f s.me)).advance := by
  rw [onRegs, if_neg (by rw [h]; decide), retire]

theorem toNat_succ_of_even {r : SReg} (h : EvenReg r) : (r + 1).toNat = r.toNat + 1 := by
  have := r.isLt
  rw [BitVec.toNat_add, show (1 : SReg).toNat = 1 from rfl, Nat.mod_eq_of_lt (by omega)]

theorem pairReg_iff (r : SReg) : pairReg r = true ↔ EvenReg r := by
  simp [pairReg]

theorem csrDenied_of_privileged {s : State} {c : Nat} (h : 0x800 ≤ c → s.me.ident.privileged = true) : s.csrDenied c = false := by
  by_cases hc : 0x800 ≤ c <;> simp [State.csrDenied, hc, h]

theorem csrDenied_of_high {s : State} {c : Nat} (h : 0x800 ≤ c) (hp : s.me.ident.privileged = false) : s.csrDenied c = true := by
  simp [State.csrDenied, h, hp]

/-- LCB is read as a pair, and has no value as a word. -/
theorem csrRead_lcb (s : State) : s.csrRead 3 = none := rfl

theorem execCsrr_of_denied {d : SReg} {c : BitVec 12} {s : State} (h : s.csrDenied c.toNat = true) :
    execCsrr d c s = illegal (.csrr d c) s := if_pos h

/-- A word CSR that the group may reach. -/
theorem execCsrr_of_word {d : SReg} {c : BitVec 12} {s : State} {v : Word} (hd : s.csrDenied c.toNat = false)
    (hv : s.csrRead c.toNat = some v) : execCsrr d c s = onRegs [d] (fun x => x.ws d.toNat v) s := by
  have hc : c ≠ 3 := by rintro rfl; rw [show (3 : BitVec 12).toNat = 3 from rfl, csrRead_lcb] at hv; cases hv
  simp only [execCsrr, hd, hc, hv, Bool.false_eq_true, if_false]

theorem execCsrr_of_unassigned {d : SReg} {c : BitVec 12} {s : State} (hc : c ≠ 3) (hv : s.csrRead c.toNat = none) :
    execCsrr d c s = illegal (.csrr d c) s := by
  simp only [execCsrr, hc, hv, if_false, ite_self]

theorem execCsrr_lcb {d : SReg} {s : State} (hd : EvenReg d) :
    execCsrr d 3 s = onRegs (pairOf d) (fun x => x.ws64 d.toNat x.ident.lcb) s := by
  have hden : s.csrDenied (3 : BitVec 12).toNat = false := csrDenied_of_privileged (fun h => absurd h (by decide))
  simp only [execCsrr, hden, (pairReg_iff d).2 hd, Bool.false_eq_true, Bool.not_true, if_false, if_true]

/-- The refusals of CSRW, CSRS and CSRC, whatever they would write. -/
theorem csrUpdate_of_refused {i : Instr} {f : Word → Word → Word} {a : SReg} {c : BitVec 12} {s : State}
    (h : s.csrDenied c.toNat = true ∨ csrReadOnly c.toNat = true) : csrUpdate i f a c s = illegal i s := by
  unfold csrUpdate
  split
  · rfl
  · rw [if_pos (by simpa using h)]

theorem csrUpdate_of_unassigned {i : Instr} {f : Word → Word → Word} {a : SReg} {c : BitVec 12} {s : State}
    (h : s.csrRead c.toNat = none) : csrUpdate i f a c s = illegal i s := by
  simp only [csrUpdate, h]

/-- A CSR that the group may write takes the new value, or refuses it. -/
theorem csrUpdate_of_writable {i : Instr} {f : Word → Word → Word} {a : SReg} {c : BitVec 12} {s : State} {v : Word}
    (hv : s.csrRead c.toNat = some v) (hd : s.csrDenied c.toNat = false) (hr : csrReadOnly c.toNat = false)
    (ha : Ready s [a.toNat]) :
    csrUpdate i f a c s = match s.csrWrite c.toNat (f v (s.me.rs a.toNat)) with
      | none => illegal i s
      | some t => .next t.advance := by
  have ha' : s.me.pendingS s.cur.slotB [a.toNat] = false := ha
  simp only [csrUpdate, hv, hd, hr, ha', Bool.or_self, Bool.false_eq_true, if_false]
  rfl

theorem csrUpdate_of_written {i : Instr} {f : Word → Word → Word} {a : SReg} {c : BitVec 12} {s t : State} {v : Word}
    (hv : s.csrRead c.toNat = some v) (hd : s.csrDenied c.toNat = false) (hr : csrReadOnly c.toNat = false)
    (ha : Ready s [a.toNat]) (ht : s.csrWrite c.toNat (f v (s.me.rs a.toNat)) = some t) :
    csrUpdate i f a c s = .next t.advance := by
  rw [csrUpdate_of_writable hv hd hr ha, ht]

theorem csrUpdate_of_refused_value {i : Instr} {f : Word → Word → Word} {a : SReg} {c : BitVec 12} {s : State} {v : Word}
    (hv : s.csrRead c.toNat = some v) (hd : s.csrDenied c.toNat = false) (hr : csrReadOnly c.toNat = false)
    (ha : Ready s [a.toNat]) (ht : s.csrWrite c.toNat (f v (s.me.rs a.toNat)) = none) :
    csrUpdate i f a c s = illegal i s := by
  rw [csrUpdate_of_writable hv hd hr ha, ht]

theorem exec_csrw_eq (a : SReg) (c : BitVec 12) (s : State) :
    exec (.csrw a c) s = csrUpdate (.csrw a c) (fun _ v => v) a c s := rfl
theorem exec_csrs_eq (a : SReg) (c : BitVec 12) (s : State) :
    exec (.csrs a c) s = csrUpdate (.csrs a c) (fun o v => o ||| v) a c s := rfl
theorem exec_csrc_eq (a : SReg) (c : BitVec 12) (s : State) :
    exec (.csrc a c) s = csrUpdate (.csrc a c) (fun o v => o &&& ~~~v) a c s := rfl

theorem csrAccess : CsrAccess := by
  unfold CsrAccess
  simp only [exec_csrr, exec_csrw_eq, exec_csrs_eq, exec_csrc_eq]
  refine ⟨fun d c s v hv hp hs => ?_, fun d s hd hs => ?_, fun a c s v hv hp hr hs => ?_, fun r c s hv hc => ⟨?_, ?_⟩,
    fun r c s h => ?_, fun r c s hc hp => ?_⟩
  · rw [execCsrr_of_word (csrDenied_of_privileged hp) hv, onRegs_of_ready hs, wrote]
  · have hs' : Ready s ((pairOf d).map (·.toNat)) := by simpa only [pairOf, List.map, toNat_succ_of_even hd] using hs
    rw [execCsrr_lcb hd, onRegs_of_ready hs', wrotePair]
  · have hd := csrDenied_of_privileged hp
    exact ⟨fun t ht => csrUpdate_of_written hv hd hr hs ht, fun t ht => csrUpdate_of_written hv hd hr hs ht,
      fun t ht => csrUpdate_of_written hv hd hr hs ht⟩
  · exact execCsrr_of_unassigned hc hv
  · exact csrUpdate_of_unassigned hv
  · have refused : s.csrDenied c.toNat = true ∨ csrReadOnly c.toNat = true :=
      h.symm.imp (fun h => csrDenied_of_high h.1 h.2) id
    exact ⟨csrUpdate_of_refused refused, csrUpdate_of_refused refused, csrUpdate_of_refused refused⟩
  · exact execCsrr_of_denied (csrDenied_of_high hc hp)

/-- The value that PART holds after a write that is not refused: three bits. -/
theorem and_seven (v : Word) : v &&& 7 = BitVec.ofNat 32 (v.toNat % 8) := by
  apply BitVec.eq_of_toNat_eq
  rw [BitVec.toNat_and, BitVec.toNat_ofNat, Nat.mod_eq_of_lt (by omega)]
  exact Nat.and_two_pow_sub_one_eq_mod v.toNat 3

theorem csrWrite_part (s : State) (v : Word) :
    s.csrWrite 1 v = if 5 ≤ v.toNat % 8 then none else some (s.setMe { s.me with csr := { s.me.csr with part := v &&& 7 } }) := rfl

theorem partWrites : PartWrites := by
  intro a s ha
  have hd : s.csrDenied (1 : BitVec 12).toNat = false := csrDenied_of_privileged (fun h => absurd h (by decide))
  have hv : s.csrRead (1 : BitVec 12).toNat = some s.me.csr.part := rfl
  have write := csrWrite_part s (s.me.rs a.toNat)
  rw [exec_csrw_eq]
  refine ⟨fun h => ?_, fun h => ?_⟩
  · rw [if_pos h] at write
    exact csrUpdate_of_refused_value hv hd rfl ha write
  · rw [if_neg (by omega)] at write
    refine ⟨_, csrUpdate_of_written hv hd rfl ha write, ?_, ?_⟩ <;> rw [advance_setMe]
    · exact onlyGroup_setMe s _
    · rw [me_setMe, setSlot_csr, and_seven]

/-- Settles O34, from the reads and writes of CSRs and the rule of PART. -/
theorem csrs : Obligations.Csrs := ⟨csrAccess, partWrites⟩

end Sys2Proof.Proofs
end

section

namespace Sys2Proof.Proofs

open Sys2Proof.Machine Sys2Proof.Claims Sys2Proof.Laws

/-! ### LRUN, WAITC and SLEEP -/

theorem execLrun_of_past {k : KReg} {r : Bool} {b : BitVec 20} {s : State} (h : s.me.ident.laneSize ≤ b.toNat * 12) :
    execLrun k r b s = illegal (.lrun k r b) s := if_pos h

theorem execLrun_of_empty {k : KReg} {r : Bool} {b : BitVec 20} {s : State} (h : b.toNat * 12 < s.me.ident.laneSize)
    (hk : s.snapshot k = 0) : execLrun k r b s = .next s.advance := by
  rw [execLrun, if_neg (by omega), if_pos hk, retire]

theorem execLrun_of_full {k : KReg} {r : Bool} {b : BitVec 20} {s : State} (h : b.toNat * 12 < s.me.ident.laneSize)
    (hk : s.snapshot k ≠ 0) (hq : s.me.queueFull = true) : execLrun k r b s = .next s := by
  rw [execLrun, if_neg (by omega), if_neg hk, if_pos (by simp [hq]), stall]

theorem execLrun_of_room {k : KReg} {r : Bool} {b : BitVec 20} {s : State} (h : b.toNat * 12 < s.me.ident.laneSize)
    (hk : s.snapshot k ≠ 0) (hq : s.me.queueFull = false) (hb : s.blockCount s.cur.g < 16)
    (hr : Ready s ((List.range 16).map (48 + ·))) :
    execLrun k r b s
      = .next (s.setMe { s.me.bump with blocks := s.me.blocks ++ [s.newBlock b.toNat (s.snapshot k) r] }).advance := by
  have hr' : s.me.pendingS s.cur.slotB ((List.range 16).map (48 + ·)) = false := hr
  rw [execLrun, if_neg (by omega), if_neg hk, if_neg (by simp [hq, hr', hb]), retire]

theorem newBlock_args (s : State) (n : Nat) (m : Word) (d : Bool) {i : Nat} (h : i < 16) :
    (s.newBlock n m d).args.getD i 0 = s.me.rs (48 + i) := by
  simp [State.newBlock, List.getD_eq_getElem?_getD, h]

/-- The issuing slot goes on in a group whose slots are as before. -/
theorem slotKept_advance_setMe {s : State} {x : Machine.Group} (h : x.slot s.cur.slotB = s.sl) :
    SlotKept s.sl (s.setMe x).advance.sl := by
  rw [State.advance, sl_setSl, setMe_sl, h]; rfl

theorem lrunEnqueues : LrunEnqueues := by
  intro k r b s
  rw [exec_lrun]
  refine ⟨execLrun_of_past, execLrun_of_empty, fun h hk hq hb hr => ?_, execLrun_of_full⟩
  refine ⟨_, s.newBlock b.toNat (s.snapshot k) r, execLrun_of_room h hk hq hb hr, ?_, rfl, rfl, rfl, rfl, rfl, rfl, rfl,
    fun i hi => newBlock_args s _ _ _ hi, rfl, rfl, ?_, slotKept_advance_setMe rfl⟩ <;> rw [advance_setMe]
  · rw [me_setMe, setSlot_blocks]
  · exact onlyGroup_setMe s _

/-- The limits of WAITC as R20 states them. -/
theorem countsWithin_iff (s : State) (b l st c t : BitVec 4) :
    s.countsWithin s.cur.g b.toNat l.toNat st.toNat c.toNat t.toNat = true
      ↔ Within b (s.blockCount s.cur.g) ∧ Within l s.me.loadCount ∧ Within st s.me.storeCount ∧ Within c s.me.copies
        ∧ Within t s.me.batchCount := by
  have limit (n : BitVec 4) : n.toNat = 15 ↔ n = 15 := by rw [← BitVec.toNat_inj]; rfl
  simp only [State.countsWithin, Within, limit, Bool.and_eq_true, Bool.or_eq_true, decide_eq_true_eq, and_assoc]
  rfl

theorem execSleepExpiry_of_due {g : Nat} {b : Bool} {s : State} {n : Nat} (hn : ((s.group g).slot b).sleep = some n)
    (h : n ≤ s.ck) :
    execSleepExpiry g b s = .next (s.setGroup g ((s.group g).setSlot b { (s.group g).slot b with sleep := none })) := by
  simp only [execSleepExpiry, hn, h, if_true]

theorem execSleepExpiry_of_early {g : Nat} {b : Bool} {s : State} {n : Nat} (hn : ((s.group g).slot b).sleep = some n)
    (h : s.ck < n) : execSleepExpiry g b s = .next s := by
  simp only [execSleepExpiry, hn, Nat.not_le.mpr h, if_false, stall]

theorem waitsAndSleep : WaitsAndSleep := by
  refine ⟨fun b l st c tb s => ⟨fun h => ?_, fun h => ?_⟩, fun n s hn => ?_, fun g b s n hs hn => ?_,
    fun g b s n hs hn => ?_⟩
  · rw [exec_waitc, execWaitc, if_pos ((countsWithin_iff s b l st c tb).2 h), retire]
  · rw [exec_waitc, execWaitc, if_neg (mt (countsWithin_iff s b l st c tb).1 h), stall]
  · rw [exec_sleep, execSleep, guarded_of_fields (by simpa [scalarFields] using hn), retire]
  · refine ⟨_, (exec_sleepExpiry g b s).trans (execSleepExpiry_of_due hs hn), onlyGroup_setGroup s g _, ?_⟩
    rw [group_setGroup_same, slot_setSlot_same]
  · exact (exec_sleepExpiry g b s).trans (execSleepExpiry_of_early hs hn)

/-- Settles O33, from LRUN's entry, the counters' limits and the expiry of SLEEP. -/
theorem streamControl : Obligations.StreamControl := ⟨lrunEnqueues, waitsAndSleep⟩

end Sys2Proof.Proofs
end

section

namespace Sys2Proof.Proofs

open Sys2Proof.Machine Sys2Proof.Claims Sys2Proof.Laws

/-! ### Lines of a sector (R220) -/

theorem lineOf_lineByte (col : Bool) {line k : Nat} (hl : line < 32) (hk : k < 32) : lineOf col (lineByte col line k) = line := by
  cases col <;> simp only [lineOf, lineByte, Bool.false_eq_true, if_true, if_false] <;> omega

theorem lineByte_lt (col : Bool) {line k : Nat} (hl : line < 32) (hk : k < 32) : lineByte col line k < 1024 := by
  cases col <;> simp only [lineByte, Bool.false_eq_true, if_true, if_false] <;> omega

theorem lineOf_lt (col : Bool) {o : Nat} (h : o < 1024) : lineOf col o < 32 := by
  cases col <;> simp only [lineOf, Bool.false_eq_true, if_true, if_false] <;> omega

/-- Every byte of a sector stands on its line. -/
theorem exists_lineByte (col : Bool) {o : Nat} (h : o < 1024) : ∃ k, k < 32 ∧ lineByte col (lineOf col o) k = o := by
  cases col
  · exact ⟨o % 32, by omega, by simp only [lineOf, lineByte, Bool.false_eq_true, if_false]; omega⟩
  · exact ⟨o / 32, by omega, by simp only [lineOf, lineByte, if_true]; omega⟩

theorem getLsbD_setBit (w : Word) {i : Nat} (j : Nat) (h : i < 32) :
    (setBit w i).getLsbD j = (w.getLsbD j || decide (j = i)) := by
  rw [setBit, BitVec.getLsbD_or, BitVec.getLsbD_ofNat, Nat.testBit_two_pow]
  congr 1
  by_cases e : i = j
  · subst e; simp [h]
  · simp [e, Ne.symm e]

/-- Writing the keys that a list names, each with the value that `val` gives it. -/
theorem get_foldl_set {α : Type} [DecidableEq α] (d : α) {key : Nat → Nat} {f val : Nat → α} (hf : ∀ k, f k = val (key k))
    (l : List Nat) (m : Sparse α) (o : Nat) :
    Sparse.get d (l.foldl (fun b k => Sparse.set d b (key k) (f k)) m) o
      = if o ∈ l.map key then val o else Sparse.get d m o := by
  induction l generalizing m with
  | nil => simp
  | cons k rest ih =>
    rw [List.foldl_cons, ih, List.map_cons]
    by_cases hr : o ∈ rest.map key
    · simp [hr]
    · by_cases hk : o = key k
      · subst hk; simp [hf]
      · rw [if_neg hr, if_neg (by simp_all), sparse_get_set_other d m _ hk]

/-! ### What a read of a sector returns -/

/-- Byte `o` of sector `n`: the sector's where its line is valid, else memory's. -/
def Sector.byteOr (m : Memory) (n : Nat) (x : Sector) (o : Nat) : Byte :=
  if x.valid.getLsbD (lineOf x.col o) then Sparse.get 0 x.bytes o else m.read (n * 1024 + o)

/-- Clean valid lines hold what memory holds. -/
def Sector.Agrees (m : Memory) (n : Nat) (x : Sector) : Prop :=
  ∀ o, o < 1024 → x.valid.getLsbD (lineOf x.col o) = true → x.dirty.getLsbD (lineOf x.col o) = false →
    Sparse.get 0 x.bytes o = m.read (n * 1024 + o)

/-- `y` is `x` with more lines brought from memory. -/
structure Refills (m : Memory) (n : Nat) (x y : Sector) : Prop where
  col : y.col = x.col
  dirty : y.dirty = x.dirty
  valid : ∀ i, x.valid.getLsbD i = true → y.valid.getLsbD i = true
  byte : ∀ o, o < 1024 → Sector.byteOr m n y o = Sector.byteOr m n x o

theorem refills_refl (m : Memory) (n : Nat) (x : Sector) : Refills m n x x := ⟨rfl, rfl, fun _ h => h, fun _ _ => rfl⟩

theorem Refills.trans {m : Memory} {n : Nat} {x y z : Sector} (a : Refills m n x y) (b : Refills m n y z) : Refills m n x z :=
  ⟨b.col.trans a.col, b.dirty.trans a.dirty, fun i h => b.valid i (a.valid i h), fun o h => (b.byte o h).trans (a.byte o h)⟩

theorem Refills.agrees {m : Memory} {n : Nat} {x y : Sector} (r : Refills m n x y) (h : Sector.Agrees m n x) :
    Sector.Agrees m n y := by
  intro o ho hv hd
  have hb := r.byte o ho
  rw [Sector.byteOr, if_pos hv] at hb
  rw [hb, Sector.byteOr]
  split
  · next hx => exact h o ho hx (by rwa [r.col, r.dirty] at hd)
  · rfl

theorem fillLine_valid (m : Memory) (n : Nat) (x : Sector) {line : Nat} (hl : line < 32) (i : Nat) :
    (Sector.fillLine m n x line).valid.getLsbD i = (x.valid.getLsbD i || decide (i = line)) := by
  rw [Sector.fillLine]
  split
  · next h => by_cases e : i = line <;> simp_all
  · exact getLsbD_setBit x.valid i hl

theorem refills_fillLine (m : Memory) (n : Nat) (x : Sector) {line : Nat} (hl : line < 32) :
    Refills m n x (Sector.fillLine m n x line) := by
  by_cases hv : x.valid.getLsbD line = true
  · rw [Sector.fillLine, if_pos hv]; exact refills_refl m n x
  · have hcol : (Sector.fillLine m n x line).col = x.col := by rw [Sector.fillLine, if_neg hv]
    refine ⟨hcol, by rw [Sector.fillLine, if_neg hv], fun i hi => by rw [fillLine_valid m n x hl, hi, Bool.true_or], fun o ho => ?_⟩
    have hbytes : Sparse.get 0 (Sector.fillLine m n x line).bytes o
        = if lineOf x.col o = line then m.read (n * 1024 + o) else Sparse.get 0 x.bytes o := by
      have onLine : o ∈ (List.range 32).map (lineByte x.col line) ↔ lineOf x.col o = line := by
        simp only [List.mem_map, List.mem_range]
        constructor
        · rintro ⟨k, hk, rfl⟩; exact lineOf_lineByte x.col hl hk
        · rintro rfl; exact exists_lineByte x.col ho
      rw [Sector.fillLine, if_neg hv]
      refine (get_foldl_set 0 (val := fun o => m.read (n * 1024 + o)) (fun _ => rfl) _ _ _).trans ?_
      simp only [onLine]
    rw [Sector.byteOr, Sector.byteOr, hcol, fillLine_valid m n x hl, hbytes]
    by_cases e : lineOf x.col o = line <;> simp_all

theorem refills_foldl_fillLine (m : Memory) (n : Nat) (x : Sector) {ls : List Nat} (h : ∀ l ∈ ls, l < 32) :
    Refills m n x (ls.foldl (Sector.fillLine m n) x) :=
  List.foldlRecOn (motive := fun y => Refills m n x y) ls _ (refills_refl m n x)
    (fun y hy l hl => hy.trans (refills_fillLine m n y (h l hl)))

theorem refills_fill (m : Memory) (n : Nat) (x : Sector) : Refills m n x (x.fill m n) :=
  refills_foldl_fillLine m n x (fun _ h => List.mem_range.1 h)

/-- After a fill every line is valid. -/
theorem fill_valid (m : Memory) (n : Nat) (x : Sector) {i : Nat} (hi : i < 32) : (x.fill m n).valid.getLsbD i = true := by
  have lines (ls : List Nat) (h : ∀ l ∈ ls, l < 32) (him : i ∈ ls) (x : Sector) :
      (ls.foldl (Sector.fillLine m n) x).valid.getLsbD i = true := by
    induction ls generalizing x with
    | nil => cases him
    | cons l rest ih =>
      have hrest : ∀ l ∈ rest, l < 32 := fun l hl => h l (List.mem_cons_of_mem _ hl)
      rcases List.mem_cons.1 him with rfl | him
      · exact (refills_foldl_fillLine m n _ hrest).valid i (by rw [fillLine_valid m n x hi]; simp)
      · exact ih hrest him _
  exact lines _ (fun _ h => List.mem_range.1 h) (List.mem_range.2 hi) x

theorem mem_of_mem_distinct {α : Type} [DecidableEq α] {l : List α} {a : α} (h : a ∈ distinct l) : a ∈ l := by
  induction l with
  | nil => exact h
  | cons b rest ih =>
    rcases List.mem_cons.1 h with rfl | h
    · exact List.mem_cons_self
    · exact List.mem_cons_of_mem _ (ih (List.mem_filter.1 h).1)

theorem refills_ensure (m : Memory) (n : Nat) (x : Sector) (col : Bool) {offs : List Nat} (h : ∀ o ∈ offs, o < 1024) :
    Refills m n x (x.ensure m n col offs) := by
  rw [Sector.ensure]
  split
  · refine refills_foldl_fillLine m n x fun l hl => ?_
    obtain ⟨o, ho, rfl⟩ := List.mem_map.1 (mem_of_mem_distinct hl)
    exact lineOf_lt col (h o ho)
  · exact refills_fill m n x

/-- The flip of the axis changes no byte: every line is valid on both axes. -/
theorem record_byteOr (m : Memory) (n : Nat) (x : Sector) (col : Bool) {o : Nat} (ho : o < 1024) :
    Sector.byteOr m n (x.record m n col) o = Sector.byteOr m n x o := by
  rw [Sector.record]
  split
  · have r := refills_fill m n { x with axes := (col :: x.axes).take 8 }
    refine Eq.trans ?_ (r.byte o ho)
    rw [Sector.byteOr, Sector.byteOr, if_pos (fill_valid m n _ (lineOf_lt _ ho)), if_pos (fill_valid m n _ (lineOf_lt _ ho))]
  · rfl

theorem record_agrees (m : Memory) (n : Nat) (x : Sector) (col : Bool) (h : Sector.Agrees m n x) :
    Sector.Agrees m n (x.record m n col) := by
  rw [Sector.record]
  split
  · have r := refills_fill m n { x with axes := (col :: x.axes).take 8 }
    intro o ho _ hd
    have full : fullMask.getLsbD (lineOf (!(Sector.fill m n { x with axes := (col :: x.axes).take 8 }).col) o) = true := by
      have := lineOf_lt (!(Sector.fill m n { x with axes := (col :: x.axes).take 8 }).col) ho
      simp only [fullMask]; revert this; generalize lineOf _ o = i; revert i; decide
    refine r.agrees (x := { x with axes := (col :: x.axes).take 8 }) h o ho (fill_valid m n _ (lineOf_lt _ ho)) ?_
    dsimp only at hd
    split at hd
    · next h0 => rw [h0]; exact BitVec.getLsbD_zero
    · rw [full] at hd; cases hd
  · exact h

end Sys2Proof.Proofs
end

section

namespace Sys2Proof.Proofs

open Sys2Proof.Machine Sys2Proof.Claims Sys2Proof.Laws

/-! ### What a load changes: caches and counters alone -/

/-- Nothing but memory, the LLC, the hotness counters and the free values differs. -/
def OnlyCaches (s t : State) : Prop := t = { s with mem := t.mem, llc := t.llc, hot := t.hot, free := t.free }

theorem onlyCaches_refl (s : State) : OnlyCaches s s := rfl

theorem OnlyCaches.trans {s t u : State} (a : OnlyCaches s t) (b : OnlyCaches t u) : OnlyCaches s u := by
  unfold OnlyCaches at *; rw [b, a]

theorem OnlyCaches.groups {s t : State} (h : OnlyCaches s t) : t.groups = s.groups := by rw [h]
theorem OnlyCaches.cur {s t : State} (h : OnlyCaches s t) : t.cur = s.cur := by rw [h]

theorem countHot_eq (s : State) (pa : Nat) : s.countHot pa = { s with hot := (s.countHot pa).hot } := by
  unfold State.countHot
  split
  · split <;> rfl
  · rfl

theorem onLayer_eq (s : State) (n : Nat) (f : List LayerBlock → List LayerBlock) :
    s.onLayer n f = { s with llc := { s.llc with layer := (s.onLayer n f).llc.layer } } := by
  unfold State.onLayer
  split <;> rfl

/-- A request at a controller changes the counters and the cache layer behind the LLC. -/
theorem ctlRead_eq (s : State) (n hint : Nat) :
    s.ctlRead n hint = { s with hot := (s.ctlRead n hint).hot, llc := { s.llc with layer := (s.ctlRead n hint).llc.layer } } := by
  unfold State.ctlRead
  rw [countHot_eq s]
  split
  · rfl
  · rw [onLayer_eq]

theorem ctlWrite_eq (s : State) (n : Nat) :
    s.ctlWrite n = { s with hot := (s.ctlWrite n).hot, llc := { s.llc with layer := (s.ctlWrite n).llc.layer } } := by
  unfold State.ctlWrite
  rw [countHot_eq s, onLayer_eq]

theorem filledBy_eq (s : State) (n hint : Nat) (x : Sector) (col : Bool) :
    s.filledBy n hint x col
      = { s with hot := (s.filledBy n hint x col).hot, llc := { s.llc with layer := (s.filledBy n hint x col).llc.layer } } := by
  unfold State.filledBy
  split
  · exact ctlRead_eq s n hint
  · rfl

/-! ### Every byte reads as before -/

/-- Every byte reads as before, and clean lines still hold what memory holds. -/
def KeepsBytes (s t : State) : Prop := LlcCoherent s → LlcCoherent t ∧ ∀ a, t.homeByte a = s.homeByte a

theorem keepsBytes_refl (s : State) : KeepsBytes s s := fun h => ⟨h, fun _ => rfl⟩

theorem KeepsBytes.trans {s t u : State} (a : KeepsBytes s t) (b : KeepsBytes t u) : KeepsBytes s u := fun h =>
  ⟨(b (a h).1).1, fun x => ((b (a h).1).2 x).trans ((a h).2 x)⟩

/-- With no row-line given up, a read returns the byte at its home. -/
theorem devByte_eq_homeByte {s : State} (h : s.llc.discards = []) (a : Nat) : s.devByte a = s.homeByte a := by
  rw [State.devByte, h]; rfl

theorem KeepsBytes.devByte {s t : State} (k : KeepsBytes s t) (h : LlcCoherent s) (a : Nat) : t.devByte a = s.devByte a := by
  rw [devByte_eq_homeByte h.1, devByte_eq_homeByte (k h).1.1, (k h).2 a]

/-- The byte at its home, by sector. -/
theorem homeByte_eq (s : State) (a : Nat) :
    s.homeByte a = match s.sector? (a / 1024) with
      | some x => Sector.byteOr s.mem (a / 1024) x (a % 1024)
      | none => s.mem.read a := by
  have ha : a / 1024 * 1024 + a % 1024 = a := by omega
  rw [State.homeByte]
  cases s.sector? (a / 1024) with
  | none => rfl
  | some x => simp only [Sector.byteOr, ha]

/-- Coherence is a matter of each sector. -/
theorem llcCoherent_iff (s : State) :
    LlcCoherent s ↔ s.llc.discards = [] ∧ ∀ n x, s.sector? n = some x → Sector.Agrees s.mem n x := Iff.rfl

/-- Only fields that no read looks at differ. -/
theorem keepsBytes_of_eq {s t : State} (hd : t.llc.discards = s.llc.discards) (hs : t.llc.sectors = s.llc.sectors)
    (hm : t.mem = s.mem) : KeepsBytes s t := by
  have hsec (n : Nat) : t.sector? n = s.sector? n := by rw [State.sector?, hs, State.sector?]
  intro h
  refine ⟨?_, fun a => ?_⟩
  · rw [llcCoherent_iff] at h ⊢
    rw [hd]
    exact ⟨h.1, fun n x hx => by rw [hm]; exact h.2 n x (by rwa [hsec] at hx)⟩
  · rw [homeByte_eq, homeByte_eq, hsec, hm]

/-- Sector `n` alone differs, and memory alone within it. -/
structure AtSector (n : Nat) (s t : State) : Prop where
  discards : t.llc.discards = s.llc.discards
  sectors : ∀ k, k ≠ n → t.sector? k = s.sector? k
  mem : ∀ a, a / 1024 ≠ n → t.mem.read a = s.mem.read a

/-- It is enough to look at the sector that differs. -/
theorem keepsBytes_of_sector {n : Nat} {s t : State} (h : AtSector n s t)
    (hb : LlcCoherent s → ∀ a, a / 1024 = n → t.homeByte a = s.homeByte a)
    (ha : LlcCoherent s → ∀ x, t.sector? n = some x → Sector.Agrees t.mem n x) : KeepsBytes s t := by
  intro hs
  refine ⟨(llcCoherent_iff t).2 ⟨h.discards.trans hs.1, fun k x hx => ?_⟩, fun a => ?_⟩
  · by_cases e : k = n
    · subst e; exact ha hs x hx
    · intro o ho hv hd
      rw [h.mem _ (by omega)]
      exact hs.2 k x (h.sectors k e ▸ hx) o ho hv hd
  · by_cases e : a / 1024 = n
    · exact hb hs a e
    · rw [homeByte_eq, homeByte_eq, h.sectors _ e]
      cases s.sector? (a / 1024) with
      | none => exact h.mem a e
      | some x =>
        have ha' : a / 1024 * 1024 + a % 1024 = a := by omega
        simp only [Sector.byteOr, ha', h.mem a e]

@[simp] theorem sector?_setSector_same (s : State) (n : Nat) (x : Sector) : (s.setSector n x).sector? n = some x :=
  sparse_find_put_same _ _ _

theorem sector?_setSector_other (s : State) {n k : Nat} (x : Sector) (h : k ≠ n) : (s.setSector n x).sector? k = s.sector? k :=
  sparse_find_put_other _ _ h

@[simp] theorem sector?_dropSector_same (s : State) (n : Nat) : (s.dropSector n).sector? n = none := sparse_find_erase_same _ _

theorem sector?_dropSector_other (s : State) {n k : Nat} (h : k ≠ n) : (s.dropSector n).sector? k = s.sector? k :=
  sparse_find_erase_other _ h

theorem atSector_setSector (s : State) (n : Nat) (x : Sector) : AtSector n s (s.setSector n x) :=
  ⟨rfl, fun _ h => sector?_setSector_other s x h, fun _ _ => rfl⟩

/-- A sector is replaced by one that reads alike and agrees with memory. -/
theorem keepsBytes_setSector {s : State} {n : Nat} {x y : Sector} (hx : s.sector? n = some x)
    (hb : ∀ o, o < 1024 → Sector.byteOr s.mem n y o = Sector.byteOr s.mem n x o)
    (ha : Sector.Agrees s.mem n x → Sector.Agrees s.mem n y) : KeepsBytes s (s.setSector n y) := by
  refine keepsBytes_of_sector (atSector_setSector s n y) (fun _ a e => ?_) (fun hs z hz => ?_)
  · subst e
    rw [homeByte_eq, homeByte_eq, sector?_setSector_same, hx]
    exact hb _ (by omega)
  · rw [sector?_setSector_same] at hz
    cases hz
    exact ha (hs.2 n x hx)

/-- A sector that holds no valid line reads as memory. -/
theorem keepsBytes_setSector_empty {s : State} {n : Nat} {y : Sector} (hn : s.sector? n = none) (hy : y.valid = 0) :
    KeepsBytes s (s.setSector n y) := by
  refine keepsBytes_of_sector (atSector_setSector s n y) (fun _ a e => ?_) (fun hs z hz => ?_)
  · subst e
    have ha' : a / 1024 * 1024 + a % 1024 = a := by omega
    rw [homeByte_eq, homeByte_eq, sector?_setSector_same, hn]
    simp only [Sector.byteOr, hy, ha']
    exact if_neg (by rw [show (0 : Word) = 0#32 from rfl, BitVec.getLsbD_zero]; decide)
  · rw [sector?_setSector_same] at hz
    cases hz
    intro o _ hv _
    rw [hy, show (0 : Word) = 0#32 from rfl, BitVec.getLsbD_zero] at hv
    cases hv

/-- Dropping a clean sector is invisible. -/
theorem keepsBytes_dropSector {s : State} {n : Nat} (hn : ∀ x, s.sector? n = some x → x.dirty = 0) :
    KeepsBytes s (s.dropSector n) := by
  refine keepsBytes_of_sector ⟨rfl, fun _ h => sector?_dropSector_other s h, fun _ _ => rfl⟩ (fun hs a e => ?_)
    (fun _ x hx => by rw [sector?_dropSector_same] at hx; cases hx)
  subst e
  have ha' : a / 1024 * 1024 + a % 1024 = a := by omega
  rw [homeByte_eq, homeByte_eq, sector?_dropSector_same]
  cases hx : s.sector? (a / 1024) with
  | none => rfl
  | some x =>
    simp only [Sector.byteOr]
    split
    · next hv =>
      rw [hs.2 _ x hx (a % 1024) (by omega) hv (by rw [hn x hx]; exact BitVec.getLsbD_zero), ha']
      rfl
    · rw [ha']; rfl

/-! ### Writing a sector back -/

/-- The bytes of a sector that a write-back writes. -/
def Sector.dirtyBytes (x : Sector) : List Nat :=
  ((List.range 32).filter (fun l => x.dirty.getLsbD l && x.valid.getLsbD l)).flatMap
    (fun l => (List.range 32).map (lineByte x.col l))

theorem dirtyBytes_lt {x : Sector} {o : Nat} (h : o ∈ Sector.dirtyBytes x) : o < 1024 := by
  simp only [Sector.dirtyBytes, List.mem_flatMap, List.mem_filter, List.mem_range, List.mem_map] at h
  obtain ⟨l, ⟨hl, _⟩, k, hk, rfl⟩ := h
  exact lineByte_lt x.col hl hk

theorem mem_dirtyBytes (x : Sector) {o : Nat} (ho : o < 1024) :
    o ∈ Sector.dirtyBytes x ↔ x.dirty.getLsbD (lineOf x.col o) = true ∧ x.valid.getLsbD (lineOf x.col o) = true := by
  simp only [Sector.dirtyBytes, List.mem_flatMap, List.mem_filter, List.mem_range, List.mem_map, Bool.and_eq_true]
  constructor
  · rintro ⟨l, ⟨hl, h⟩, k, hk, rfl⟩
    rwa [lineOf_lineByte x.col hl hk]
  · intro h
    obtain ⟨k, hk, e⟩ := exists_lineByte x.col ho
    exact ⟨lineOf x.col o, ⟨lineOf_lt x.col ho, h⟩, k, hk, e⟩

theorem read_writeBack (n : Nat) (x : Sector) (m : Memory) (a : Nat) :
    (x.writeBack n m).read a
      = if a / 1024 = n ∧ x.dirty.getLsbD (lineOf x.col (a % 1024)) = true ∧ x.valid.getLsbD (lineOf x.col (a % 1024)) = true
        then Sparse.get 0 x.bytes (a % 1024) else m.read a := by
  have value : ∀ k, Sparse.get 0 x.bytes k = (fun a => Sparse.get 0 x.bytes (a - n * 1024)) (n * 1024 + k) := by
    intro k; simp only [Nat.add_sub_cancel_left]
  refine (get_foldl_set Memory.blank (key := fun o => n * 1024 + o) (val := fun a => Sparse.get 0 x.bytes (a - n * 1024)) value
    (Sector.dirtyBytes x) m a).trans ?_
  have key : a ∈ (Sector.dirtyBytes x).map (fun o => n * 1024 + o)
      ↔ a / 1024 = n ∧ x.dirty.getLsbD (lineOf x.col (a % 1024)) = true ∧ x.valid.getLsbD (lineOf x.col (a % 1024)) = true := by
    rw [← mem_dirtyBytes x (Nat.mod_lt a (by decide)), List.mem_map]
    constructor
    · rintro ⟨o, ho, rfl⟩
      have := dirtyBytes_lt ho
      exact ⟨by omega, by rwa [show (n * 1024 + o) % 1024 = o by omega]⟩
    · rintro ⟨rfl, ho⟩
      exact ⟨_, ho, by omega⟩
  by_cases h : a / 1024 = n ∧ x.dirty.getLsbD (lineOf x.col (a % 1024)) = true ∧ x.valid.getLsbD (lineOf x.col (a % 1024)) = true
  · rw [if_pos (key.2 h), if_pos h]
    obtain ⟨rfl, _⟩ := h
    rw [show a - a / 1024 * 1024 = a % 1024 by omega]
  · rw [if_neg (mt key.1 h), if_neg h]; rfl

theorem cleanSector_eq {s : State} {n : Nat} {x : Sector} (hx : s.sector? n = some x) (hd : x.dirty ≠ 0) :
    s.cleanSector n = (State.setSector { s with mem := x.writeBack n s.mem } n { x with dirty := 0 }).ctlWrite n := by
  rw [State.cleanSector, hx]
  exact if_neg hd

theorem sector?_ctlWrite (s : State) (n k : Nat) : (s.ctlWrite n).sector? k = s.sector? k := by
  rw [ctlWrite_eq]; rfl

theorem keepsBytes_ctlWrite (s : State) (n : Nat) : KeepsBytes s (s.ctlWrite n) := by
  rw [ctlWrite_eq]; exact keepsBytes_of_eq rfl rfl rfl

theorem keepsBytes_ctlRead (s : State) (n hint : Nat) : KeepsBytes s (s.ctlRead n hint) := by
  rw [ctlRead_eq]; exact keepsBytes_of_eq rfl rfl rfl

/-- A write-back makes memory hold what the sector holds. -/
theorem keepsBytes_cleanSector (s : State) (n : Nat) : KeepsBytes s (s.cleanSector n) := by
  cases hx : s.sector? n with
  | none => rw [State.cleanSector, hx]; exact keepsBytes_refl s
  | some x =>
    by_cases hd : x.dirty = 0
    · rw [State.cleanSector, hx]; simp only [hd, if_true]; exact keepsBytes_refl s
    · rw [cleanSector_eq hx hd]
      refine KeepsBytes.trans ?_ (keepsBytes_ctlWrite _ n)
      refine keepsBytes_of_sector (n := n) ⟨rfl, fun k h => ?_, fun a h => ?_⟩ (fun hs a e => ?_) (fun hs y hy => ?_)
      · exact sector?_setSector_other _ _ h
      · exact (read_writeBack n x s.mem a).trans (if_neg (fun c => h c.1))
      · subst e
        have ha' : a / 1024 * 1024 + a % 1024 = a := by omega
        rw [homeByte_eq, homeByte_eq, sector?_setSector_same, hx]
        simp only [Sector.byteOr, ha']
        split
        · rfl
        · next hv => exact (read_writeBack _ x s.mem a).trans (if_neg (fun c => hv c.2.2))
      · rw [sector?_setSector_same] at hy
        cases hy
        intro o ho hv _
        have hr := read_writeBack n x s.mem (n * 1024 + o)
        rw [show (n * 1024 + o) / 1024 = n by omega, show (n * 1024 + o) % 1024 = o by omega] at hr
        refine Eq.trans ?_ hr.symm
        split
        · rfl
        · next h => exact hs.2 n x hx o ho hv (by simpa [show x.valid.getLsbD (lineOf x.col o) = true from hv] using h)

theorem sector?_cleanSector_dirty {s : State} {n : Nat} {x : Sector} (h : (s.cleanSector n).sector? n = some x) : x.dirty = 0 := by
  cases hx : s.sector? n with
  | none => rw [State.cleanSector, hx, hx] at h; cases h
  | some y =>
    by_cases hd : y.dirty = 0
    · rw [State.cleanSector, hx] at h; simp only [hd, if_true, hx] at h; cases h; exact hd
    · rw [cleanSector_eq hx hd, sector?_ctlWrite, sector?_setSector_same] at h
      cases h; rfl

theorem sector?_cleanSector_none {s : State} {n k : Nat} (h : s.sector? n = none) : (s.cleanSector k).sector? n = none := by
  cases hx : s.sector? k with
  | none => rwa [State.cleanSector, hx]
  | some y =>
    by_cases hd : y.dirty = 0
    · rw [State.cleanSector, hx]; simpa only [hd, if_true] using h
    · have e : n ≠ k := by rintro rfl; rw [h] at hx; cases hx
      rw [cleanSector_eq hx hd, sector?_ctlWrite, sector?_setSector_other _ _ e]
      exact h

/-! ### Loads -/

/-- Making a sector present, with the eviction that its set may need. -/
theorem keepsBytes_allocSector (s : State) (n : Nat) (firstOut : Bool) : KeepsBytes s (s.allocSector n firstOut) := by
  unfold State.allocSector
  split
  · exact keepsBytes_refl s
  · next hn =>
    dsimp only
    split
    · exact keepsBytes_setSector_empty hn rfl
    · split
      · exact keepsBytes_refl s
      · next e _ =>
        refine ((keepsBytes_cleanSector s e.1).trans (keepsBytes_dropSector fun x hx => sector?_cleanSector_dirty hx)).trans
          (keepsBytes_setSector_empty ?_ rfl)
        by_cases h : n = e.1
        · rw [h, sector?_dropSector_same]
        · rw [sector?_dropSector_other _ h, sector?_cleanSector_none hn]

theorem keepsBytes_useSector (s : State) (n : Nat) (last : Bool) : KeepsBytes s (s.useSector n last) := by
  unfold State.useSector
  split
  · exact keepsBytes_refl s
  · next x hx =>
    exact (keepsBytes_setSector (y := { x with used := s.llc.clock + 1, firstOut := x.firstOut || last }) hx (fun _ _ => rfl) id).trans
      (keepsBytes_of_eq rfl rfl rfl)

/-! A load of one sector, in its three steps. -/

/-- The LLC lacks a line of what a load of sector `n` wants. -/
def lacksLines (s : State) (n : Nat) (offs : List Nat) : Bool :=
  match s.sector? n with
  | none => true
  | some x => offs.any (fun o => !x.valid.getLsbD (lineOf x.col o))

/-- The read at the controller, where the LLC lacks lines. -/
def readMissing (s : State) (n : Nat) (offs : List Nat) (hint : Nat) : State :=
  if lacksLines s n offs then s.ctlRead n hint else s

/-- The sector is made present, unless hint 3 forbids it. -/
def allocFor (s : State) (n hint : Nat) : State := if hint = 3 then s else s.allocSector n (hint == 1)

/-- The lines are brought in, and the access is recorded. -/
def accessSector (s : State) (n : Nat) (offs : List Nat) (col : Bool) (hint : Nat) : State :=
  match s.sector? n with
  | none => s
  | some x => ((s.filledBy n hint (x.ensure s.mem n col offs) col).setSector n ((x.ensure s.mem n col offs).record s.mem n col)).useSector n (hint == 2)

theorem touchSector_eq (s : State) (n : Nat) (offs : List Nat) (col : Bool) (hint : Nat) :
    s.touchSector n offs col hint = accessSector (allocFor (readMissing s n offs hint) n hint) n offs col hint := rfl

theorem readMissing_cases (s : State) (n : Nat) (offs : List Nat) (hint : Nat) :
    readMissing s n offs hint = s.ctlRead n hint ∨ readMissing s n offs hint = s := by
  unfold readMissing
  split
  · exact .inl rfl
  · exact .inr rfl

theorem keepsBytes_readMissing (s : State) (n : Nat) (offs : List Nat) (hint : Nat) : KeepsBytes s (readMissing s n offs hint) := by
  rcases readMissing_cases s n offs hint with h | h <;> rw [h]
  · exact keepsBytes_ctlRead s n hint
  · exact keepsBytes_refl s

theorem keepsBytes_allocFor (s : State) (n hint : Nat) : KeepsBytes s (allocFor s n hint) := by
  unfold allocFor
  split
  · exact keepsBytes_refl s
  · exact keepsBytes_allocSector s n _

theorem keepsBytes_accessSector (s : State) (n : Nat) {offs : List Nat} (h : ∀ o ∈ offs, o < 1024) (col : Bool) (hint : Nat) :
    KeepsBytes s (accessSector s n offs col hint) := by
  unfold accessSector
  split
  · exact keepsBytes_refl s
  · next x hx =>
    have refilled := refills_ensure s.mem n x col h
    have filled := filledBy_eq s n hint (x.ensure s.mem n col offs) col
    refine KeepsBytes.trans ?_ (keepsBytes_useSector _ n _)
    rw [filled]
    refine KeepsBytes.trans (keepsBytes_of_eq rfl rfl rfl) (keepsBytes_setSector (x := x) hx (fun o ho => ?_) (fun ha => ?_))
    · exact (record_byteOr _ n _ col ho).trans (refilled.byte o ho)
    · exact record_agrees _ n _ col (refilled.agrees ha)

theorem keepsBytes_touchSector (s : State) (n : Nat) {offs : List Nat} (h : ∀ o ∈ offs, o < 1024) (col : Bool) (hint : Nat) :
    KeepsBytes s (s.touchSector n offs col hint) := by
  rw [touchSector_eq]
  exact ((keepsBytes_readMissing s n offs hint).trans (keepsBytes_allocFor _ n hint)).trans
    (keepsBytes_accessSector _ n h col hint)

theorem keepsBytes_noteRead (s : State) : KeepsBytes s s.noteRead := by
  unfold State.noteRead
  split
  · exact keepsBytes_refl s
  · exact keepsBytes_of_eq rfl rfl rfl

/-- A load changes no byte that a read returns (R217, R219, R220). -/
theorem keepsBytes_loadTouch (s : State) (pas : List Nat) (col : Bool) (hint : Nat) : KeepsBytes s (s.loadTouch pas col hint) := by
  rw [State.loadTouch]
  refine KeepsBytes.trans ?_ (keepsBytes_noteRead _)
  refine List.foldlRecOn (motive := KeepsBytes s) _ _ (keepsBytes_refl s) (fun t ht n _ => ht.trans ?_)
  refine keepsBytes_touchSector t n (fun o ho => ?_) col hint
  obtain ⟨a, _, rfl⟩ := List.mem_map.1 ho
  exact Nat.mod_lt _ (by decide)

/-! ### The same steps change nothing but caches -/

theorem onlyCaches_ctlRead (s : State) (n hint : Nat) : OnlyCaches s (s.ctlRead n hint) := by
  rw [ctlRead_eq]; rfl

theorem onlyCaches_ctlWrite (s : State) (n : Nat) : OnlyCaches s (s.ctlWrite n) := by
  rw [ctlWrite_eq]; rfl

theorem onlyCaches_cleanSector (s : State) (n : Nat) : OnlyCaches s (s.cleanSector n) := by
  unfold State.cleanSector
  split
  · exact onlyCaches_refl s
  · split
    · exact onlyCaches_refl s
    · exact OnlyCaches.trans (by rfl) (onlyCaches_ctlWrite _ n)

theorem onlyCaches_allocSector (s : State) (n : Nat) (firstOut : Bool) : OnlyCaches s (s.allocSector n firstOut) := by
  unfold State.allocSector
  split
  · exact onlyCaches_refl s
  · dsimp only
    split
    · rfl
    · split
      · exact onlyCaches_refl s
      · next e _ => exact OnlyCaches.trans (onlyCaches_cleanSector s e.1) (by rfl)

theorem onlyCaches_useSector (s : State) (n : Nat) (last : Bool) : OnlyCaches s (s.useSector n last) := by
  unfold State.useSector
  split <;> rfl

theorem onlyCaches_touchSector (s : State) (n : Nat) (offs : List Nat) (col : Bool) (hint : Nat) :
    OnlyCaches s (s.touchSector n offs col hint) := by
  rw [touchSector_eq]
  have missing : OnlyCaches s (readMissing s n offs hint) := by
    rcases readMissing_cases s n offs hint with h | h <;> rw [h]
    · exact onlyCaches_ctlRead s n hint
    · exact onlyCaches_refl s
  have alloc (t : State) : OnlyCaches t (allocFor t n hint) := by
    unfold allocFor
    split
    · exact onlyCaches_refl t
    · exact onlyCaches_allocSector t n _
  have access (t : State) : OnlyCaches t (accessSector t n offs col hint) := by
    unfold accessSector
    split
    · exact onlyCaches_refl t
    · rw [filledBy_eq]
      exact OnlyCaches.trans (by rfl) (onlyCaches_useSector _ n _)
  exact (missing.trans (alloc _)).trans (access _)

theorem onlyCaches_noteRead (s : State) : OnlyCaches s s.noteRead := by
  unfold State.noteRead
  split <;> rfl

theorem onlyCaches_loadTouch (s : State) (pas : List Nat) (col : Bool) (hint : Nat) : OnlyCaches s (s.loadTouch pas col hint) := by
  rw [State.loadTouch]
  refine OnlyCaches.trans ?_ (onlyCaches_noteRead _)
  exact List.foldlRecOn (motive := OnlyCaches s) _ _ (onlyCaches_refl s)
    (fun t ht n _ => ht.trans (onlyCaches_touchSector t n _ col hint))

end Sys2Proof.Proofs
end

section

namespace Sys2Proof.Proofs

open Sys2Proof.Machine Sys2Proof.Claims Sys2Proof.Laws

/-! ### One step of a stream (R12, R16, R33, R55) -/

theorem onlyCaches_fetchTouch (s : State) (q : Asker) (va n : Nat) : OnlyCaches s (s.fetchTouch q va n) := by
  unfold State.fetchTouch
  split
  · exact onlyCaches_loadTouch s _ _ _
  · exact onlyCaches_refl s

theorem keepsBytes_fetchTouch (s : State) (q : Asker) (va n : Nat) : KeepsBytes s (s.fetchTouch q va n) := by
  unfold State.fetchTouch
  split
  · exact keepsBytes_loadTouch s _ _ _
  · exact keepsBytes_refl s

theorem OnlyCaches.group {s t : State} (h : OnlyCaches s t) (g : Nat) : t.group g = s.group g := by
  rw [State.group, h.groups, State.group]

theorem OnlyCaches.holdsQuota {s t : State} (h : OnlyCaches s t) (g : Nat) : t.holdsQuota g = s.holdsQuota g := by
  rw [h]; rfl

/-- While the clocks run, a step serves the first turn, one ck later. -/
theorem step_of_turn {s : State} {t : Turn} {rest : List Turn} (hs : s.boot.stage ≠ 8) (ht : s.turns = t :: rest) :
    step s = runTurn t { s with ck := s.ck + 1, turns := rest } := by
  have running : s.stopped = false := by simpa [State.stopped, stageThermal] using hs
  rw [step, running, runningStep, ht]
  rfl

/-- The pair's log aside, a turn answers what its instruction answers (R359). -/
theorem stepIs_of_shadeAfter {s a : State} {g : Nat} {records : Nat → Nat → Machine.Group → List ReplayRecord} {lane : Bool}
    {r : Res} (hc : a.cur.g = g) (hg : a.group g = s.group g) (h : step s = shadeAfter a records lane r) : StepIs s g r := by
  subst hc
  refine ⟨fun hn => ?_, fun t ht => ?_, fun f hf => ?_⟩
  · rw [h]
    cases r with
    | next t => simp only [shadeAfter, State.shadeLog, hg, hn, Option.isNone_none, Bool.true_or, if_true]
    | fault | refused => rfl
  · subst ht
    refine ⟨_, h, ?_⟩
    unfold State.shadeLog
    dsimp only
    split
    · exact .inl rfl
    · exact .inr ⟨_, rfl⟩
  · subst hf; exact h

/-- The turn of a path slot that issues: `a` is the state with its issuer. -/
theorem scalarTurn_of_bytes {s a : State} {g : Nat} {b : Bool} {bs : List Byte} (ha : a = { s with cur := { g := g, slotB := b } })
    (ready : a.slotReady g b = true)
    (hbs : a.fetchBytes (a.streamAsker g b false) ((a.group g).slot b).pc.toNat 4 = .bytes bs) :
    s.scalarTurn g b = match decodeScalar (leNat bs) with
      | .ok i => .run i (scalarFetched a g b)
      | .error _ => .done ((scalarFetched a g b).trapWord (BitVec.ofNat 32 (leNat bs)) causeIllegal 0 0) := by
  subst ha
  have hbs' : State.fetchBytes { s with cur := { g := g, slotB := b } } (State.streamAsker { s with cur := { g := g, slotB := b } } g b false)
      (State.sl { s with cur := { g := g, slotB := b } }).pc.toNat 4 = .bytes bs := hbs
  simp only [State.scalarTurn, ready, hbs', Bool.not_true, Bool.false_eq_true, if_false]
  rfl

/-- What a lane word comes to in the state that has fetched it: a load waits for the core's quota (R204). -/
def laneIssue (a : State) (g : Nat) : LaneWord → Fetched
  | .instr i => if countsAsLoad i && !a.holdsQuota g then .done a else .run i a
  | .reduce k f => .reduce k f a

/-- The turn of a lane queue that issues. -/
theorem laneTurn_of_bytes {s a : State} {g : Nat} {b : Block} {bs : List Byte} {x : LaneWord}
    (ha : a = { s with cur := { g := g, slotB := b.slotB } }) (head : (a.group g).headBlock = some b)
    (drained : a.drainWaits g b = false) (inside : b.next < (a.group g).ident.laneSize)
    (hbs : a.fetchBytes (a.streamAsker g b.slotB true) ((a.group g).lanePc b).toNat 12 = .bytes bs)
    (hx : readLane (leNat bs) = .ok x) :
    s.laneTurn g = laneIssue (laneFetched a g b) g x := by
  subst ha
  have head' : (s.group g).headBlock = some b := head
  have inside' : ¬(s.group g).ident.laneSize ≤ b.next := Nat.not_le.mpr inside
  have hbs' : State.fetchBytes { s with cur := { g := g, slotB := b.slotB } }
      (State.streamAsker { s with cur := { g := g, slotB := b.slotB } } g b.slotB true) ((s.group g).lanePc b).toNat 12 = .bytes bs := hbs
  simp only [State.laneTurn, head', drained, inside', hbs', hx, Bool.false_eq_true, if_false]
  cases x <;> rfl

theorem onlyCaches_scalarFetched (s : State) (g : Nat) (b : Bool) : OnlyCaches s (scalarFetched s g b) := onlyCaches_fetchTouch s _ _ _

theorem onlyCaches_laneFetched (s : State) (g : Nat) (b : Block) : OnlyCaches s (laneFetched s g b) := onlyCaches_fetchTouch s _ _ _

/-- The issuer's group stands in the state at the turn as before it. -/
theorem scalarFetched_atTurn {s : State} {rest : List Turn} {g : Nat} {b : Bool} :
    (scalarFetched (atTurn s rest g b) g b).cur.g = g ∧ (scalarFetched (atTurn s rest g b) g b).group g = s.group g := by
  have h := onlyCaches_scalarFetched (atTurn s rest g b) g b
  exact ⟨by rw [h.cur]; rfl, h.group g⟩

theorem laneFetched_atTurn {s : State} {rest : List Turn} {g : Nat} {b : Block} :
    (laneFetched (atTurn s rest g b.slotB) g b).cur.g = g ∧ (laneFetched (atTurn s rest g b.slotB) g b).group g = s.group g := by
  have h := onlyCaches_laneFetched (atTurn s rest g b.slotB) g b
  exact ⟨by rw [h.cur]; rfl, h.group g⟩

/-- The step of a scalar stream. -/
theorem step_scalar {s : State} {g : Nat} {b : Bool} {rest : List Turn} (hs : s.boot.stage ≠ 8) (ht : s.turns = .scalar g b :: rest)
    (hr : (s.group g).resident = true) :
    step s = runFetched false (State.scalarTurn { s with ck := s.ck + 1, turns := rest } g b) := by
  have hr' : (State.group { s with ck := s.ck + 1, turns := rest } g).resident = true := hr
  rw [step_of_turn hs ht]
  simp only [runTurn, hr', Bool.not_true, Bool.false_eq_true, if_false]

/-- The step of a lane stream. -/
theorem step_lane {s : State} {g : Nat} {rest : List Turn} (hs : s.boot.stage ≠ 8) (ht : s.turns = .lane g :: rest)
    (hr : (s.group g).resident = true) :
    step s = runFetched true (State.laneTurn { s with ck := s.ck + 1, turns := rest } g) := by
  have hr' : (State.group { s with ck := s.ck + 1, turns := rest } g).resident = true := hr
  rw [step_of_turn hs ht]
  simp only [runTurn, hr', Bool.not_true, Bool.false_eq_true, if_false]

/-- A stream of an entry that holds no group has nothing to issue. -/
theorem step_noGroup {s : State} {g : Nat} {b : Bool} {rest : List Turn} (hs : s.boot.stage ≠ 8) (hr : (s.group g).resident = false)
    (ht : s.turns = .scalar g b :: rest ∨ s.turns = .lane g :: rest) : step s = .fault .noGroup := by
  have hr' : (State.group { s with ck := s.ck + 1, turns := rest } g).resident = false := hr
  rcases ht with ht | ht <;> rw [step_of_turn hs ht] <;> simp only [runTurn, hr', Bool.not_false, if_true]

/-- The meaning of a reduction that the decoder reads as a `LaneWord` is that of its instruction. -/
theorem runReduce_eq_exec {k : LateReduce} {f : LM} {i : Instr} (h : ReadsAs (.reduce k f) i) (s : State) :
    runReduce k f s = exec i s := by
  cases k <;> cases h <;> rfl

theorem stepIs_scalar {s : State} {g : Nat} {b : Bool} {rest : List Turn} {w : Nat} {i : Instr} (hs : s.boot.stage ≠ 8)
    (ht : s.turns = .scalar g b :: rest) (hr : (s.group g).resident = true) (hf : FetchesWord (atTurn s rest g b) g b w)
    (hi : decodeScalar w = .ok i) : StepIs s g (exec i (scalarFetched (atTurn s rest g b) g b)) := by
  obtain ⟨ready, bs, hbs, rfl⟩ := hf
  obtain ⟨hc, hg⟩ := scalarFetched_atTurn (s := s) (rest := rest) (g := g) (b := b)
  have runs : step s = shadeAfter (scalarFetched (atTurn s rest g b) g b) (fun g id y => shadeRecords g id y i) false
      (exec i (scalarFetched (atTurn s rest g b) g b)) := by
    rw [step_scalar hs ht hr, scalarTurn_of_bytes (a := atTurn s rest g b) rfl ready hbs, hi]
    rfl
  exact stepIs_of_shadeAfter hc hg runs

theorem step_scalar_illegal {s : State} {g : Nat} {b : Bool} {rest : List Turn} {w : Nat} {e : Reject} (hs : s.boot.stage ≠ 8)
    (ht : s.turns = .scalar g b :: rest) (hr : (s.group g).resident = true) (hf : FetchesWord (atTurn s rest g b) g b w)
    (he : decodeScalar w = .error e) :
    step s = .next ((scalarFetched (atTurn s rest g b) g b).trapWord (BitVec.ofNat 32 w) causeIllegal 0 0) := by
  obtain ⟨ready, bs, hbs, rfl⟩ := hf
  rw [step_scalar hs ht hr, scalarTurn_of_bytes (a := atTurn s rest g b) rfl ready hbs, he]
  rfl

theorem stepIs_lane {s : State} {g : Nat} {b : Block} {rest : List Turn} {w : Nat} {x : LaneWord} {i : Instr}
    (hs : s.boot.stage ≠ 8) (ht : s.turns = .lane g :: rest) (hr : (s.group g).resident = true)
    (hf : FetchesLane (atTurn s rest g b.slotB) g b w) (hx : readLane w = .ok x) (hi : ReadsAs x i)
    (hq : countsAsLoad i = true → (atTurn s rest g b.slotB).holdsQuota g = true) :
    StepIs s g (exec i (laneFetched (atTurn s rest g b.slotB) g b)) := by
  obtain ⟨head, ⟨drained, inside⟩, bs, hbs, rfl⟩ := hf
  obtain ⟨hc, hg⟩ := laneFetched_atTurn (s := s) (rest := rest) (g := g) (b := b)
  have turn : step s = runFetched true (laneIssue (laneFetched (atTurn s rest g b.slotB) g b) g x) := by
    rw [step_lane hs ht hr, laneTurn_of_bytes (a := atTurn s rest g b.slotB) rfl head drained inside hbs hx]
  have quota := (onlyCaches_laneFetched (atTurn s rest g b.slotB) g b).holdsQuota g
  generalize laneFetched (atTurn s rest g b.slotB) g b = a at *
  cases x with
  | instr j =>
    cases hi
    have free : (countsAsLoad i && !a.holdsQuota g) = false := by
      rw [quota]
      cases hl : countsAsLoad i with
      | false => rfl
      | true => rw [hq hl]; rfl
    have issue : laneIssue a g (.instr i) = .run i a := by simp only [laneIssue, free, Bool.false_eq_true, if_false]
    rw [issue] at turn
    exact stepIs_of_shadeAfter hc hg turn
  | reduce k f =>
    rw [← runReduce_eq_exec hi]
    exact stepIs_of_shadeAfter hc hg turn

/-- Settles O24: the step of a turn runs what the fetch decodes, and the fetch changes caches alone. -/
theorem stepRunsDecoded : Obligations.StepRunsDecoded := by
  refine ⟨fun s g b rest w hs ht hr hf => ⟨fun i hi => stepIs_scalar hs ht hr hf hi, fun e he => step_scalar_illegal hs ht hr hf he⟩,
    fun s g b rest w hs ht hr hf x i hx hi hq => stepIs_lane hs ht hr hf hx hi hq, fun s g slotB b => ?_,
    fun s i rest hs ht => step_of_turn hs ht, fun s g b rest hs hr ht => step_noGroup hs hr ht⟩
  exact ⟨(onlyCaches_scalarFetched s g slotB).groups, (onlyCaches_laneFetched s g b).groups, fun h a =>
    ⟨(keepsBytes_fetchTouch s _ _ _).devByte h a, (keepsBytes_fetchTouch s _ _ _).devByte h a⟩⟩

end Sys2Proof.Proofs
end

section

namespace Sys2Proof.Proofs

open Sys2Proof.Machine Sys2Proof.Claims Sys2Proof.Laws

/-! ### Teams -/

theorem find?_map_team {k : TeamKey} {f : Team → Team} (hf : ∀ t, (f t).key = t.key) (ts : List Team) :
    (ts.map (fun t => if t.key = k then f t else t)).find? (fun t => t.key == k) = (ts.find? (fun t => t.key == k)).map f := by
  induction ts with
  | nil => rfl
  | cons t rest ih =>
    by_cases h : t.key = k
    · simp [h, hf]
    · simp [h, ih]

/-- The changed team is read back. -/
theorem team?_onTeam (s : State) (k : TeamKey) {f : Team → Team} (hf : ∀ t, (f t).key = t.key) :
    (s.onTeam k f).team? k = (s.team? k).map f := by
  show (s.sched.clusters.map _).findSome? _ = (s.sched.clusters.findSome? _).map f
  induction s.sched.clusters with
  | nil => rfl
  | cons c rest ih =>
    rw [List.map_cons, List.findSome?_cons, List.findSome?_cons, find?_map_team hf c.teams]
    cases c.teams.find? (fun t => t.key == k) with
    | none => exact ih
    | some t => rfl

@[simp] theorem onTeam_group (s : State) (k : TeamKey) (f : Team → Team) (g : Nat) : (s.onTeam k f).group g = s.group g := rfl
@[simp] theorem onTeam_mem (s : State) (k : TeamKey) (f : Team → Team) : (s.onTeam k f).mem = s.mem := rfl
@[simp] theorem onTeam_holdsFlame (s : State) (k : TeamKey) (f : Team → Team) (g : Nat) :
    (s.onTeam k f).holdsFlame g = s.holdsFlame g := rfl

/-- Nothing follows in a team one of whose live groups waits at no barrier and at no phase end. -/
theorem teamSettle_of_busy {s : State} {k : TeamKey}
    (h : ∀ t, s.team? k = some t → ∃ i h, i ∈ t.live ∧ t.members[i]? = some h ∧ (s.group h).slotWaiting .bar = none
      ∧ (s.group h).slotWaiting .phend = none) : s.teamSettle k = s := by
  unfold State.teamSettle
  cases ht : s.team? k with
  | none => rfl
  | some t =>
    obtain ⟨i, g, hi, hg, hbar, hphend⟩ := h t ht
    have mem : g ∈ t.live.filterMap (fun i => t.members[i]?) := List.mem_filterMap.2 ⟨i, hi, hg⟩
    have live : t.live.isEmpty = false := by cases hl : t.live <;> simp_all
    have notAll {p : Nat → Bool} (hp : p g = false) : (t.live.filterMap (fun i => t.members[i]?)).all p = false :=
      List.all_eq_false.2 ⟨g, mem, by simp [hp]⟩
    dsimp only
    rw [notAll (by simp [hphend]), notAll (by simp [hbar]), notAll (by simp [hbar, hphend]), live]
    simp

/-! ### The flame of a group that ends -/

theorem holdsFlame_dropFlame (s : State) (g : Nat) : (s.dropFlame g).holdsFlame g = false := by
  unfold State.dropFlame
  split
  · simp [State.holdsFlame, State.coreOfGroup, Core.freeFlame]
  · simp_all

/-! ### EXIT of a group's last lanes (R31, R179, R180) -/

/-- A group after its last lanes exit, before its entry is freed: its slot is free. -/
theorem retireLanes_of_last {x : Machine.Group} {b : Bool} {m : Word} (hm : (x.slot b).lanes &&& ~~~m = 0)
    (ht : (x.slot b).top = none) (hc : x.conts = []) :
    x.retireLanes b m = Machine.Group.setSlot { x with exited := x.exited ||| m } b Slot.free := by
  have refill (y : Machine.Group) (h : y.conts = []) : y.refill = y := by
    have slot (b : Bool) : y.refillSlot b = y := by
      unfold Machine.Group.refillSlot
      rw [h]
      split <;> rfl
    rw [Machine.Group.refill, slot, slot]
  unfold Machine.Group.retireLanes
  simp only [hm, ht, ne_eq, not_true_eq_false, if_false]
  rw [Machine.Group.leaveJoins, refill]
  · simpa using hc
  · simp

theorem noParts_setSlot_free {x : Machine.Group} {b : Bool} (ho : (x.slot (!b)).live = false) (hc : x.conts = [])
    (hj : x.joins = []) : (x.setSlot b Slot.free).noParts = true := by
  cases b <;> simp_all [Machine.Group.noParts, Machine.Group.slot, Machine.Group.setSlot, Slot.free]

/-- A quiet group has no matrix instruction to close and nothing to wait for. -/
theorem closeWaits_of_quiet {s : State} (h : Quiet s) : s.closeWaits s.cur.g = false := by
  obtain ⟨-, -, -, -, -, -, -, -, hlocks, -, -⟩ := h
  have hm : (s.group s.cur.g).openMatrix = false := by
    rw [Machine.Group.openMatrix, show (s.group s.cur.g).locks = [] from hlocks]; rfl
  rw [State.closeWaits, hm, Bool.and_false, Bool.false_and]

theorem closeForRelease_of_quiet {s : State} (h : Quiet s) : s.closeForRelease s.cur.g = s := by
  obtain ⟨-, -, -, -, -, -, -, -, hlocks, -, -⟩ := h
  have hm : (s.group s.cur.g).openMatrix = false := by
    rw [Machine.Group.openMatrix, show (s.group s.cur.g).locks = [] from hlocks]; rfl
  simp only [State.closeForRelease, hm, Bool.and_false, Bool.false_eq_true, if_false]

theorem countsZero_of_quiet {s : State} (h : Quiet s) : s.countsZero s.cur.g = true := by
  obtain ⟨hblocks, hdraining, hloads, hstores, hfe, hother, hcopies, hflight, -, -, -⟩ := h
  rw [State.me] at *
  simp [State.countsZero, State.countsWithin, State.blockCount, Machine.Group.loadCount, Machine.Group.storeCount,
    Machine.Group.batchCount, *]

/-- The issuing group once the lanes that EXIT names have exited: its slot is free. -/
def exitedGroup (s : State) (k : KReg) : Machine.Group :=
  Machine.Group.setSlot { s.me with exited := s.me.exited ||| exitSide s k } s.cur.slotB Slot.free

theorem exitedGroup_keeps (s : State) (k : KReg) : (exitedGroup s k).ident = s.me.ident ∧ (exitedGroup s k).csr = s.me.csr
    ∧ (exitedGroup s k).reservations = s.me.reservations :=
  ⟨setSlot_ident _ _ _, setSlot_csr _ _ _, setSlot_reservations _ _ _⟩

/-- EXIT of a quiet group's last lanes ends the group. -/
theorem execExit_of_last {k : KReg} {s : State} (hp : PartReady s) (hm : s.sl.lanes &&& ~~~exitSide s k = 0)
    (ho : (otherSlot s s).live = false) (hc : s.me.conts = []) (hj : s.me.joins = []) (ht : s.sl.top = none) (hq : Quiet s) :
    execExit k s = .next ((s.setMe (exitedGroup s k)).endGroup s.cur.g) := by
  obtain ⟨hh, -, hown, hdraining⟩ := hp
  have idle : s.ownBlocksDone s.cur.g s.cur.slotB = true := by
    simpa [State.ownBlocksDone, show (s.group s.cur.g).draining = [] from hdraining, State.me] using hown
  have gone : s.me.retireLanes s.cur.slotB (exitSide s k) = exitedGroup s k := retireLanes_of_last hm ht hc
  have parts : (exitedGroup s k).noParts = true := noParts_setSlot_free ho hc hj
  have quiet : (!s.me.blocks.isEmpty || !s.countsZero s.cur.g) = false := by rw [hq.1, countsZero_of_quiet hq]; rfl
  simp only [execExit, notInHandler, hh, partIdle, idle, gone, parts, closeWaits_of_quiet hq, closeForRelease_of_quiet hq, quiet,
    Bool.false_eq_true, Bool.not_true, if_false, if_true]

/-- What the end of a group with no reservation and no shade leaves before its team is looked at. -/
structure Ended (s u : State) (g : Nat) : Prop where
  entry : u.group g = (s.group g).dead
  others : ∀ h, h ≠ g → u.group h = s.group h
  sched : u.sched = s.sched
  mem : u.mem = s.mem
  flame : u.holdsFlame g = false

/-- The team after its member `x`, in entry `g`, ended: the registers pass to the pool (R195). -/
def teamWithout (x : Machine.Group) (g : Nat) (t : Team) : Team :=
  { t with live := t.live.filter (· != x.ident.index), pool := t.pool + 8 * x.csr.budget.toNat,
           claimants := t.claimants.filter (· != g) }

/-- The last step before the team: the entry of `g` is freed in a state `v` that lost only its flame. -/
theorem ended_freeEntry {s v : State} {g : Nat} (hg : v.groups = s.groups) (hsched : v.sched = s.sched) (hm : v.mem = s.mem)
    (hf : v.holdsFlame g = false) (hs : (s.group g).ident.shade = none) : Ended s (v.freeEntry g) g := by
  have group (h : Nat) : v.group h = s.group h := congrArg (fun l => Sparse.get Machine.Group.vacant l h) hg
  have free : v.freeEntry g = (v.setGroup g (v.group g).dead).holdFor (coreOf g) (g % 32 / 8) 1 := by
    simp only [State.freeEntry, group, hs]
  rw [free]
  refine ⟨?_, fun h e => ?_, hsched, hm, hf⟩
  · rw [← group]; exact group_setGroup_same _ _ _
  · rw [← group]; exact group_setGroup_other _ _ e

theorem endGroup_eq {s : State} {g : Nat} (hr : (s.group g).reservations = []) (hs : (s.group g).ident.shade = none) :
    ∃ u, Ended s u g ∧ s.endGroup g
      = (u.onTeam (s.group g).ident.team (teamWithout (s.group g) g)).teamSettle (s.group g).ident.team := by
  have drop : s.dropFlame g = { s with cores := (s.dropFlame g).cores } := by
    unfold State.dropFlame
    split <;> rfl
  have hold := holdsFlame_dropFlame s g
  refine ⟨_, ?_, by dsimp only [State.endGroup]; rw [hr, List.foldl_nil]; rfl⟩
  rw [drop] at hold ⊢
  exact ended_freeEntry rfl rfl rfl (by
    simpa [State.holdsFlame, State.coreOfGroup, State.core, State.dropWaits, State.setCore] using hold) hs

/-- Settles O3: the EXIT ends the group, and its team, which stays busy, only gains its registers. -/
theorem exitEndsGroup : Obligations.ExitEndsGroup := by
  intro k s hp hm ho hc hj ht hq hb hs hr
  obtain ⟨ident, csr, res⟩ := exitedGroup_keeps s k
  have exits := execExit_of_last hp hm ho hc hj ht hq
  generalize exitedGroup s k = y at *
  have own : (s.setMe y).group s.cur.g = y := group_setGroup_same _ _ _
  obtain ⟨u, ended, eq⟩ := endGroup_eq (s := s.setMe y) (g := s.cur.g) (by rw [own, res]; exact hr) (by rw [own, ident]; exact hs)
  rw [own, ident] at eq
  have team : u.team? s.me.ident.team = s.teamOf s.cur.g := by rw [State.team?, ended.sched]; rfl
  have others (h : Nat) (e : h ≠ s.cur.g) : u.group h = s.group h := (ended.others h e).trans (group_setMe_other s y e)
  have changed := team?_onTeam u s.me.ident.team (f := teamWithout y s.cur.g) (fun _ => rfl)
  rw [teamSettle_of_busy] at eq
  · refine ⟨_, ((exec_exit k s).trans exits).trans (congrArg _ eq), ?_, ?_, ?_, ?_, ?_⟩
    · rw [onTeam_group, ended.entry]; rfl
    · rw [onTeam_holdsFlame, ended.flame]
    · intro a; rw [onTeam_mem, ended.mem]; rfl
    · intro h e; rw [onTeam_group, others h e]
    · intro tm htm
      refine ⟨teamWithout y s.cur.g tm, by rw [changed, team, htm]; rfl, ?_, ?_⟩
      · rw [teamWithout, ident]
      · rw [teamWithout, csr]
  · intro t hteam
    rw [changed, team] at hteam
    obtain ⟨tm, htm, rfl⟩ := Option.map_eq_some_iff.1 hteam
    obtain ⟨i, h, hi, hlive, hmem, hne, hbar, hphend⟩ := hb tm htm
    refine ⟨i, h, ?_, hmem, ?_, ?_⟩
    · simpa [teamWithout, ident] using ⟨hlive, hi⟩
    · rw [onTeam_group, others h hne, hbar]
    · rw [onTeam_group, others h hne, hphend]

end Sys2Proof.Proofs
end

section

namespace Sys2Proof.Proofs

open Sys2Proof.Machine Sys2Proof.Claims Sys2Proof.Laws

/-! ### A trap that goes to a handler (R336) -/

theorem dropStreamWaits_of_unmet {s : State} {g : Nat} (h : Unmet s g) : s.dropStreamWaits g = s := by
  unfold State.dropStreamWaits
  rw [if_neg]
  simp only [List.any_eq_true, not_exists, not_and]
  intro w hw
  cases hk : w.who with
  | stream a b l =>
    have : a ≠ g := fun e => h w hw b l (by rw [hk, e])
    simpa using this
  | _ => simp

/-- A slot that waits for nothing, or for credit, is in no queue. -/
def InNoQueue (w : SlotWait) : Prop := w = .none ∨ ∃ since n, w = .credit since n

theorem leaveQueues_of_inNoQueue (s : State) (g : Nat) (b : Bool) {w : SlotWait} (h : InNoQueue w) : s.leaveQueues g b w = s := by
  obtain rfl | ⟨_, _, rfl⟩ := h <;> rfl

theorem inHandler_of_hasHandler {x : Machine.Group} (h : HasHandler x) : x.inHandler = false := h.2

theorem handles_stbp {x : Machine.Group} (h : HasHandler x) : x.handles causeStbp = true := by
  simp [Machine.Group.handles, inHandler_of_hasHandler h, userHandleable, causeStbp, h.1]

theorem takeTrap_of_handler {s : State} {g : Nat} {t : Trap} (resume : Dword) (hh : (s.group g).handles t.cause = true)
    (hu : Unmet s g) (hw : InNoQueue ((s.group g).slot t.site.slotB).wait) :
    s.takeTrap g t resume = s.setGroup g ((s.group g).enter t resume) := by
  simp only [State.takeTrap, hh, if_true, leaveQueues_of_inNoQueue s g _ hw, dropStreamWaits_of_unmet hu]

/-- The STBP of a store at `site`. -/
def stbpTrap (site : TrapSite) (mask : Word) : Trap :=
  { cause := causeStbp, mask := mask, code := 0, reason := 0, addr := 0, site := site }

/-- STBP enters the handler of a group that may have forgotten what its lane stream waited for. -/
theorem stalled_enter {s : State} {g : Nat} {x : Machine.Group} (site : TrapSite) (mask : Word) (hc : x.csr = (s.group g).csr)
    (hi : x.ident = (s.group g).ident) (hs : x.slot site.slotB = (s.group g).slot site.slotB) :
    Stalled g s (s.setGroup g (x.enter (stbpTrap site mask) (x.slot site.slotB).pc)) site.slotB site.lane mask := by
  rw [Stalled, group_setGroup_same, Machine.Group.enter, setSlot_csr]
  rw [show (stbpTrap site mask).site = site from rfl, slot_setSlot_same, hi, hc, hs]
  refine ⟨?_, rfl, rfl, rfl, onlyGroup_setGroup s g _⟩
  simp only [Csrs.deliver, stbpTrap, causeStbp, Nat.zero_mod, Nat.zero_mul, Nat.zero_add]
  rfl

/-! ### Windows and time-outs (R204, R225, R227) -/

theorem timedOut_iff (stbcfg : Word) (since now : Nat) :
    timedOut stbcfg since now = true ↔ stbcfg.getLsbD 31 = true ∧ since + 2 ^ (stbcfg.toNat / 2 ^ 26 % 32) < now := by
  simp only [timedOut, Bool.and_eq_true, decide_eq_true_eq]

/-- The team at the start of its next window. -/
def nextWindow (t : Team) : Team := { t.renew with windowStart := t.windowStart + 2000 }

theorem nextWindow_credit (t : Team) :
    (nextWindow t).credit = (if 0 ≤ t.credit then 0 else t.credit) + 256 * ((t.stbcfg.toNat % 65536 : Nat) : Int) := by
  show (if 0 ≤ t.credit then t.full else t.credit + t.full) = _
  split
  · exact (Int.zero_add _).symm
  · rfl

theorem execStoreBudgetWindow_of_team {k : TeamKey} {s : State} {t : Team} (ht : s.team? k = some t) :
    execStoreBudgetWindow k s = if t.windowStart + 2000 ≤ s.ck then .next (s.onTeam k nextWindow) else .next s := by
  simp only [execStoreBudgetWindow, ht]
  rfl

/-- A busy core at the end of its window of `n` ck; `b` tells whether it holds no group. -/
def nextQuota (x : Core) (n : Nat) (b : Bool) : Core :=
  { x with quota := if x.thrcfg.toNat % 65536 < x.hits then max 2 (x.quota / 2) else min 32 (x.quota + 1),
           lastHits := x.hits, hits := 0, idle := b, window := x.window + n }

theorem execLoadQuotaWindow_of_busy {c : Nat} {s : State} (h : (s.core c).idle = false) :
    ∃ b, execLoadQuotaWindow c s = if (s.core c).window + s.arithTime 1024 ≤ s.ck then
      .next (s.setCore c (nextQuota (s.core c) (s.arithTime 1024) b)) else .next s :=
  ⟨_, by simp only [execLoadQuotaWindow, h, Bool.false_and, Bool.false_eq_true, if_false]; rfl⟩

theorem execLoadQuotaWindow_of_early {c : Nat} {s : State} (h : s.ck < (s.core c).window + s.arithTime 1024) :
    execLoadQuotaWindow c s = .next s := by
  simp only [execLoadQuotaWindow, if_neg (Nat.not_le.2 h), stall]

theorem execStbpTimeout_slot {g : Nat} {b : Bool} {s : State} {since : Nat} {w : Word}
    (hw : ((s.group g).slot b).wait = .credit since w) :
    ∃ site : TrapSite, site.slotB = b ∧ site.lane = false ∧ execStbpTimeout g (some b) s
      = if timedOut (s.group g).ident.stbcfg since s.ck && !((s.group g).inHandler && (s.group g).handlerSlotB != b) then
          .next (s.takeTrap g (stbpTrap site 0) ((s.group g).slot b).pc)
        else .next s :=
  ⟨_, rfl, rfl, by simp only [execStbpTimeout, hw, stall]; rfl⟩

/-- The lanes whose store the head of the lane queue waits with. -/
def waitingLanes (x : Machine.Group) (b : Block) (w : Nat) : Word :=
  if w / 2 ^ 80 % 16 = 0 then b.mask else b.mask &&& x.rk (w / 2 ^ 80 % 16)

/-- The group without what its lane stream waited for. -/
def laneAwake (x : Machine.Group) : Machine.Group := { x with laneWait := none }

theorem execStbpTimeout_lane {g : Nat} {s : State} {b : Block} {since w : Nat} (hb : (s.group g).headBlock = some b)
    (hw : (s.group g).laneWait = some (since, w)) (hlate : timedOut (s.group g).ident.stbcfg since s.ck = true)
    (hop : w / 2 ^ 88 ≠ 0x90) :
    ∃ site : TrapSite, site.slotB = b.slotB ∧ site.lane = true ∧ execStbpTimeout g none s
      = .next ((s.setGroup g (laneAwake (s.group g))).takeTrap g (stbpTrap site (waitingLanes (s.group g) b w))
          ((s.group g).slot b.slotB).pc) := by
  have late : (timedOut (s.group g).ident.stbcfg since s.ck && w / 2 ^ 88 != 0x90) = true := by simpa [hlate] using hop
  exact ⟨_, rfl, rfl, by simp only [execStbpTimeout, hb, hw, late, if_true]; rfl⟩

theorem storeBudgetWindows {k : TeamKey} {s : State} {t : Team} (ht : s.team? k = some t) :
    (s.ck < t.windowStart + 2000 → exec (.storeBudgetWindow k) s = .next s)
    ∧ (t.windowStart + 2000 ≤ s.ck →
        ∃ u x, exec (.storeBudgetWindow k) s = .next u ∧ u.team? k = some x ∧ x.windowStart = t.windowStart + 2000
          ∧ x.credit = (if 0 ≤ t.credit then 0 else t.credit) + 256 * ((t.stbcfg.toNat % 65536 : Nat) : Int)
          ∧ u.groups = s.groups ∧ u.mem = s.mem) := by
  rw [exec_storeBudgetWindow, execStoreBudgetWindow_of_team ht]
  refine ⟨fun early => if_neg (Nat.not_le.2 early), fun due => ⟨s.onTeam k nextWindow, nextWindow t, if_pos due, ?_, rfl,
    nextWindow_credit t, rfl, rfl⟩⟩
  rw [team?_onTeam s k (f := nextWindow) fun _ => rfl, ht]
  rfl

theorem stbpOfSlot {g : Nat} {b : Bool} {s : State} {since : Nat} {w : Word} (hw : ((s.group g).slot b).wait = .credit since w)
    (hu : Unmet s g) :
    (timedOut (s.group g).ident.stbcfg since s.ck = false → exec (.stbpTimeout g (some b)) s = .next s)
    ∧ (timedOut (s.group g).ident.stbcfg since s.ck = true → HasHandler (s.group g) →
        ∃ t, exec (.stbpTimeout g (some b)) s = .next t ∧ Stalled g s t b false 0) := by
  obtain ⟨site, rfl, hlane, eq⟩ := execStbpTimeout_slot hw
  rw [exec_stbpTimeout, eq]
  refine ⟨fun early => by rw [early]; rfl, fun late hh => ?_⟩
  rw [if_pos (by rw [late, inHandler_of_hasHandler hh]; rfl), ← hlane]
  exact ⟨_, congrArg _ (takeTrap_of_handler _ (handles_stbp hh) hu (.inr ⟨_, _, hw⟩)), stalled_enter site 0 rfl rfl rfl⟩

theorem stbpOfLane {g : Nat} {s : State} {b : Block} {since w : Nat} (hb : (s.group g).headBlock = some b)
    (hl : (s.group g).laneWait = some (since, w)) (hu : Unmet s g)
    (hlate : timedOut (s.group g).ident.stbcfg since s.ck = true) (hh : HasHandler (s.group g))
    (hw : ((s.group g).slot b.slotB).wait = .none) (hop : w / 2 ^ 88 ≠ 0x90) :
    ∃ t, exec (.stbpTimeout g none) s = .next t ∧ Stalled g s t b.slotB true (waitingLanes (s.group g) b w) := by
  obtain ⟨site, hslot, hlane, eq⟩ := execStbpTimeout_lane hb hl hlate hop
  have own : (s.setGroup g (laneAwake (s.group g))).group g = laneAwake (s.group g) := group_setGroup_same _ _ _
  have slot (b : Bool) : (laneAwake (s.group g)).slot b = (s.group g).slot b := rfl
  rw [exec_stbpTimeout, eq, ← hslot, ← hlane]
  rw [← hslot] at hw
  refine ⟨_, congrArg _ (takeTrap_of_handler _ ?_ hu ?_), ?_⟩
  · rw [own]; exact handles_stbp (x := laneAwake (s.group g)) hh
  · rw [own]; exact .inl hw
  · rw [own, State.setGroup, State.setGroup, sparse_put_put]
    exact stalled_enter (x := laneAwake (s.group g)) site _ rfl rfl (slot _)

theorem windowsAndTimeouts : WindowsAndTimeouts := by
  refine ⟨fun k s t ht => storeBudgetWindows ht, fun k s ht => ?_, fun c s hclk => ?_, fun g b s since w hw hu => ?_,
    fun g s b since w hb hl hu hten hlate hh hw hop => stbpOfLane hb hl hu ((timedOut_iff _ _ _).2 ⟨hten, hlate⟩) hh hw hop⟩
  · rw [exec_storeBudgetWindow, execStoreBudgetWindow, ht]
    rfl
  · have time : s.arithTime 1024 = 1024 := by rw [State.arithTime, hclk]
    rw [exec_loadQuotaWindow]
    refine ⟨fun early => execLoadQuotaWindow_of_early (time.symm ▸ early), fun due busy => ?_⟩
    obtain ⟨b, eq⟩ := execLoadQuotaWindow_of_busy busy
    rw [eq, time, if_pos due]
    refine ⟨_, rfl, ?_, ?_, ?_, rfl, rfl⟩ <;> rw [core_setCore_same] <;> rfl
  · obtain ⟨early, late⟩ := stbpOfSlot hw hu
    rw [← timedOut_iff]
    exact ⟨fun h => early (Bool.not_eq_true _ ▸ h), late⟩

end Sys2Proof.Proofs
end

section

namespace Sys2Proof.Proofs

open Sys2Proof.Machine Sys2Proof.Claims Sys2Proof.Laws

/-! ### The distributor with nothing to hand over (R198) -/

/-- The distributor holds no item, and every launch has handed its clusters over. -/
structure Handed (s : State) : Prop where
  waiting : s.sched.waiting = []
  launches : ∀ l ∈ s.sched.launches, l.record.size ≤ l.nextCluster

/-- A fold whose every step leaves the state alone. -/
theorem foldl_unchanged {α β : Type} {f : α → β → α} {a : α} (h : ∀ b, f a b = a) (l : List β) : l.foldl f a = a := by
  induction l with
  | nil => rfl
  | cons b rest ih => rw [List.foldl_cons, h, ih]

theorem handClusters_of_handed {s : State} (h : Handed s) (k n : Nat) : handClusters k n s = s := by
  cases n with
  | zero => rfl
  | succ n =>
    unfold handClusters
    cases hl : s.launch? k with
    | none => rfl
    | some l => simp [h.launches l (List.mem_of_find?_eq_some hl)]

theorem admitWaiting_of_handed {s : State} (h : Handed s) : s.admitWaiting = s := by
  have : ({ s.sched with waiting := [] } : Sched) = s.sched := by rw [← h.waiting]
  rw [State.admitWaiting, h.waiting, this]
  rfl

theorem distribute_of_handed {s : State} (h : Handed s) : s.distribute = s := by
  rw [State.distribute, admitWaiting_of_handed h]
  exact foldl_unchanged (fun k => handClusters_of_handed h k _) _

theorem Handed.onLaunch {s : State} (h : Handed s) (k : Nat) {f : Launch → Launch}
    (hf : ∀ l, (f l).record = l.record ∧ (f l).nextCluster = l.nextCluster) : Handed (s.onLaunch k f) := by
  refine ⟨h.waiting, fun l hl => ?_⟩
  obtain ⟨m, hm, rfl⟩ := List.mem_map.1 hl
  split
  · rw [(hf m).1, (hf m).2]; exact h.launches m hm
  · exact h.launches m hm

theorem Handed.of_sched {s u : State} (h : Handed s) (hw : u.sched.waiting = s.sched.waiting)
    (hl : u.sched.launches = s.sched.launches) : Handed u := ⟨hw.trans h.waiting, hl ▸ h.launches⟩

/-! ### The groups of an idle core -/

theorem freeEntries_of_idle {s : State} (h : s.groups = []) (c k : Nat) :
    s.freeEntries c k = (List.range 8).map (fun e => c * 32 + 8 * k + e) := by
  have vacant (g : Nat) : s.group g = Machine.Group.vacant := by rw [State.group, h]; rfl
  rw [State.freeEntries, List.filter_eq_self]
  intro g _
  rw [vacant]
  rfl

/-- A cluster of one team of one group fits a core where nothing runs and nothing is reserved. -/
theorem coreFits_of_idle {s : State} {c : Nat} {l : Launch} {held : Nat → Nat} (hg : s.groups = []) (hc : s.sched.clusters = [])
    (hs : l.shade = false) (hr : l.regBytes ≤ l.record.pbreg * 65536) (hh : ∀ res, held res = 0) :
    s.coreFits c l [0] held = true := by
  have vacant : s.vacantCore c = true := by rw [State.vacantCore, hg, hc]; rfl
  have used : s.usedRegs c = 0 := by rw [State.usedRegs, hc]; rfl
  have needed (k : Nat) : l.entriesNeeded [0] k ≤ 8 := by
    rw [Launch.entriesNeeded, hs]
    exact (Nat.le_trans (List.length_filter_le _ _) (by decide))
  simp [State.coreFits, vacant, used, hh, hr, freeEntries_of_idle hg, needed]

/-! ### The started group (R30) -/

theorem recOf_argRecord (base extent : Nat) : (recOf (argRecord base extent)).base = base % 2 ^ 57
    ∧ (recOf (argRecord base extent)).extent = extent % 2 ^ 40 ∧ (recOf (argRecord base extent)).rd = true
    ∧ (recOf (argRecord base extent)).wr = false ∧ (recOf (argRecord base extent)).cls = 0 := by
  have hn : (argRecord base extent).toNat = extent % 2 ^ 40 * 2 ^ 64 + 2 ^ 61 + base % 2 ^ 57 := by
    rw [argRecord, BitVec.toNat_ofNat]
    omega
  simp only [recOf, BitVec.getLsbD, Nat.testBit_eq_decide_div_mod_eq, hn, decide_eq_true_eq, decide_eq_false_iff_not]
  omega

/-- A group that has what `groupAt` gives it, but for its age and what the entry's last group left. -/
theorem started_groupAt (l : Launch) (c : Cluster) (core team age sec seq : Nat) (w : Word) (posted : Bool) :
    Started { l.groupAt (l.identAt c core team 0 w) with age := age, rateFrom := age, secAt := sec, seq := seq, posted := posted } l := by
  refine ⟨⟨rfl, rfl, rfl⟩, ⟨rfl, rfl, rfl, rfl⟩, ⟨fun r => ?_, fun _ _ => rfl, fun _ => rfl, fun r hr => ?_⟩, recOf_argRecord _ _,
    ⟨rfl, rfl, rfl, rfl, rfl, rfl⟩, rfl, rfl, rfl, rfl⟩
  · simp [Machine.Group.rs, Launch.groupAt, Machine.Group.vacant]
  · simp [Machine.Group.rb, Launch.groupAt, Sparse.get, hr]

end Sys2Proof.Proofs
end

section

namespace Sys2Proof.Proofs

open Sys2Proof.Machine Sys2Proof.Claims Sys2Proof.Laws

/-! ### The placement of a cluster of one group (R30, R199, R211) -/

/-- What the placement of a cluster keeps of the state: the queues, memory, and a distributor with nothing to hand over. -/
structure KeepsQueues (s u : State) : Prop where
  hcls : u.hcls = s.hcls
  mem : u.mem = s.mem
  handed : Handed u

theorem KeepsQueues.trans {s t u : State} (a : KeepsQueues s t) (b : KeepsQueues t u) : KeepsQueues s u :=
  ⟨b.hcls.trans a.hcls, b.mem.trans a.mem, b.handed⟩

theorem repartition_of_noWaiters {s : State} {c : Nat} (p : Word) (h : (s.core c).waiters = []) :
    s.repartition c p = if (s.core c).poolcfg = p then s
      else s.setCore c { s.core c with l1 := [], scratch := [], poolcfg := p } := by
  simp only [State.repartition, h, List.map_nil, distinct, List.foldl_nil]

/-- What a core without waiting lanes holds once it has taken the boundaries `p`. -/
theorem repartition_core {s : State} {c : Nat} (p : Word) (h : (s.core c).waiters = []) :
    ((s.repartition c p).core c).poolcfg = p
      ∧ ((s.core c).poolcfg ≠ p → ((s.repartition c p).core c).l1 = [] ∧ ((s.repartition c p).core c).scratch = []) := by
  rw [repartition_of_noWaiters p h]
  split
  · next e => exact ⟨e, fun n => absurd e n⟩
  · rw [core_setCore_same]; exact ⟨rfl, fun _ => ⟨rfl, rfl⟩⟩

theorem repartition_frame {s : State} {c : Nat} (p : Word) (h : (s.core c).waiters = []) :
    (s.repartition c p).groups = s.groups ∧ (s.repartition c p).hcls = s.hcls ∧ (s.repartition c p).mem = s.mem
      ∧ (s.repartition c p).sched = s.sched := by
  rw [repartition_of_noWaiters p h]
  split <;> exact ⟨rfl, rfl, rfl, rfl⟩

theorem handed_collect {s : State} (h : Handed s) (g : Nat) : Handed (s.collect g) := h.onLaunch _ fun _ => ⟨rfl, rfl⟩

/-- The first group of a team without shades takes the lowest entry of its core. -/
theorem seat_of_idle {s : State} {c : Nat} {x : Machine.Group} (hg : s.groups = []) (hx : x.ident.index = 0) :
    s.seat c false x = ((s.collect (c * 32)).setGroup (c * 32)
      { x with age := s.ck, rateFrom := s.ck, secAt := s.ck / 2000, seq := (s.group (c * 32)).seq,
               posted := (s.group (c * 32)).posted || x.posted }, c * 32) := by
  simp only [State.seat, hx, freeEntries_of_idle hg]
  rfl

/-- Group `x` of a team has started in the lowest entry of idle core `c`. -/
structure Seated (s u : State) (c : Nat) (x : Machine.Group) : Prop where
  queues : KeepsQueues s u
  others : ∀ g, g ≠ c * 32 → u.group g = s.group g
  core : u.core c = { s.core c with idle := false }
  entry : ∃ age sec seq posted,
    u.group (c * 32) = { x with age := age, rateFrom := age, secAt := sec, seq := seq, posted := posted }

theorem seated_startTeam {s : State} {l : Launch} {k : TeamKey} {c : Nat} {x : Machine.Group} {w : Word} (hd : Handed s)
    (hg : s.groups = []) (hs : l.shade = false) (hx : x.ident.index = 0) : Seated s (s.startTeam l k c [x] w) c x := by
  simp only [State.startTeam, seatAll, hs, seat_of_idle hg hx]
  exact ⟨⟨rfl, rfl, (handed_collect hd _).of_sched rfl rfl⟩, fun g e => group_setGroup_other (s.collect _) _ e,
    core_setCore_same _ _ _, _, _, _, _, group_setGroup_same (s.collect _) _ _⟩

/-- The cluster of one team of one group at the lowest origin. -/
def oneCluster (l : Launch) (h : Nat) (t : TaskItem) : Cluster :=
  { ticket := t.ticket, index := t.cluster, hcl := h, row := 0, col := 0, w := 1, h := 1, unplaced := false,
    teams := [l.newTeam t.cluster 0 (h * 12)] }

theorem startCluster_of_new {s : State} {l : Launch} {h : Nat} {t : TaskItem} (hc : s.sched.clusters = [])
    (hw : l.record.cw = 1) (hh : l.record.ch = 1) : s.startCluster l h t 0 0 = oneCluster l h t := by
  simp only [State.startCluster, hc, hw, hh, List.find?_nil]
  rfl

/-- The first cluster of a launch that no handler submitted marks the launch as begun. -/
def begun (s : State) (l : Launch) : State := if l.begun then s else s.onLaunch l.ticket (fun l => { l with begun := true })

theorem begun_frame (s : State) (l : Launch) : (begun s l).groups = s.groups ∧ (begun s l).hcls = s.hcls
    ∧ (begun s l).mem = s.mem ∧ (begun s l).sched.clusters = s.sched.clusters := by
  unfold begun
  split <;> exact ⟨rfl, rfl, rfl, rfl⟩

theorem handed_begun {s : State} (h : Handed s) (l : Launch) : Handed (begun s l) := by
  unfold begun
  split
  · exact h
  · exact h.onLaunch _ fun _ => ⟨rfl, rfl⟩

/-- The state in which the cluster's team starts: its core has the launch's boundaries, and the cluster is placed. -/
def bounded (s : State) (l : Launch) (h : Nat) (t : TaskItem) : State :=
  let u := (begun s l).repartition (h * 12) l.poolcfg
  { u with sched := { u.sched with clusters := [oneCluster l h t] } }

theorem core_begun (s : State) (l : Launch) (c : Nat) : (begun s l).core c = s.core c := by
  unfold begun
  split <;> rfl

theorem placeStart_of_one {s : State} {l : Launch} {h : Nat} {t : TaskItem} (one : OneStart s h l t) :
    ∃ w, s.placeStart l h t 0 0 = (bounded s l h t).startTeam l (l.newTeam t.cluster 0 (h * 12)).key (h * 12)
      [l.groupAt (l.identAt (oneCluster l h t) (h * 12) 0 0 w)] w := by
  obtain ⟨⟨-, hclusters, -, -, -, -, hwait⟩, ⟨-, -, -, -, hlauncher⟩, ⟨hw, hh, hteam, -, -⟩, -, -⟩ := one
  obtain ⟨-, -, -, bclusters⟩ := begun_frame s l
  obtain ⟨-, -, -, rsched⟩ := repartition_frame (s := begun s l) l.poolcfg (by rw [core_begun]; exact hwait)
  have clusters : ((begun s l).repartition (h * 12) l.poolcfg).sched.clusters = [] := by rw [rsched, bclusters, hclusters]
  have first : (if l.begun then s else (s.journalStarted l).onLaunch l.ticket (fun l => { l with begun := true })) = begun s l := by
    rw [State.journalStarted, hlauncher]; rfl
  have cores : rectCores h 0 0 1 1 = [h * 12] := rfl
  have teams : (oneCluster l h t).teams.filter (fun m => m.stage == .queued) = [l.newTeam t.cluster 0 (h * 12)] := rfl
  have live : (l.newTeam t.cluster 0 (h * 12)).live = [0] := by rw [Launch.newTeam, hteam]; rfl
  refine ⟨((bounded s l h t).ctxEntry l.ctx).stbcfg, ?_⟩
  simp only [State.placeStart, startCluster_of_new hclusters hw hh, first, hw, hh, cores, List.foldl_cons, List.foldl_nil,
    clusters, List.filter_nil, List.nil_append, teams, live, List.map_cons, List.map_nil]
  rfl

/-- What the placement of the one cluster leaves: its core's boundaries, its group in the lowest entry, everything else. -/
structure Placed (s u : State) (h : Nat) (l : Launch) : Prop where
  queues : KeepsQueues s u
  others : ∀ g, g ≠ h * 12 * 32 → u.group g = s.group g
  poolcfg : (u.core (h * 12)).poolcfg = l.poolcfg
  emptied : (s.core (h * 12)).poolcfg ≠ l.poolcfg → (u.core (h * 12)).l1 = [] ∧ (u.core (h * 12)).scratch = []
  started : Started (u.group (h * 12 * 32)) l

theorem shade_of_one {s : State} {l : Launch} {h : Nat} {t : TaskItem} (one : OneStart s h l t) : l.shade = false := by
  obtain ⟨-, -, -, hflags, hhdr⟩ := one.one
  rw [Launch.shade, hflags, hhdr]
  rfl

theorem handed_of_one {s : State} {l : Launch} {h : Nat} {t : TaskItem} (one : OneStart s h l t) : Handed s := by
  obtain ⟨⟨-, -, hlaunches, -, -, hwaiting, -⟩, ⟨-, -, -, hsize, -⟩, -, -, -⟩ := one
  refine ⟨hwaiting, fun x hx => ?_⟩
  rw [hlaunches] at hx
  obtain rfl := List.mem_singleton.1 hx
  exact hsize

theorem placed_of_one {s : State} {l : Launch} {h : Nat} {t : TaskItem} (one : OneStart s h l t) :
    Placed s (s.placeStart l h t 0 0) h l := by
  obtain ⟨w, eq⟩ := placeStart_of_one one
  obtain ⟨idle, -, -, -, -, -, quiet⟩ := one.idle
  have hwait : ((begun s l).core (h * 12)).waiters = [] := by rw [core_begun]; exact quiet
  obtain ⟨hgroups, hhcls, hmem, -⟩ := begun_frame s l
  obtain ⟨rgroups, rhcls, rmem, rsched⟩ := repartition_frame l.poolcfg hwait
  obtain ⟨hpool, hempty⟩ := repartition_core l.poolcfg hwait
  rw [core_begun] at hempty
  have handed : Handed (bounded s l h t) := by
    have before := (handed_begun (handed_of_one one) l).of_sched (congrArg Sched.waiting rsched) (congrArg Sched.launches rsched)
    exact before.of_sched rfl rfl
  have groups : (bounded s l h t).groups = s.groups := rgroups.trans hgroups
  have seated := seated_startTeam (s := bounded s l h t) (l := l) (k := (l.newTeam t.cluster 0 (h * 12)).key) (c := h * 12)
    (x := l.groupAt (l.identAt (oneCluster l h t) (h * 12) 0 0 w)) (w := w) handed (groups.trans idle)
    (shade_of_one one) rfl
  rw [← eq] at seated
  obtain ⟨age, sec, seq, posted, entry⟩ := seated.entry
  have queues : KeepsQueues s (bounded s l h t) := ⟨rhcls.trans hhcls, rmem.trans hmem, handed⟩
  refine ⟨queues.trans seated.queues, fun g e => ?_, ?_, fun e => ?_, ?_⟩
  · rw [seated.others g e, State.group, groups]; rfl
  · rw [seated.core]; exact hpool
  · rw [seated.core]; exact hempty e
  · rw [entry]; exact started_groupAt _ _ _ _ _ _ _ _ _

/-! ### The task queue (R201) -/

theorem serveOrder_single {t : TaskItem} (h : t.prio < 8) : serveOrder [t] = [t] := by
  have filter (p : Nat) : [t].filter (fun t => t.prio == p) = if t.prio = p then [t] else [] := by
    by_cases e : t.prio = p <;> simp [e]
  simp only [serveOrder, filter]
  generalize t.prio = p at h
  match p, h with
  | 0, _ | 1, _ | 2, _ | 3, _ | 4, _ | 5, _ | 6, _ | 7, _ => rfl

theorem tryItem_of_one {s : State} {l : Launch} {h : Nat} {t : TaskItem} (one : OneStart s h l t) :
    s.tryItem h t = some (s.placeStart l h t 0 0) := by
  have shade := shade_of_one one
  obtain ⟨⟨hgroups, hclusters, hlaunches, htasks, -, -, -⟩, -, ⟨hw, hh, hteam, hflags, -⟩, hfits, ⟨hstart, hres, hticket, -, -⟩⟩ := one
  have found : s.launch? t.ticket = some l := by simp [State.launch?, hlaunches, hticket]
  have free (c res : Nat) : s.heldAgainst h t c res = 0 := by simp [State.heldAgainst, htasks, hres]
  have live : (l.newTeam t.cluster 0 (h * 12)).live = [0] := by rw [Launch.newTeam, hteam]; rfl
  have fits : (oneCluster l h t).teams.all (fun m => s.coreFits m.core l m.live (s.heldAgainst h t m.core)) = true := by
    show (s.coreFits (h * 12) l (l.newTeam t.cluster 0 (h * 12)).live _ && true) = true
    rw [live, coreFits_of_idle hgroups hclusters shade hfits (free _)]
    rfl
  have first : origins 1 1 = (0, 0) :: (origins 1 1).tail := rfl
  have pre : l.preemptible = false := by rw [Launch.preemptible, hflags]; rfl
  simp only [State.tryItem, found, pre, Bool.false_and, Bool.false_eq_true, if_false, hstart, if_true, hres, hw, hh]
  rw [first, List.find?_cons_of_pos, Option.map_some]
  dsimp only
  rw [startCluster_of_new hclusters hw hh]
  exact fits

theorem afterPlaced_of_only {s : State} {h : Nat} {t : TaskItem} (ht : (s.hcl h).tasks = [t]) :
    s.afterPlaced h t = s.setHcl h { s.hcl h with tasks := [] } := by
  have reserve : (List.range 8).foldl (fun ts p => reserveAt s h p ts) [] = [] := foldl_unchanged (fun _ => rfl) _
  have held (l : Launch) : (s.placedBy t).foldl (fun ts m => ts.map (useHeld t l m)) [] = [] := foldl_unchanged (fun _ => rfl) _
  simp only [State.afterPlaced, ht]
  cases s.launch? t.ticket <;> simp [held, reserve]

theorem clustersPlaced : ClustersPlaced := by
  refine ⟨fun s h l t one => ?_, fun s h hl hw ht => ?_⟩
  · have placed := placed_of_one one
    have handed := handed_of_one one
    have try_ := tryItem_of_one one
    obtain ⟨⟨-, -, hlaunches, htasks, -, -, -⟩, ⟨hchecked, -, -, -, -⟩, -, -, ⟨-, -, -, -, hprio⟩⟩ := one
    have checked : s.sched.launches.filter (fun l => !l.checked) = [] := by simp [hlaunches, hchecked]
    generalize s.placeStart l h t 0 0 = u at placed try_
    have tasks : (u.hcl h).tasks = [t] := by rw [State.hcl, placed.queues.hcls]; exact htasks
    have after : Handed (u.setHcl h { u.hcl h with tasks := [] }) := placed.queues.handed.of_sched rfl rfl
    refine ⟨u.setHcl h { u.hcl h with tasks := [] }, ?_, ?_, placed.started, placed.poolcfg, placed.others,
      placed.queues.mem, placed.emptied⟩
    · rw [exec_taskQueuePlace]
      simp only [execTaskQueuePlace, checked, List.foldl_nil, distribute_of_handed handed, htasks, serveOrder_single hprio,
        firstPlaced, try_, afterPlaced_of_only tasks]
      rw [distribute_of_handed after]
    · rw [hcl_setHcl_same]
  · have handed : Handed s := ⟨hw, by rw [hl]; exact fun _ h => absurd h List.not_mem_nil⟩
    have none_ : serveOrder [] = [] := rfl
    rw [exec_taskQueuePlace]
    simp only [execTaskQueuePlace, hl, List.filter_nil, List.foldl_nil, distribute_of_handed handed, ht, none_, firstPlaced]

/-- Settles O57: placement and the windows, each by its own lemma. -/
theorem placement : Obligations.Placement := ⟨clustersPlaced, windowsAndTimeouts⟩

end Sys2Proof.Proofs
end

section

namespace Sys2Proof.Proofs

open Sys2Proof.Machine Sys2Proof.Claims Sys2Proof.Laws

/-! ### Writing the words of lanes -/

theorem writeWords_eq_foldl (x : Machine.Group) (vd lane : Nat) (ws : List Word) :
    x.writeWords vd lane ws = (ws.zipIdx).foldl (fun x e => x.wv (vd + e.2) lane e.1) x := by
  rw [Group.writeWords, List.zipIdx_eq_zip_range', List.range_eq_range']

theorem rv_wv (x : Machine.Group) {r q l i : Nat} (v : Word) (hl : l < 32) (hi : i < 32) :
    (x.wv r l v).rv q i = if i = l ∧ q = r then v else x.rv q i := by
  by_cases h : i = l ∧ q = r
  · obtain ⟨rfl, rfl⟩ := h; simp
  · rw [if_neg h, rv_wv_other x v (by omega)]

theorem rv_foldl_zipIdx {vd lane : Nat} (hl : lane < 32) {r i : Nat} (hi : i < 32) (ws : List Word) (x : Machine.Group)
    (n : Nat) : ((ws.zipIdx n).foldl (fun x e => x.wv (vd + e.2) lane e.1) x).rv r i
      = if i = lane ∧ vd + n ≤ r ∧ r < vd + n + ws.length then ws.getD (r - (vd + n)) 0 else x.rv r i := by
  induction ws generalizing x n with
  | nil => rw [if_neg (by rw [List.length_nil]; omega)]; rfl
  | cons w ws ih =>
    rw [List.zipIdx_cons, List.foldl_cons, ih, rv_wv x w hl hi, List.length_cons]
    by_cases hw : i = lane ∧ r = vd + n
    · obtain ⟨rfl, rfl⟩ := hw
      rw [if_neg (by omega), if_pos ⟨rfl, rfl⟩, if_pos (by omega), Nat.sub_self, List.getD_cons_zero]
    · rw [if_neg hw]
      by_cases h : i = lane ∧ vd + (n + 1) ≤ r ∧ r < vd + (n + 1) + ws.length
      · rw [if_pos h, if_pos (by omega), show r - (vd + n) = r - (vd + (n + 1)) + 1 by omega, List.getD_cons_succ]
      · rw [if_neg h, if_neg (by omega)]

/-- What a register reads after the words of one lane are written from register `vd` up. -/
theorem rv_writeWords (x : Machine.Group) {vd lane : Nat} (ws : List Word) (hl : lane < 32) {r i : Nat} (hi : i < 32) :
    (x.writeWords vd lane ws).rv r i
      = if i = lane ∧ vd ≤ r ∧ r < vd + ws.length then ws.getD (r - vd) 0 else x.rv r i := by
  rw [writeWords_eq_foldl, rv_foldl_zipIdx hl hi]; rfl

/-- Steps that each change vector registers alone change vector registers alone. -/
theorem foldl_vectors_only {α : Type} {f : Machine.Group → α → Machine.Group} (hf : ∀ y a, f y a = { y with v := (f y a).v })
    (l : List α) (x : Machine.Group) : l.foldl f x = { x with v := (l.foldl f x).v } := by
  induction l generalizing x with
  | nil => rfl
  | cons a l ih => rw [List.foldl_cons, ih, hf]

theorem writeWords_frame (x : Machine.Group) (vd lane : Nat) (ws : List Word) :
    x.writeWords vd lane ws = { x with v := (x.writeWords vd lane ws).v } :=
  foldl_vectors_only (fun _ _ => rfl) _ x

/-- Every lane of a list gets its words from register `vd` up. -/
def writeLanes (x : Machine.Group) (vd : Nat) (g : Nat → List Word) (lanes : List Nat) : Machine.Group :=
  lanes.foldl (fun x i => x.writeWords vd i (g i)) x

theorem writeLanes_frame (x : Machine.Group) (vd : Nat) (g : Nat → List Word) (lanes : List Nat) :
    writeLanes x vd g lanes = { x with v := (writeLanes x vd g lanes).v } :=
  foldl_vectors_only (fun y i => writeWords_frame y vd i (g i)) lanes x

/-- What a register reads after the words of some lanes are written. -/
theorem rv_writeLanes (x : Machine.Group) {vd : Nat} (g : Nat → List Word) {lanes : List Nat} (hl : ∀ i ∈ lanes, i < 32)
    {r i : Nat} (hi : i < 32) :
    (writeLanes x vd g lanes).rv r i
      = if i ∈ lanes ∧ vd ≤ r ∧ r < vd + (g i).length then (g i).getD (r - vd) 0 else x.rv r i := by
  induction lanes generalizing x with
  | nil => simp [writeLanes]
  | cons a rest ih =>
    obtain ⟨ha, hrest⟩ := List.forall_mem_cons.1 hl
    show (writeLanes (x.writeWords vd a (g a)) vd g rest).rv r i = _
    rw [ih _ hrest, rv_writeWords x (g a) ha hi]
    by_cases e : i = a
    · subst e
      by_cases hw : vd ≤ r ∧ r < vd + (g i).length <;> simp [hw]
    · simp [e]

/-! ### Flags that are not raised -/

@[simp] theorem orFstat_zero (x : Machine.Group) : x.orFstat 0 = x := by
  simp [Group.orFstat]

@[simp] theorem orVstat_zero (x : Machine.Group) : x.orVstat 0 = x := by
  simp [Group.orVstat]

theorem orAll_of_zero {l : List Nat} (h : ∀ v ∈ l, v = 0) : orAll l = 0 :=
  List.foldlRecOn (motive := fun a => a = 0) _ _ rfl fun a ha v hv => by rw [ha, h v hv, Nat.or_self]

theorem foldl_or_eq_ite {l : List Nat} {v : Nat} (hv : v ≠ 0) (h : ∀ a ∈ l, a = 0 ∨ a = v) (b : Nat) :
    l.foldl (· ||| ·) b = b ||| if v ∈ l then v else 0 := by
  induction l generalizing b with
  | nil => simp
  | cons a rest ih =>
    obtain ⟨ha, hrest⟩ := List.forall_mem_cons.1 h
    rw [List.foldl_cons, ih hrest, Nat.or_assoc]
    rcases ha with rfl | rfl
    · simp [hv]
    · rw [if_pos List.mem_cons_self]
      split <;> simp

/-- Where no lane raises more than one flag, the flags of all lanes are that flag or none. -/
theorem orAll_eq_ite {l : List Nat} {v : Nat} (hv : v ≠ 0) (h : ∀ a ∈ l, a = 0 ∨ a = v) : orAll l = if v ∈ l then v else 0 := by
  rw [orAll, foldl_or_eq_ite hv h, Nat.zero_or]

/-! ### Active lanes -/

theorem mem_lanesOf (m : Word) (i : Nat) : i ∈ lanesOf m ↔ i < 32 ∧ m.getLsbD i = true := by
  simp [lanesOf]

theorem lt_of_mem_lanesOf {m : Word} {i : Nat} (h : i ∈ lanesOf m) : i < 32 := ((mem_lanesOf m i).1 h).1

theorem mem_lanesOf_laneMask (s : State) (b : Block) (kq : KReg) (i : Nat) :
    i ∈ lanesOf (s.me.laneMask b kq) ↔ Active s b kq i := by
  rw [mem_lanesOf, Group.laneMask, Active]
  by_cases h : kq = 0
  · simp [h]
  · rw [if_neg h, BitVec.getLsbD_and, Bool.and_eq_true, forall_prop_of_true h]

/-! ### Completing without a flag of FSTAT -/

/-- Results that raise no flag of FSTAT are written in every lane, and the instruction completes. -/
theorem perLane_of_quiet {l : Lane} {vd : Nat} {f : Machine.Group → Nat → LaneRes} {s : State}
    (h : ∀ i, (f s.me i).flags = 0) :
    perLane l vd f s = laneRetire l (s.setMe (writeLanes (s.me.orVstat (orAll ((lanesOf l.act).map fun i => (f s.me i).vstat)))
      vd (fun i => (f s.me i).words) (lanesOf l.act))) := by
  have noFault : faultingLanes l.b.fpe ((lanesOf l.act).map fun i => (i, f s.me i)) = [] := by
    simp [faultingLanes, List.filter_eq_nil_iff, h]
  have flags : orAll (((lanesOf l.act).map fun i => (i, f s.me i)).map (·.2.flags)) = 0 :=
    orAll_of_zero (by simp [h])
  have vstat : ((lanesOf l.act).map fun i => (i, f s.me i)).map (·.2.vstat) = (lanesOf l.act).map fun i => (f s.me i).vstat :=
    List.map_map
  have all (rs : List (Nat × LaneRes)) : rs.filter (fun _ => true) = rs := List.filter_eq_self.2 fun _ _ => rfl
  simp only [perLane, laneResults, noFault, flags, vstat, orFstat_zero, List.contains_nil, Bool.not_false, all,
    List.isEmpty_nil, if_true, writeLanes, List.foldl_map]

/-! ### Passing the checks at issue -/

/-- Lane instruction `i` passes its checks and waits for nothing, whatever it then does. -/
def Runs (i : Instr) (kq : KReg) (need : Need) (s : State) (b : Block) : Prop :=
  ∀ k, laneOp i kq need s k = k (s.me.laneAt b (laneWord i) kq) s

theorem issueTrap_of_issues {i : Instr} {kq : KReg} {need : Need} {s : State} {b : Block} (h : Issues i kq need s b) :
    s.issueTrap (s.me.laneAt b (laneWord i) kq) (formOf i) kq need = none := by
  have rounding : ¬(need.rnd = 6 ∧ 5 ≤ (s.me.laneAt b (laneWord i) kq).b.frm.toNat % 8) :=
    fun ⟨h6, h5⟩ => absurd (h.rounding h6) (Nat.not_lt.2 h5)
  rw [issueTrap_eq, if_neg, if_neg, if_neg, if_neg]
  · exact (Bool.eq_false_iff.1 h.format)
  · exact fun ⟨hf, hn⟩ => Bool.eq_false_iff.1 hn (h.flame hf)
  · exact fun ⟨ha, hn⟩ => hn (h.convergent ha)
  · rintro (hf | hb | hr)
    · exact Bool.eq_false_iff.1 hf h.fields
    · exact hb h.budget
    · exact rounding hr

theorem runs_of_issues {i : Instr} {kq : KReg} {need : Need} {s : State} {b : Block} (h : Issues i kq need s b) :
    Runs i kq need s b :=
  fun _ => laneOp_of_ready h.head (issueTrap_of_issues h) h.ready

theorem laneBusy_setMe {s : State} {y : Machine.Group} (hloads : y.loads = s.me.loads) (hlocks : y.locks = s.me.locks)
    (form : LaneForm) : (s.setMe y).laneBusy form = s.laneBusy form := by
  have me : (s.setMe y).group s.cur.g = y := me_setMe s y
  have pending (rs : List (Nat × Nat)) : (s.setMe y).pendingV (s.setMe y).cur.g rs = s.pendingV s.cur.g rs := by
    rw [setMe_cur, State.pendingV, me, hloads]; rfl
  rw [State.laneBusy, pending, me_setMe, Group.lockedV, hlocks, Group.mayFault, hloads]; rfl

/-- R26: updates of VSTAT still to come hold no instruction back. -/
theorem runs_behind_lateV {i : Instr} {kq : KReg} {s : State} {b : Block} (l : List LateFlag)
    (h : Issues i kq Need.plain s b) : Runs i kq Need.plain (s.setMe { s.me with lateV := l }) b := by
  have me : (s.setMe { s.me with lateV := l }).me = { s.me with lateV := l } := me_setMe s _
  refine fun _ => laneOp_of_ready ?_ ?_ ?_
  · rw [me]; exact h.head
  · refine Eq.trans ?_ (issueTrap_of_issues h)
    rw [issueTrap_eq, issueTrap_eq, me]
    rfl
  · exact Eq.trans (laneBusy_setMe (by rfl) (by rfl) _) h.ready

end Sys2Proof.Proofs
end

section

namespace Sys2Proof.Proofs

open Sys2Proof.Machine Sys2Proof.Claims Sys2Proof.Laws

/-! ### Elements of an operand (R64, R123) -/

theorem elemAt_lt (w k v : Nat) : elemAt w k v < 2 ^ w := Nat.mod_lt _ (Nat.two_pow_pos w)

theorem joinElems_lt (w : Nat) (es : List Nat) : joinElems w es < 2 ^ (w * es.length) := by
  induction es with
  | nil => simp [joinElems]
  | cons e es ih =>
    rw [joinElems, List.length_cons, Nat.mul_succ, Nat.add_comm, Nat.add_comm (w * _), Nat.pow_add]
    have low : e % 2 ^ w < 2 ^ w := Nat.mod_lt _ (Nat.two_pow_pos w)
    have high : 2 ^ w * (joinElems w es + 1) ≤ 2 ^ w * 2 ^ (w * es.length) := Nat.mul_le_mul_left _ ih
    rw [Nat.mul_succ] at high
    omega

/-- An element of elements put together. -/
theorem elemAt_joinElems {w k : Nat} {es : List Nat} (h : k < es.length) : elemAt w k (joinElems w es) = es[k] % 2 ^ w := by
  induction es generalizing k with
  | nil => exact absurd h (Nat.not_lt_zero k)
  | cons e es ih =>
    cases k with
    | zero => simp [elemAt, joinElems]
    | succ k =>
      have tail : joinElems w (e :: es) / 2 ^ w = joinElems w es := by
        rw [joinElems, Nat.add_mul_div_left _ _ (Nat.two_pow_pos w), Nat.div_eq_of_lt (Nat.mod_lt _ (Nat.two_pow_pos w)),
          Nat.zero_add]
      rw [List.getElem_cons_succ, ← ih (Nat.lt_of_succ_lt_succ h), elemAt, elemAt, Nat.mul_succ, Nat.add_comm, Nat.pow_add,
        ← Nat.div_div_eq_div_mul, tail]

theorem elemBits_cases (ty : Nat) : elemBits ty = 64 ∨ elemBits ty = 32 ∨ elemBits ty = 16 ∨ elemBits ty = 8 := by
  unfold elemBits
  split
  · exact .inl rfl
  · split
    · exact .inr (.inl rfl)
    · split
      · exact .inr (.inr (.inl rfl))
      · exact .inr (.inr (.inr rfl))

theorem elemBits_pos (ty : Nat) : 0 < elemBits ty := by
  rcases elemBits_cases ty with h | h | h | h <;> omega

theorem elemBits_mul_elemCount (ty : Nat) : elemBits ty * elemCount ty = 32 * wideOf ty := by
  rcases elemBits_cases ty with h | h | h | h <;> simp [elemCount, perWord, wideOf, h]

theorem length_resultWords (ty v : Nat) : (resultWords ty v).length = wideOf ty := by
  unfold resultWords wideOf; split <;> rfl

/-- A register, or a pair, that holds the words of a result reads as the result. -/
theorem operand_of_resultWords {y : Machine.Group} {ty vd i v : Nat} (hv : v < 2 ^ (32 * wideOf ty))
    (h : ∀ k, k < wideOf ty → y.rv (vd + k) i = (resultWords ty v).getD k 0) :
    y.operand (decide (elemBits ty = 64)) vd i = v := by
  by_cases wide : elemBits ty = 64
  · simp only [wideOf, resultWords, wide, if_true] at hv h
    have lo : y.rv vd i = BitVec.ofNat 32 v := h 0 (by decide)
    have hi : y.rv (vd + 1) i = BitVec.ofNat 32 (v / 2 ^ 32) := h 1 (by decide)
    simp only [Group.operand, wide, decide_true, if_true, Group.rv64, lo, hi, BitVec.toNat_append, BitVec.toNat_ofNat]
    rw [← Nat.shiftLeft_add_eq_or_of_lt (Nat.mod_lt _ (by decide)), Nat.shiftLeft_eq]
    omega
  · simp only [wideOf, resultWords, wide, if_false] at hv h
    have lo : y.rv vd i = BitVec.ofNat 32 v := h 0 (by decide)
    simp only [Group.operand, wide, decide_false, Bool.false_eq_true, if_false, lo, BitVec.toNat_ofNat]
    exact Nat.mod_eq_of_lt hv

/-! ### Wrapping and clamping (R65) -/

theorem two_pow_pos_int (n : Nat) : (0 : Int) < 2 ^ n := by
  exact_mod_cast Nat.two_pow_pos n

theorem intBits_lt (w : Nat) (z : Int) : intBits w z < 2 ^ w := by
  have pos := two_pow_pos_int w
  have low : 0 ≤ z % 2 ^ w := Int.emod_nonneg z (by omega)
  have high : z % 2 ^ w < 2 ^ w := Int.emod_lt_of_pos z pos
  have cast : ((2 ^ w : Nat) : Int) = 2 ^ w := by push_cast; rfl
  rw [intBits]
  omega

theorem fitInt_fst_lt (ty w : Nat) (sat : Bool) (e : Int) : (fitInt ty w sat e).1 < 2 ^ w := by
  unfold fitInt
  split
  · exact intBits_lt _ _
  · split <;> exact intBits_lt _ _

theorem fitInt_wrapped (ty w : Nat) {sat : Bool} (h : sat = false) (e : Int) : (fitInt ty w sat e).1 = (e % 2 ^ w).toNat := by
  subst h; rfl

theorem fitInt_clamped (ty w : Nat) {sat : Bool} (h : sat = true) (e : Int) : (fitInt ty w sat e).1
    = ((if e < elemLow ty w then elemLow ty w else if elemHigh ty w < e then elemHigh ty w else e) % 2 ^ w).toNat := by
  subst h
  simp only [fitInt, true_and]
  split
  · rfl
  · split <;> rfl

theorem fitInt_snd (ty w : Nat) (sat : Bool) (e : Int) :
    (fitInt ty w sat e).2 = true ↔ sat = true ∧ (e < elemLow ty w ∨ elemHigh ty w < e) := by
  by_cases low : sat = true ∧ e < elemLow ty w
  · rw [fitInt, if_pos low]
    exact iff_of_true rfl ⟨low.1, .inl low.2⟩
  · by_cases high : sat = true ∧ elemHigh ty w < e
    · rw [fitInt, if_neg low, if_pos high]
      exact iff_of_true rfl ⟨high.1, .inr high.2⟩
    · rw [fitInt, if_neg low, if_neg high]
      exact iff_of_false Bool.false_ne_true fun ⟨hs, h⟩ => h.elim (fun h => low ⟨hs, h⟩) fun h => high ⟨hs, h⟩

/-- The value of an element lies within its type's range. -/
theorem elemInt_mem_range (ty : Nat) {w b : Nat} (hw : 0 < w) (hb : b < 2 ^ w) :
    elemLow ty w ≤ elemInt ty w b ∧ elemInt ty w b ≤ elemHigh ty w := by
  obtain ⟨n, rfl⟩ : ∃ n, w = n + 1 := ⟨w - 1, by omega⟩
  have pow : (2 : Int) ^ (n + 1) = 2 ^ n * 2 := Int.pow_succ 2 n
  have hb' : (b : Int) < 2 ^ (n + 1) := by exact_mod_cast hb
  rw [elemLow, elemHigh, elemInt, Nat.add_sub_cancel]
  cases isSigned ty with
  | false =>
    simp only [Bool.false_and, Bool.false_eq_true, if_false]
    omega
  | true =>
    by_cases top : 2 ^ n ≤ b
    · have : (2 : Int) ^ n ≤ b := by exact_mod_cast top
      simp only [Bool.true_and, decide_eq_true top, if_true]
      omega
    · have : (b : Int) < 2 ^ n := by exact_mod_cast Nat.lt_of_not_le top
      simp only [Bool.true_and, decide_eq_false top, Bool.false_eq_true, if_false, if_true]
      omega

/-- The quotient towards zero never lies below the range. -/
theorem elemLow_le_tdiv (ty : Nat) {w a b : Nat} (hw : 0 < w) (ha : a < 2 ^ w) :
    elemLow ty w ≤ (elemInt ty w a).tdiv (elemInt ty w b) := by
  obtain ⟨low, high⟩ := elemInt_mem_range ty hw ha
  have small : ((elemInt ty w a).tdiv (elemInt ty w b)).natAbs ≤ (elemInt ty w a).natAbs := Int.natAbs_tdiv_le_natAbs _ _
  by_cases signed : isSigned ty = true
  · rw [elemLow, elemHigh] at *
    simp only [signed, if_true] at *
    omega
  · have nonneg (c : Nat) : 0 ≤ elemInt ty w c := by simp [elemInt, signed]
    rw [elemLow, if_neg signed]
    exact Int.tdiv_nonneg (nonneg a) (nonneg b)

/-! ### Bits of results (R128) -/

theorem intBits_eq {w m : Nat} {z : Int} (hm : m < 2 ^ w) (k : Int) (h : z = m + 2 ^ w * k) : intBits w z = m := by
  rw [intBits, h, Int.add_mul_emod_self_left, Int.emod_eq_of_lt (Int.natCast_nonneg m) (by exact_mod_cast hm), Int.toNat_natCast]

theorem intBits_natCast (w m : Nat) : intBits w (m : Int) = m % 2 ^ w :=
  intBits_eq (Nat.mod_lt _ (Nat.two_pow_pos w)) (m / 2 ^ w : Nat) (by exact_mod_cast (Nat.mod_add_div m (2 ^ w)).symm)

/-- Shifting right commutes with taking the low bits. -/
theorem intBits_ediv_two_pow (w n : Nat) (z : Int) : intBits w (z / 2 ^ n) = intBits (w + n) z / 2 ^ n := by
  have rest : (intBits (w + n) z : Int) = z % 2 ^ (w + n) := Int.toNat_of_nonneg (Int.emod_nonneg z (Int.ne_of_gt (two_pow_pos_int _)))
  refine intBits_eq (Nat.div_lt_of_lt_mul ?_) (z / 2 ^ (w + n)) ?_
  · rw [← Nat.pow_add, Nat.add_comm]; exact intBits_lt _ z
  · have parts : z = z % 2 ^ (w + n) + 2 ^ n * (2 ^ w * (z / 2 ^ (w + n))) := by
      rw [← Int.mul_assoc, ← Int.pow_add, Nat.add_comm n]; exact (Int.emod_add_mul_ediv z _).symm
    push_cast
    rw [rest, ← Int.add_mul_ediv_left _ _ (Int.ne_of_gt (two_pow_pos_int n)), ← parts]

theorem testBit_top {n v : Nat} (hn : 0 < n) (hv : v < 2 ^ n) : v.testBit (n - 1) = decide (2 ^ (n - 1) ≤ v) := by
  by_cases h : 2 ^ (n - 1) ≤ v
  · rw [Nat.testBit_of_two_pow_le_and_two_pow_add_one_gt h (by rwa [Nat.sub_add_cancel hn]), decide_eq_true h]
  · rw [Nat.testBit_lt_two_pow (Nat.lt_of_not_le h), decide_eq_false h]

/-- The low bits of a negative value: ones above it. -/
theorem intBits_sub_two_pow {n v : Nat} (m : Nat) (hv : v < 2 ^ n) :
    intBits (n + m) ((v : Int) - 2 ^ n) = 2 ^ n * (2 ^ m - 1) + v := by
  refine intBits_eq ?_ (-1) ?_
  · have : 2 ^ n * 1 ≤ 2 ^ n * 2 ^ m := Nat.mul_le_mul_left _ Nat.one_le_two_pow
    rw [Nat.pow_add, Nat.mul_sub]
    omega
  · push_cast [Nat.one_le_two_pow]
    rw [Int.pow_add, Int.mul_sub]
    omega

/-- The bits of an element's value: above its own bits its sign, for a signed type, or zero. -/
theorem testBit_intBits_elemInt (ty : Nat) {w n v j : Nat} (hn : 0 < n) (hw : n ≤ w) (hv : v < 2 ^ n) (hj : j < w) :
    (intBits w (elemInt ty n v)).testBit j = if j < n then v.testBit j else isSigned ty && v.testBit (n - 1) := by
  obtain ⟨m, rfl⟩ := Nat.exists_eq_add_of_le hw
  rw [testBit_top hn hv, elemInt]
  cases isSigned ty && decide (2 ^ (n - 1) ≤ v) with
  | true =>
    rw [if_pos rfl, intBits_sub_two_pow m hv, Nat.testBit_two_pow_mul_add _ hv, Nat.testBit_two_pow_sub_one]
    split
    · rfl
    · exact decide_eq_true (by omega)
  | false =>
    have high (h : ¬j < n) : v.testBit j = false :=
      Nat.testBit_lt_two_pow (Nat.lt_of_lt_of_le hv (Nat.pow_le_pow_right (by decide) (Nat.le_of_not_lt h)))
    rw [if_neg Bool.false_ne_true, intBits_natCast, Nat.testBit_mod_two_pow, decide_eq_true hj, Bool.true_and]
    split
    · rfl
    · exact high ‹_›

theorem testBit_shiftRightArith {w a n j : Nat} (hw : 0 < w) (ha : a < 2 ^ w) (hj : j < w) :
    (shiftRightArith w a n % 2 ^ w).testBit j = a.testBit (if j + n < w then j + n else w - 1) := by
  have low_bits : shiftRightArith w a n % 2 ^ w = intBits (w + n) (elemInt 0 w a) / 2 ^ n := by
    rw [← intBits_ediv_two_pow, shiftRightArith, elemInt]
    by_cases top : 2 ^ (w - 1) ≤ a
    · rw [if_pos top, if_pos (by rw [decide_eq_true top]; rfl), Nat.mod_eq_of_lt (intBits_lt w _)]
    · rw [if_neg top, if_neg (by rw [decide_eq_false top]; decide), ← intBits_natCast]
      push_cast
      rfl
  rw [low_bits, Nat.testBit_div_two_pow, testBit_intBits_elemInt 0 hw (Nat.le_add_right w n) ha (by omega)]
  split <;> rfl

theorem testBit_insertField {a b p n j : Nat} :
    (a - a / 2 ^ p % 2 ^ n * 2 ^ p + b % 2 ^ n * 2 ^ p).testBit j
      = if p ≤ j ∧ j < p + n then b.testBit (j - p) else a.testBit j := by
  have parts : a - a / 2 ^ p % 2 ^ n * 2 ^ p + b % 2 ^ n * 2 ^ p
      = 2 ^ p * (2 ^ n * (a / 2 ^ p / 2 ^ n) + b % 2 ^ n) + a % 2 ^ p := by
    have low : 2 ^ p * (a / 2 ^ p) + a % 2 ^ p = a := Nat.div_add_mod a _
    have high : 2 ^ p * (2 ^ n * (a / 2 ^ p / 2 ^ n)) + 2 ^ p * (a / 2 ^ p % 2 ^ n) = 2 ^ p * (a / 2 ^ p) := by
      rw [← Nat.mul_add, Nat.div_add_mod]
    rw [Nat.mul_add, Nat.mul_comm (_ % _), Nat.mul_comm (b % _)]
    omega
  rw [parts, Nat.testBit_two_pow_mul_add _ (Nat.mod_lt _ (Nat.two_pow_pos p)),
    Nat.testBit_two_pow_mul_add _ (Nat.mod_lt _ (Nat.two_pow_pos n)), Nat.testBit_mod_two_pow, Nat.testBit_mod_two_pow,
    Nat.testBit_div_two_pow, Nat.testBit_div_two_pow]
  by_cases below : j < p
  · rw [if_pos below, if_neg (by omega), decide_eq_true below, Bool.true_and]
  · by_cases inside : j - p < n
    · rw [if_neg below, if_pos inside, if_pos (by omega), decide_eq_true inside, Bool.true_and]
    · rw [if_neg below, if_neg inside, if_neg (by omega), show j - p - n + n + p = j by omega]

theorem popNat_eq_length (w a : Nat) : popNat w a = ((List.range w).filter (fun j => a / 2 ^ j % 2 = 1)).length := by
  induction w generalizing a with
  | zero => rfl
  | succ w ih =>
    have shift : ((fun j => decide (a / 2 ^ j % 2 = 1)) ∘ Nat.succ) = fun j => decide (a / 2 / 2 ^ j % 2 = 1) := by
      funext j; simp [Nat.pow_succ', Nat.div_div_eq_div_mul]
    rw [popNat, ih, List.range_succ_eq_map, List.filter_cons, List.filter_map, shift]
    rcases Nat.mod_two_eq_zero_or_one a with h | h <;> simp [h, Nat.add_comm]

theorem rotLeft_lt {w a n : Nat} (hn : n ≤ w) (ha : a < 2 ^ w) : rotLeft w a n < 2 ^ w := by
  obtain ⟨m, rfl⟩ := Nat.exists_eq_add_of_le hn
  rw [Nat.pow_add] at ha
  have high : a / 2 ^ m < 2 ^ n := Nat.div_lt_of_lt_mul (by rwa [Nat.mul_comm])
  have low : 2 ^ n * (a % 2 ^ m + 1) ≤ 2 ^ n * 2 ^ m := Nat.mul_le_mul_left _ (Nat.mod_lt _ (Nat.two_pow_pos m))
  rw [rotLeft, Nat.add_sub_cancel_left, Nat.pow_add, Nat.mul_comm a, Nat.mul_mod_mul_left]
  rw [Nat.mul_succ] at low
  omega

end Sys2Proof.Proofs
end

section

namespace Sys2Proof.Proofs

open Sys2Proof.Machine Sys2Proof.Claims Sys2Proof.Laws

/-! ### Integer lane instructions, element by element -/

theorem elemA_lt (f : LA) (x : Machine.Group) (i k : Nat) : elemA f x i k < 2 ^ elemBits f.ty.toNat := elemAt_lt _ _ _

theorem elemB_lt (f : LA) (x : Machine.Group) (i k : Nat) : elemB f x i k < 2 ^ elemBits f.ty.toNat := elemAt_lt _ _ _

/-- What `op` gives for element `k` of lane `i`: its bits, and whether it was clamped. -/
def elemRes (f : LA) (op : Nat → Nat → Nat → Nat × Bool) (x : Machine.Group) (i k : Nat) : Nat × Bool :=
  op (elemA f x i k) (elemB f x i k) (elemC f x i k)

/-- Lane instruction `i` that gives each element of the active lanes what `op` gives. -/
def perElement (i : Instr) (f : LA) (op : Nat → Nat → Nat → Nat × Bool) (s : State) : Res :=
  laneOp i f.kq Need.plain s fun l s => perLane l f.vd.toNat (intLane f op) s

/-- Some element of a lane of `act` was clamped. -/
def ElemClamped (f : LA) (op : Nat → Nat → Nat → Nat × Bool) (x : Machine.Group) (act : Word) : Prop :=
  ∃ i ∈ lanesOf act, ∃ k < elemCount f.ty.toNat, (elemRes f op x i k).2 = true

/-- The group once the lanes of `act` have their results and VSTAT its bit. -/
def intDone (f : LA) (op : Nat → Nat → Nat → Nat × Bool) (x : Machine.Group) (act : Word) : Machine.Group :=
  writeLanes (x.orVstat (orAll ((lanesOf act).map fun i => (intLane f op x i).vstat))) f.vd.toNat
    (fun i => (intLane f op x i).words) (lanesOf act)

section

variable {f : LA} {op : Nat → Nat → Nat → Nat × Bool} {x : Machine.Group} {act : Word}

theorem intLane_vstat (i : Nat) : (intLane f op x i).vstat
    = if ((List.range (elemCount f.ty.toNat)).map (elemRes f op x i)).any (·.2) then 1 else 0 := rfl

theorem orAll_vstat_of_clamped (h : ElemClamped f op x act) :
    orAll ((lanesOf act).map fun i => (intLane f op x i).vstat) = 1 := by
  obtain ⟨i, hi, k, hk, sat⟩ := h
  have raised : 1 ∈ (lanesOf act).map fun i => (intLane f op x i).vstat :=
    List.mem_map.2 ⟨i, hi, if_pos (List.any_eq_true.2 ⟨_, List.mem_map_of_mem (List.mem_range.2 hk), sat⟩)⟩
  have flags : ∀ a ∈ (lanesOf act).map fun i => (intLane f op x i).vstat, a = 0 ∨ a = 1 := by
    intro a ha
    obtain ⟨j, -, rfl⟩ := List.mem_map.1 ha
    rw [intLane_vstat]
    split <;> simp
  rw [orAll_eq_ite Nat.one_ne_zero flags, if_pos raised]

theorem orAll_vstat_of_not_clamped (h : ¬ElemClamped f op x act) :
    orAll ((lanesOf act).map fun i => (intLane f op x i).vstat) = 0 := by
  refine orAll_of_zero fun a ha => ?_
  obtain ⟨i, hi, rfl⟩ := List.mem_map.1 ha
  refine if_neg fun sat => h ?_
  obtain ⟨r, hr, sat⟩ := List.any_eq_true.1 sat
  obtain ⟨k, hk, rfl⟩ := List.mem_map.1 hr
  exact ⟨i, hi, k, List.mem_range.1 hk, sat⟩

theorem intDone_of_clamped (h : ElemClamped f op x act) :
    intDone f op x act = { x.orVstat 1 with v := (intDone f op x act).v } := by
  rw [intDone, orAll_vstat_of_clamped h]
  exact writeLanes_frame _ _ _ _

theorem intDone_of_not_clamped (h : ¬ElemClamped f op x act) :
    intDone f op x act = { x with v := (intDone f op x act).v } := by
  rw [intDone, orAll_vstat_of_not_clamped h, orVstat_zero]
  exact writeLanes_frame _ _ _ _

theorem rv_orVstat (bits r i : Nat) : (x.orVstat bits).rv r i = x.rv r i := by
  unfold Group.orVstat
  split
  · rfl
  · split <;> rfl

/-- A register after the instruction. -/
theorem rv_intDone (r : Nat) {i : Nat} (hi : i < 32) :
    (intDone f op x act).rv r i = if i ∈ lanesOf act ∧ f.vd.toNat ≤ r ∧ r < f.vd.toNat + wideOf f.ty.toNat
      then (intLane f op x i).words.getD (r - f.vd.toNat) 0 else x.rv r i := by
  have len : (intLane f op x i).words.length = wideOf f.ty.toNat := length_resultWords _ _
  rw [intDone, rv_writeLanes _ _ (fun _ => lt_of_mem_lanesOf) hi, len, rv_orVstat]

theorem elemOf_intDone {i k : Nat} (hi : i ∈ lanesOf act) (hk : k < elemCount f.ty.toNat) :
    elemOf (intDone f op x act) f.ty.toNat f.vd.toNat i k = (elemRes f op x i k).1 % 2 ^ elemBits f.ty.toNat := by
  have bound := joinElems_lt (elemBits f.ty.toNat) (((List.range (elemCount f.ty.toNat)).map (elemRes f op x i)).map (·.1))
  rw [List.length_map, List.length_map, List.length_range, elemBits_mul_elemCount] at bound
  have whole := operand_of_resultWords (y := intDone f op x act) (vd := f.vd.toNat) (i := i) bound fun k hk => by
    rw [rv_intDone _ (lt_of_mem_lanesOf hi), if_pos ⟨hi, by omega, by omega⟩, Nat.add_sub_cancel_left]; rfl
  rw [elemOf, whole, elemAt_joinElems (by simpa using hk)]
  simp

end

/-- An integer lane instruction completes as group `y`: its active lanes have their elements' results, VSTAT.SAT is set where
one was clamped, and nothing else of the group changes. -/
structure WritesElements (i : Instr) (f : LA) (op : Nat → Nat → Nat → Nat × Bool) (s : State) (b : Block)
    (y : Machine.Group) : Prop where
  completes : Completes i f.kq s b y
  frame : VecOnly s.me y f.vd.toNat (wideOf f.ty.toNat) (Active s b f.kq)
  fstat : y.csr.fstat = s.me.csr.fstat
  elems : ∀ i k, Active s b f.kq i → k < elemCount f.ty.toNat →
    elemOf y f.ty.toNat f.vd.toNat i k = (elemRes f op s.me i k).1 % 2 ^ elemBits f.ty.toNat
  clamped : ElemClamped f op s.me (s.me.laneMask b f.kq) → y.csr.vstat = s.me.csr.vstat ||| 1
  unclamped : ¬ElemClamped f op s.me (s.me.laneMask b f.kq) → y.csr = s.me.csr

section

variable {i : Instr} {f : LA} {op : Nat → Nat → Nat → Nat × Bool} {s : State} {b : Block}

theorem completes_intDone (h : Runs i f.kq Need.plain s b)
    (he : exec i s = perElement i f op s) :
    Completes i f.kq s b (intDone f op s.me (s.me.laneMask b f.kq)) := by
  rw [Completes, he, perElement, h, perLane_of_quiet fun _ => rfl]
  rfl

theorem elemClamped_iff : ElemClamped f op s.me (s.me.laneMask b f.kq)
    ↔ ∃ i k, Active s b f.kq i ∧ k < elemCount f.ty.toNat ∧ (elemRes f op s.me i k).2 = true := by
  simp only [ElemClamped, mem_lanesOf_laneMask, exists_and_left]

theorem orVstat_of_noLate {x : Machine.Group} (h : x.lateV = []) (bits : Nat) :
    x.orVstat bits = { x with csr := { x.csr with vstat := x.csr.vstat ||| BitVec.ofNat 32 bits } } := by
  rw [Group.orVstat, h]; rfl

theorem writesElements_intDone (h : Issues i f.kq Need.plain s b)
    (he : exec i s = perElement i f op s) :
    WritesElements i f op s b (intDone f op s.me (s.me.laneMask b f.kq)) := by
  obtain ⟨-, late⟩ := h.prompt
  have other (r i : Nat) (hi : i < 32) (ho : ¬(f.vd.toNat ≤ r ∧ r < f.vd.toNat + wideOf f.ty.toNat ∧ Active s b f.kq i)) :
      (intDone f op s.me (s.me.laneMask b f.kq)).rv r i = s.me.rv r i := by
    rw [rv_intDone r hi, if_neg fun ⟨ha, hl, hr⟩ => ho ⟨hl, hr, (mem_lanesOf_laneMask s b f.kq i).1 ha⟩]
  have elems (i k : Nat) (ha : Active s b f.kq i) (hk : k < elemCount f.ty.toNat) :
      elemOf (intDone f op s.me (s.me.laneMask b f.kq)) f.ty.toNat f.vd.toNat i k
        = (elemRes f op s.me i k).1 % 2 ^ elemBits f.ty.toNat :=
    elemOf_intDone ((mem_lanesOf_laneMask s b f.kq i).2 ha) hk
  by_cases sat : ElemClamped f op s.me (s.me.laneMask b f.kq)
  · have eq := intDone_of_clamped sat
    rw [orVstat_of_noLate late] at eq
    exact ⟨completes_intDone (runs_of_issues h) he, ⟨by rw [eq], other⟩, by rw [eq], elems, fun _ => by rw [eq]; rfl,
      fun hn => absurd sat hn⟩
  · have eq := intDone_of_not_clamped sat
    exact ⟨completes_intDone (runs_of_issues h) he, ⟨by rw [eq], other⟩, by rw [eq], elems, fun hs => absurd hs sat,
      fun _ => by rw [eq]⟩

end

end Sys2Proof.Proofs
end

section

namespace Sys2Proof.Proofs

open Sys2Proof.Machine Sys2Proof.Claims Sys2Proof.Laws

/-! ### R65, R126 and R127: the exact result, wrapped or clamped -/

/-- The elements of an integer instruction whose exact result is `op`. -/
abbrev fitted (f : LA) (op : Int → Int → Int → Int) (a b c : Nat) : Nat × Bool :=
  let ty := f.ty.toNat
  let w := elemBits ty
  fitInt ty w f.sat (op (elemInt ty w a) (elemInt ty w b) (elemInt ty w c))

theorem perElement_of_intArith {i : Instr} {f : LA} {s : State} {op rule : Int → Int → Int → Int}
    (he : exec i s = intArith i f op s) (h : ∀ a b c, op a b c = rule a b c) : exec i s = perElement i f (fitted f rule) s := by
  rw [he, show op = rule from funext fun a => funext fun b => funext (h a b)]; rfl

theorem exec_of_intRules : ∀ r ∈ intRules, ∀ (f : LA) (s : State), exec (r.1 f) s = perElement (r.1 f) f (fitted f r.2) s := by
  have abs (a : Int) : (a.natAbs : Int) = if a < 0 then -a else a := by split <;> omega
  simp only [intRules, List.forall_mem_cons, List.not_mem_nil, false_imp_iff, implies_true, and_true]
  refine ⟨?vadd, ?vsub, ?vmul, ?vmad, ?vmin, ?vmax, ?vabs, ?vneg, ?vrem⟩ <;> intro f s
  case vadd => exact perElement_of_intArith (exec_vadd f s) fun _ _ _ => rfl
  case vsub => exact perElement_of_intArith (exec_vsub f s) fun _ _ _ => rfl
  case vmul => exact perElement_of_intArith (exec_vmul f s) fun _ _ _ => rfl
  case vmad => exact perElement_of_intArith (exec_vmad f s) fun _ _ _ => rfl
  case vmin => exact perElement_of_intArith (exec_vmin f s) fun a b _ => Int.min_def a b
  case vmax => exact perElement_of_intArith (exec_vmax f s) fun a b _ => Int.max_def a b
  case vabs => exact perElement_of_intArith (exec_vabs f s) fun a _ _ => abs a
  case vneg => exact perElement_of_intArith (exec_vneg f s) fun _ _ _ => rfl
  case vrem => exact perElement_of_intArith (exec_vrem f s) fun _ _ _ => rfl

theorem not_flagged {sat : Bool} {out : Prop} (h : sat = false ∨ ¬out) : ¬(sat = true ∧ out) :=
  h.elim (fun h => by simp [h]) fun h => not_and_of_not_right _ h

/-- R65: the flag of `fitted` is the claim's condition. -/
theorem elemClamped_fitted_iff {f : LA} {op : Int → Int → Int → Int} {s : State} {b : Block} :
    ElemClamped f (fitted f op) s.me (s.me.laneMask b f.kq) ↔ f.sat = true ∧ SomeClamped s b f op := by
  rw [elemClamped_iff, SomeClamped]
  simp only [elemRes, fitted, fitInt_snd, lowOf, highOf]
  constructor
  · rintro ⟨i, k, ha, hk, sat, out⟩
    exact ⟨sat, i, k, ha, hk, out⟩
  · rintro ⟨sat, i, k, ha, hk, out⟩
    exact ⟨i, k, ha, hk, sat, out⟩

theorem laneIntegerResults : LaneIntegerResults := by
  intro r hr f s b h
  have w := writesElements_intDone h (exec_of_intRules r hr f s)
  refine ⟨_, w.completes, w.frame, w.fstat, fun i k ha hk => ⟨fun sat => ?_, fun sat => ?_⟩, fun sat out => ?_, fun out => ?_⟩
  · rw [w.elems i k ha hk, elemRes, Nat.mod_eq_of_lt (fitInt_fst_lt _ _ _ _)]
    exact fitInt_wrapped _ _ sat _
  · rw [w.elems i k ha hk, elemRes, Nat.mod_eq_of_lt (fitInt_fst_lt _ _ _ _)]
    exact fitInt_clamped _ _ sat _
  · exact w.clamped (elemClamped_fitted_iff.2 ⟨sat, out⟩)
  · rw [w.unclamped fun raised => not_flagged out (elemClamped_fitted_iff.1 raised)]

theorem orVstat_of_late {x : Machine.Group} {a : LateFlag} {rest : List LateFlag} (h : x.lateV = a :: rest) :
    x.orVstat 1 = { x with lateV := a :: rest ++ [{ id := 0, bits := 1, known := true }] } := by
  rw [Group.orVstat, h]; rfl

theorem flagsInOrder : FlagsInOrder := by
  intro r hr f s b id rest h l u
  have me : u.me = { s.me with lateV := l } := me_setMe s _
  have out_iff : ElemClamped f (fitted f r.2) u.me (u.me.laneMask b f.kq) ↔ f.sat = true ∧ SomeClamped s b f r.2 := by
    rw [← elemClamped_fitted_iff, me]; rfl
  refine ⟨_, completes_intDone (runs_behind_lateV l h) (exec_of_intRules r hr f u), ?_⟩
  by_cases clamped : ElemClamped f (fitted f r.2) u.me (u.me.laneMask b f.kq)
  · have done := intDone_of_clamped clamped
    rw [orVstat_of_late (congrArg Group.lateV me)] at done
    exact ⟨by rw [done], fun _ _ => by rw [done], fun quiet => absurd (out_iff.1 clamped) (not_flagged quiet)⟩
  · have done := intDone_of_not_clamped clamped
    exact ⟨by rw [done], fun sat out => absurd (out_iff.2 ⟨sat, out⟩) clamped, fun _ => by rw [done, me]⟩

/-! ### R127: division and the high half -/

/-- The elements of VDIV. -/
abbrev quotient (f : LA) (a b : Nat) : Nat × Bool :=
  let ty := f.ty.toNat
  let w := elemBits ty
  if b = 0 then (2 ^ w - 1, false) else fitInt ty w f.sat ((elemInt ty w a).tdiv (elemInt ty w b))

theorem laneDivideAndHigh : LaneDivideAndHigh := by
  refine ⟨fun f s b h => ?vdiv, fun f s b h => ?vmulh⟩
  case vdiv =>
    have w := writesElements_intDone (op := fun a b _ => quotient f a b) h (exec_vdiv f s)
    refine ⟨_, w.completes, w.frame, fun i k ha hk => ⟨fun zero => ?_, fun nonzero sat => ?_, fun nonzero sat => ?_⟩⟩
    · rw [w.elems i k ha hk, elemRes, quotient, if_pos zero]
      exact Nat.mod_eq_of_lt (Nat.sub_lt (Nat.two_pow_pos _) Nat.one_pos)
    · rw [w.elems i k ha hk, elemRes, quotient, if_neg nonzero, Nat.mod_eq_of_lt (fitInt_fst_lt _ _ _ _)]
      exact fitInt_wrapped _ _ sat _
    · have low := elemLow_le_tdiv f.ty.toNat (b := elemB f s.me i k) (elemBits_pos f.ty.toNat) (elemA_lt f s.me i k)
      rw [w.elems i k ha hk, elemRes, quotient, if_neg nonzero, Nat.mod_eq_of_lt (fitInt_fst_lt _ _ _ _), fitInt_clamped _ _ sat,
        if_neg (Int.not_lt.2 low)]
      rfl
  case vmulh =>
    have w := writesElements_intDone h (exec_vmulh f s)
    refine ⟨_, w.completes, w.frame, w.unclamped ?_, fun i k ha hk => ?_⟩
    · simp [ElemClamped, elemRes]
    · rw [w.elems i k ha hk]
      exact Nat.mod_eq_of_lt (intBits_lt _ _)

/-! ### R126 and R128: the bit instructions -/

theorem not_elemClamped_of_false {f : LA} {op : Nat → Nat → Nat → Nat} {x : Machine.Group} {act : Word} :
    ¬ElemClamped f (fun a b c => (op a b c, false)) x act := by
  rintro ⟨_, _, _, _, h⟩
  exact Bool.false_ne_true h

/-- The operation of a bit instruction agrees with `rule` on elements of width `w`. -/
def BitsAgree (op rule : Nat → Nat → Nat → Nat) : Prop :=
  ∀ w a b, 0 < w → a < 2 ^ w → b < 2 ^ w → op w a b % 2 ^ w = rule w a b

theorem bitsAgree_of_lt {op : Nat → Nat → Nat → Nat} (h : ∀ w a b, 0 < w → a < 2 ^ w → b < 2 ^ w → op w a b < 2 ^ w) :
    BitsAgree op op :=
  fun w a b hw ha hb => Nat.mod_eq_of_lt (h w a b hw ha hb)

theorem clzNat_lt (w a : Nat) : clzNat w a < 2 ^ w := by
  have : clzNat w a ≤ w := by unfold clzNat; split <;> omega
  exact Nat.lt_of_le_of_lt this Nat.lt_two_pow_self

theorem length_filter_range_lt (w : Nat) (p : Nat → Bool) : ((List.range w).filter p).length < 2 ^ w :=
  Nat.lt_of_le_of_lt (Nat.le_trans (List.length_filter_le _ _) (Nat.le_of_eq List.length_range)) Nat.lt_two_pow_self

theorem exec_of_bitRules : ∀ r ∈ bitRules, ∃ op, BitsAgree op r.2 ∧ ∀ (f : LA) (s : State), exec (r.1 f) s
    = bitArith (r.1 f) f op s := by
  simp only [bitRules, List.forall_mem_cons, List.not_mem_nil, false_imp_iff, implies_true, and_true]
  refine ⟨⟨_, ?vand, exec_vand⟩, ⟨_, ?vor, exec_vor⟩, ⟨_, ?vxor, exec_vxor⟩, ⟨_, ?vnot, exec_vnot⟩, ⟨_, ?vshl, exec_vshl⟩,
    ⟨_, ?vshr, exec_vshr⟩, ⟨_, ?vrot, exec_vrot⟩, ⟨_, ?vclz, exec_vclz⟩, ⟨_, ?vpopc, exec_vpopc⟩⟩
  case vand => exact bitsAgree_of_lt fun _ _ _ _ _ hb => Nat.and_lt_two_pow _ hb
  case vor => exact bitsAgree_of_lt fun _ _ _ _ ha hb => Nat.or_lt_two_pow ha hb
  case vxor => exact bitsAgree_of_lt fun _ _ _ _ ha hb => Nat.xor_lt_two_pow ha hb
  case vnot => exact bitsAgree_of_lt fun w _ _ _ _ _ => by have := Nat.two_pow_pos w; omega
  case vshl => exact fun _ _ _ _ _ _ => rfl
  case vshr => exact bitsAgree_of_lt fun _ _ _ _ ha _ => Nat.lt_of_le_of_lt (Nat.div_le_self _ _) ha
  case vrot => exact bitsAgree_of_lt fun _ _ _ hw ha _ => rotLeft_lt (Nat.le_of_lt (Nat.mod_lt _ hw)) ha
  case vclz => exact bitsAgree_of_lt fun w a _ _ _ _ => clzNat_lt w a
  case vpopc =>
    intro w a _ _ _ _
    show popNat w a % 2 ^ w = _
    rw [popNat_eq_length, Nat.mod_eq_of_lt (length_filter_range_lt w _)]

theorem fieldLen_le (f : LA) (w : Nat) : fieldLen f w ≤ w := Nat.le_trans (Nat.min_le_right _ _) (Nat.sub_le _ _)

/-- R128: the bits of a field with its sign above it. -/
theorem testBit_extractField (ty : Nat) {w a p n j : Nat} (hn : n ≤ w) (hj : j < w) :
    (if n = 0 then 0 else intBits w (elemInt ty n (a / 2 ^ p % 2 ^ n))).testBit j
      = if j < n then a.testBit (p + j) else decide (0 < n) && isSigned ty && a.testBit (p + n - 1) := by
  by_cases empty : n = 0
  · simp [empty]
  · have pos : 0 < n := Nat.pos_of_ne_zero empty
    rw [if_neg empty, testBit_intBits_elemInt ty pos hn (Nat.mod_lt _ (Nat.two_pow_pos n)) hj, Nat.testBit_mod_two_pow,
      Nat.testBit_mod_two_pow, Nat.testBit_div_two_pow, Nat.testBit_div_two_pow, decide_eq_true pos,
      decide_eq_true (Nat.sub_lt pos Nat.one_pos), Bool.true_and, Bool.true_and, show n - 1 + p = p + n - 1 by omega,
      Nat.add_comm j]
    split
    · rw [decide_eq_true ‹_›, Bool.true_and]
    · rfl

theorem laneBitResults : LaneBitResults := by
  refine ⟨fun r hr f s b h => ?bits, fun f s b h => ?vsar, fun f s b h => ?vbfe, fun f s b h => ?vbfi⟩
  case bits =>
    obtain ⟨op, agree, he⟩ := exec_of_bitRules r hr
    have w := writesElements_intDone h (he f s)
    refine ⟨_, w.completes, w.frame, w.unclamped not_elemClamped_of_false, fun i k ha hk => ?_⟩
    rw [w.elems i k ha hk, elemRes, Nat.mod_mod]
    exact agree _ _ _ (elemBits_pos _) (elemA_lt f s.me i k) (elemB_lt f s.me i k)
  case vsar =>
    have w := writesElements_intDone h (exec_vsar f s)
    refine ⟨_, w.completes, w.frame, w.unclamped not_elemClamped_of_false, fun i k j ha hk hj => ?_⟩
    rw [w.elems i k ha hk, elemRes, Nat.mod_mod]
    exact testBit_shiftRightArith (elemBits_pos _) (elemA_lt f s.me i k) hj
  case vbfe =>
    have w := writesElements_intDone h (exec_vbfe f s)
    refine ⟨_, w.completes, w.frame, w.unclamped not_elemClamped_of_false, fun i k j ha hk hj => ?_⟩
    rw [w.elems i k ha hk, elemRes, Nat.testBit_mod_two_pow, decide_eq_true hj, Bool.true_and]
    exact testBit_extractField f.ty.toNat (fieldLen_le f _) hj
  case vbfi =>
    have w := writesElements_intDone h (exec_vbfi f s)
    refine ⟨_, w.completes, w.frame, w.unclamped not_elemClamped_of_false, fun i k j ha hk hj => ?_⟩
    rw [w.elems i k ha hk, elemRes, Nat.testBit_mod_two_pow, decide_eq_true hj, Bool.true_and]
    exact testBit_insertField

/-- Settles O37: each of the four claims from what an integer lane instruction writes in every element. -/
theorem laneIntegers : Obligations.LaneIntegers := ⟨laneIntegerResults, flagsInOrder, laneDivideAndHigh, laneBitResults⟩

end Sys2Proof.Proofs
end

section

namespace Sys2Proof.Proofs

open Sys2Proof.Machine Sys2Proof.Claims Sys2Proof.Laws

/-! ### Masks of lanes -/

theorem getLsbD_foldl_setBit {lanes : List Nat} (hl : ∀ i ∈ lanes, i < 32) (w : Word) (j : Nat) :
    (lanes.foldl setBit w).getLsbD j = true ↔ w.getLsbD j = true ∨ j ∈ lanes := by
  induction lanes generalizing w with
  | nil => simp
  | cons i rest ih =>
    obtain ⟨hi, hrest⟩ := List.forall_mem_cons.1 hl
    rw [List.foldl_cons, ih hrest, getLsbD_setBit w j hi, Bool.or_eq_true, decide_eq_true_eq, List.mem_cons, or_assoc]

theorem getLsbD_maskOf {lanes : List Nat} (hl : ∀ i ∈ lanes, i < 32) (j : Nat) :
    (Machine.maskOf lanes).getLsbD j = true ↔ j ∈ lanes := by
  rw [Machine.maskOf, getLsbD_foldl_setBit hl]; simp

/-- A mask is the mask of the lanes whose bits it sets. -/
theorem maskOf_eq {lanes : List Nat} (hl : ∀ i ∈ lanes, i < 32) {m : Word}
    (h : ∀ i, i < 32 → (m.getLsbD i = true ↔ i ∈ lanes)) : Machine.maskOf lanes = m :=
  BitVec.eq_of_getLsbD_eq fun i hi => Bool.eq_iff_iff.2 ((getLsbD_maskOf hl i).trans (h i hi).symm)

/-- The bits `which` of a mask are replaced, and the others stay. -/
theorem getLsbD_putMask (x : Machine.Group) (k : Nat) (which bits : Word) {i : Nat} (hi : i < 32) :
    ((x.putMask k which bits).rk k).getLsbD i = if which.getLsbD i then bits.getLsbD i else (x.rk k).getLsbD i := by
  rw [Group.putMask, rk_wk_same, BitVec.getLsbD_or, BitVec.getLsbD_and, BitVec.getLsbD_and, BitVec.getLsbD_not, decide_eq_true hi]
  cases which.getLsbD i <;> simp

/-! ### Flags of many lanes -/

theorem testBit_foldl_or (l : List Nat) (a n : Nat) :
    (l.foldl (· ||| ·) a).testBit n = true ↔ a.testBit n = true ∨ ∃ v ∈ l, v.testBit n = true := by
  induction l generalizing a with
  | nil => simp
  | cons v l ih =>
    rw [List.foldl_cons, ih, Nat.testBit_or, Bool.or_eq_true]
    simp only [List.mem_cons, exists_eq_or_imp, or_assoc]

/-- A flag is raised where some lane, or some element, raises it. -/
theorem testBit_orAll (l : List Nat) (n : Nat) : (orAll l).testBit n = true ↔ ∃ v ∈ l, v.testBit n = true := by
  rw [orAll, testBit_foldl_or]; simp

theorem testBit_orAll_map {α : Type} (l : List α) (flags : α → Nat) (n : Nat) :
    (orAll (l.map flags)).testBit n = true ↔ ∃ a, a ∈ l ∧ (flags a).testBit n = true := by
  rw [testBit_orAll]
  constructor
  · rintro ⟨v, hv, raised⟩
    obtain ⟨a, ha, rfl⟩ := List.mem_map.1 hv
    exact ⟨a, ha, raised⟩
  · rintro ⟨a, ha, raised⟩
    exact ⟨_, List.mem_map_of_mem ha, raised⟩

theorem and_ne_zero_iff {a b : Nat} : a &&& b ≠ 0 ↔ ∃ n, a.testBit n = true ∧ b.testBit n = true := by
  constructor
  · intro nonzero
    obtain ⟨n, hn⟩ := Nat.exists_testBit_of_ne_zero nonzero
    rw [Nat.testBit_and, Bool.and_eq_true] at hn
    exact ⟨n, hn⟩
  · rintro ⟨n, ha, hb⟩ zero
    have bit : (a &&& b).testBit n = true := by rw [Nat.testBit_and, ha, hb]; rfl
    rw [zero, Nat.zero_testBit] at bit
    exact Bool.false_ne_true bit

theorem orFstat_of_noLate {x : Machine.Group} (h : x.lateF = []) (flags : Nat) :
    x.orFstat flags = { x with csr := { x.csr with fstat := x.csr.fstat ||| BitVec.ofNat 32 flags } } := by
  rw [Group.orFstat, h]; rfl

/-! ### Results of the active lanes, with what they raise (R124, R341) -/

/-- Lane `i` raises a flag that the captured FPE enables. -/
def faultOf (fpe : Word) (g : Nat → LaneRes) (i : Nat) : Bool := (g i).flags &&& (fpe.toNat % 32) != 0

/-- The group once the lanes that do not fault have their words, and FSTAT and VSTAT what every lane raised. -/
def lanesDone (x : Machine.Group) (vd : Nat) (fpe : Word) (g : Nat → LaneRes) (lanes : List Nat) : Machine.Group :=
  writeLanes ((x.orFstat (orAll (lanes.map fun i => (g i).flags))).orVstat (orAll (lanes.map fun i => (g i).vstat))) vd
    (fun i => (g i).words) (lanes.filter fun i => !faultOf fpe g i)

theorem faultOf_iff {fpe : Word} {g : Nat → LaneRes} {i : Nat} :
    faultOf fpe g i = true ↔ ∃ n, n < 5 ∧ fpe.getLsbD n = true ∧ (g i).flags.testBit n = true := by
  have enabled (n : Nat) : (fpe.toNat % 32).testBit n = (decide (n < 5) && fpe.getLsbD n) := Nat.testBit_mod_two_pow _ 5 n
  rw [faultOf, bne_iff_ne, and_ne_zero_iff]
  simp only [enabled, Bool.and_eq_true, decide_eq_true_eq]
  exact exists_congr fun n => ⟨fun ⟨hf, hn, he⟩ => ⟨hn, he, hf⟩, fun ⟨hn, he, hf⟩ => ⟨hf, hn, he⟩⟩

theorem faultOf_of_disabled {fpe : Word} (h : fpe.toNat % 32 = 0) (g : Nat → LaneRes) (i : Nat) : faultOf fpe g i = false := by
  rw [faultOf, h, Nat.and_zero]; rfl

theorem faultingLanes_map (fpe : Word) (g : Nat → LaneRes) (lanes : List Nat) :
    faultingLanes fpe (lanes.map fun i => (i, g i)) = lanes.filter (faultOf fpe g) := by
  rw [faultingLanes, List.filter_map, List.map_map]
  exact List.map_id _

/-- The instruction completes, with FPX where a lane faults. -/
theorem laneResults_eq (l : Lane) (vd : Nat) (g : Nat → LaneRes) (lanes : List Nat) (s : State) :
    laneResults l vd (lanes.map fun i => (i, g i)) s =
      if (lanes.filter (faultOf l.b.fpe g)).isEmpty then laneRetire l (s.setMe (lanesDone s.me vd l.b.fpe g lanes))
      else laneRetireTrap l causeFpx (Machine.maskOf (lanes.filter (faultOf l.b.fpe g)))
        (fpxCode l.b.fpe (lanes.map fun i => (i, g i))) (s.setMe (lanesDone s.me vd l.b.fpe g lanes)) := by
  have kept : (lanes.map fun i => (i, g i)).filter (fun r => !(lanes.filter (faultOf l.b.fpe g)).contains r.1)
      = (lanes.filter fun i => !faultOf l.b.fpe g i).map fun i => (i, g i) := by
    rw [List.filter_map]
    refine congrArg _ (List.filter_congr fun i hi => ?_)
    simp [hi]
  simp only [laneResults, faultingLanes_map, kept, List.map_map, List.foldl_map, lanesDone, writeLanes]
  rfl

theorem lanesDone_of_noLate {x : Machine.Group} (hf : x.lateF = []) (hv : x.lateV = []) (vd : Nat) (fpe : Word)
    (g : Nat → LaneRes) (lanes : List Nat) :
    lanesDone x vd fpe g lanes = { x with
      v := (lanesDone x vd fpe g lanes).v,
      csr := { x.csr with
        fstat := x.csr.fstat ||| BitVec.ofNat 32 (orAll (lanes.map fun i => (g i).flags)),
        vstat := x.csr.vstat ||| BitVec.ofNat 32 (orAll (lanes.map fun i => (g i).vstat)) } } := by
  conv =>
    lhs
    rw [lanesDone, writeLanes_frame, orFstat_of_noLate hf, orVstat_of_noLate (by exact hv)]
  rw [lanesDone, orFstat_of_noLate hf, orVstat_of_noLate (by exact hv)]

theorem rv_orFstat (x : Machine.Group) (bits r i : Nat) : (x.orFstat bits).rv r i = x.rv r i := by
  unfold Group.orFstat
  split
  · rfl
  · split <;> rfl

/-- A register after the instruction. -/
theorem rv_lanesDone (x : Machine.Group) {vd : Nat} {fpe : Word} {g : Nat → LaneRes} {lanes : List Nat}
    (hl : ∀ i ∈ lanes, i < 32) {r i : Nat} (hi : i < 32) :
    (lanesDone x vd fpe g lanes).rv r i
      = if (i ∈ lanes ∧ faultOf fpe g i = false) ∧ vd ≤ r ∧ r < vd + (g i).words.length then (g i).words.getD (r - vd) 0
        else x.rv r i := by
  rw [lanesDone, rv_writeLanes _ _ (fun j hj => hl j ((List.mem_filter.1 hj).1)) hi, rv_orVstat, rv_orFstat]
  simp only [List.mem_filter, Bool.not_eq_true']

end Sys2Proof.Proofs
end

section

namespace Sys2Proof.Proofs

open Sys2Proof.Machine Sys2Proof.Claims Sys2Proof.Laws

/-! ### Fields of layout L.A (R55) -/

theorem laForm_ok {f : LA} {tys rnds : List Nat} {sat iOk useImm own : Bool} {d a b c : Opnd}
    (h : (laForm f tys rnds sat iOk useImm d a b c own).ok = true) : f.ty.toNat ∈ tys ∧ d.ok f.vd = true ∧ own = true := by
  simp only [laForm, Bool.and_eq_true, List.contains_iff_mem] at h
  obtain ⟨⟨⟨⟨⟨⟨⟨⟨⟨ty, -⟩, -⟩, -⟩, -⟩, dest⟩, -⟩, -⟩, -⟩, rules⟩ := h
  exact ⟨ty, dest, rules⟩

/-! ### Elements of what a lane's registers hold (R64, R123) -/

theorem testBit_elemAt (w k v j : Nat) : (elemAt w k v).testBit j = (decide (j < w) && v.testBit (j + w * k)) := by
  rw [elemAt, Nat.testBit_mod_two_pow, Nat.testBit_div_two_pow]

/-- An element lies within the bits that hold it. -/
theorem elemAt_mod {w k n : Nat} (h : w * (k + 1) ≤ n) (v : Nat) : elemAt w k (v % 2 ^ n) = elemAt w k v := by
  refine Nat.eq_of_testBit_eq fun j => ?_
  rw [testBit_elemAt, testBit_elemAt, Nat.testBit_mod_two_pow]
  by_cases hj : j < w
  · rw [decide_eq_true (show j + w * k < n by rw [Nat.mul_succ] at h; omega), Bool.true_and]
  · rw [decide_eq_false hj, Bool.false_and, Bool.false_and]

theorem ofNat_eq_of_mod_eq {a b : Nat} (h : a % 2 ^ 32 = b % 2 ^ 32) : (BitVec.ofNat 32 a : Word) = BitVec.ofNat 32 b :=
  BitVec.eq_of_toNat_eq (by rwa [BitVec.toNat_ofNat, BitVec.toNat_ofNat])

theorem resultWords_mod (ty v : Nat) : resultWords ty (v % 2 ^ (32 * wideOf ty)) = resultWords ty v := by
  by_cases wide : elemBits ty = 64
  · have low : (BitVec.ofNat 32 (v % 2 ^ 64) : Word) = BitVec.ofNat 32 v := ofNat_eq_of_mod_eq (by omega)
    have high : (BitVec.ofNat 32 (v % 2 ^ 64 / 2 ^ 32) : Word) = BitVec.ofNat 32 (v / 2 ^ 32) := ofNat_eq_of_mod_eq (by omega)
    simp only [resultWords, wideOf, wide, if_true, Nat.reduceMul, low, high]
  · have word : (BitVec.ofNat 32 (v % 2 ^ 32) : Word) = BitVec.ofNat 32 v := ofNat_eq_of_mod_eq (Nat.mod_mod _ _)
    simp only [resultWords, wideOf, wide, if_false, Nat.mul_one, word]

/-- The elements of a result whose words a register, or a pair, holds. -/
theorem elemOf_of_resultWords {y : Machine.Group} {ty vd i v k : Nat}
    (h : ∀ k, k < wideOf ty → y.rv (vd + k) i = (resultWords ty v).getD k 0) (hk : k < elemCount ty) :
    elemOf y ty vd i k = elemAt (elemBits ty) k v := by
  have inside : elemBits ty * (k + 1) ≤ 32 * wideOf ty := by
    rw [← elemBits_mul_elemCount]; exact Nat.mul_le_mul_left _ hk
  rw [elemOf, operand_of_resultWords (Nat.mod_lt v (Nat.two_pow_pos _)) (fun k hk => (resultWords_mod ty v).symm ▸ h k hk),
    elemAt_mod inside]

/-! ### Instructions that raise nothing -/

/-- Instruction `i` completes as `y`: each active lane has its words in the `n` registers from `vd` up, and nothing else of the
group changes. -/
structure WritesWords (i : Instr) (kq : KReg) (s : State) (b : Block) (vd n : Nat) (g : Nat → List Word)
    (y : Machine.Group) : Prop where
  completes : Completes i kq s b y
  frame : VecOnly s.me y vd n (Active s b kq)
  csr : y.csr = s.me.csr
  words : ∀ j, Active s b kq j → ∀ k, k < n → y.rv (vd + k) j = (g j).getD k 0

theorem perLane_of_plain (l : Lane) (vd : Nat) (g : Machine.Group → Nat → List Word) (s : State) :
    perLane l vd (fun x j => LaneRes.plain (g x j)) s = laneRetire l (s.setMe (writeLanes s.me vd (g s.me) (lanesOf l.act))) := by
  have quiet : orAll ((lanesOf l.act).map fun j => (LaneRes.plain (g s.me j)).vstat) = 0 :=
    orAll_of_zero fun v hv => by
      obtain ⟨j, -, rfl⟩ := List.mem_map.1 hv
      rfl
  rw [perLane_of_quiet fun _ => rfl, quiet, orVstat_zero]
  rfl

theorem exists_writesWords {i : Instr} {kq : KReg} {s : State} {b : Block} {vd n : Nat} (g : Machine.Group → Nat → List Word)
    (hn : ∀ j, (g s.me j).length = n)
    (he : exec i s = perLane (s.me.laneAt b (laneWord i) kq) vd (fun x j => LaneRes.plain (g x j)) s) :
    ∃ y, WritesWords i kq s b vd n (g s.me) y := by
  have frame := writeLanes_frame s.me vd (g s.me) (lanesOf (s.me.laneMask b kq))
  refine ⟨writeLanes s.me vd (g s.me) (lanesOf (s.me.laneMask b kq)), he.trans (perLane_of_plain _ _ _ _), ⟨?_, ?_⟩, ?_, ?_⟩
  · rw [frame]
  · intro r j hj other
    rw [rv_writeLanes _ _ (fun _ => lt_of_mem_lanesOf) hj, hn,
      if_neg fun ⟨ha, hl, hr⟩ => other ⟨hl, hr, (mem_lanesOf_laneMask s b kq j).1 ha⟩]
  · rw [frame]
  · intro j ha k hk
    rw [rv_writeLanes _ _ (fun _ => lt_of_mem_lanesOf) ha.1, hn,
      if_pos ⟨(mem_lanesOf_laneMask s b kq j).2 ha, by omega, by omega⟩, Nat.add_sub_cancel_left]

/-! ### Masks that the active lanes write (R129) -/

/-- The active lanes' bits of a mask become what `p` tells of each, and the others stay. -/
theorem getLsbD_putMask_active (x : Machine.Group) (k : Nat) (p : Nat → Bool) (s : State) (b : Block) (kq : KReg) {i : Nat}
    (hi : i < 32) :
    ((x.putMask k (s.me.laneMask b kq) (Machine.maskOf ((lanesOf (s.me.laneMask b kq)).filter p))).rk k).getLsbD i = true
      ↔ (¬Active s b kq i ∧ (x.rk k).getLsbD i = true) ∨ (Active s b kq i ∧ p i = true) := by
  have active : (s.me.laneMask b kq).getLsbD i = true ↔ Active s b kq i := by
    rw [← mem_lanesOf_laneMask, mem_lanesOf, and_iff_right hi]
  rw [getLsbD_putMask _ _ _ _ hi]
  by_cases ha : Active s b kq i
  · rw [if_pos (active.2 ha), getLsbD_maskOf fun j hj => lt_of_mem_lanesOf (List.mem_filter.1 hj).1, List.mem_filter,
      mem_lanesOf_laneMask]
    simp [ha]
  · rw [if_neg fun on => ha (active.1 on)]
    simp [ha]

theorem condInt_iff {c : Nat} (hc : c < 6) (a b : Int) : condInt c a b = true ↔ condInts c a b := by
  match c, hc with
  | 0, _ | 1, _ | 2, _ | 3, _ | 4, _ | 5, _ => simp [condInt, condInts]

theorem vcmp_replaces_mask (f : LA) (s : State) (b : Block) (h : Issues (.vcmp f) f.kq Need.plain s b) :
    ∃ y, Completes (.vcmp f) f.kq s b y ∧ MaskOnly s.me y (f.vd.toNat % 16) (Active s b f.kq)
      ∧ ∀ i, Active s b f.kq i → ((y.rk (f.vd.toNat % 16)).getLsbD i = true ↔ ∀ k, k < elemCount f.ty.toNat →
          condInts f.sub.toNat (elemInt f.ty.toNat (elemBits f.ty.toNat) (elemA f s.me i k))
            (elemInt f.ty.toNat (elemBits f.ty.toNat) (elemB f s.me i k))) := by
  obtain ⟨-, -, rules⟩ := laForm_ok (show (laForm f _ _ _ _ _ _ _ _ _ _).ok = true from h.fields)
  have cond : f.sub.toNat < 6 := by simpa using (Bool.and_eq_true_iff.1 rules).1
  refine ⟨_, (exec_vcmp f s).trans (runs_of_issues h _), ⟨rfl, fun j hj => rk_wk_other _ _ hj, fun i hi out => ?_⟩,
    fun i ha => (getLsbD_putMask_active _ _ _ s b f.kq ha.1).trans ?_⟩
  · exact Bool.eq_iff_iff.2 ((getLsbD_putMask_active _ _ _ s b f.kq hi).trans (by simp [out]))
  · simp only [ha, not_true_eq_false, false_and, true_and, false_or, List.all_eq_true, List.mem_range, condInt_iff cond]
    rfl

end Sys2Proof.Proofs
end

section

namespace Sys2Proof.Proofs

open Sys2Proof.Machine Sys2Proof.Claims Sys2Proof.Laws

/-! ### Registers named by values (R131) -/

theorem numbers_laneAt (x : Machine.Group) (s : State) (b : Block) (w : Nat) (kq : KReg) (r : Nat) :
    (s.me.laneAt b w kq).numbers x r = (lanesOf (s.me.laneMask b kq)).map fun j => (j, (x.rv r j).toNat) := rfl

/-- The lanes whose number is no register below the budget. -/
theorem badNumbers_eq {s : State} {b : Block} {kq : KReg} {r : Nat} {m : Word} (w : Nat)
    (hm : ∀ j, j < 32 → (m.getLsbD j = true ↔ Active s b kq j ∧ 8 * s.me.csr.budget.toNat ≤ (s.me.rv r j).toNat)) :
    badNumbers s.me ((s.me.laneAt b w kq).numbers s.me r) = m := by
  rw [badNumbers, numbers_laneAt, List.filter_map, List.map_map]
  refine maskOf_eq (fun j hj => ?_) fun j hj => (hm j hj).trans ?_
  · obtain ⟨i, hi, rfl⟩ := List.mem_map.1 hj
    exact lt_of_mem_lanesOf (List.mem_filter.1 hi).1
  · simp [mem_lanesOf_laneMask]

theorem badNumbers_eq_zero {s : State} {b : Block} {kq : KReg} {r : Nat} (w : Nat)
    (h : ∀ j, Active s b kq j → (s.me.rv r j).toNat < 8 * s.me.csr.budget.toNat) :
    badNumbers s.me ((s.me.laneAt b w kq).numbers s.me r) = 0 :=
  badNumbers_eq w fun j _ => iff_of_false (by simp) fun ⟨ha, hb⟩ => Nat.not_lt.2 hb (h j ha)

theorem pendingV_of_none {s : State} (hl : s.me.loads = []) (he : (s.coreOfGroup s.cur.g).engine = []) (rs : List (Nat × Nat)) :
    s.pendingV s.cur.g rs = false := by
  have loads : (s.group s.cur.g).loads = [] := hl
  rw [State.pendingV, loads, he]; rfl

theorem lockedV_of_none {x : Machine.Group} (h : x.locks = []) (rs : List (Nat × Nat)) : x.lockedV rs = false := by
  rw [Group.lockedV, h]; rfl

/-- Each lane of a list gets `val` in the register that `reg` names. -/
def scatter (x : Machine.Group) (reg : Nat → Nat) (val : Nat → Word) (lanes : List Nat) : Machine.Group :=
  lanes.foldl (fun y i => y.wv (reg i) i (val i)) x

theorem scatter_frame (x : Machine.Group) (reg : Nat → Nat) (val : Nat → Word) (lanes : List Nat) :
    scatter x reg val lanes = { x with v := (scatter x reg val lanes).v } :=
  foldl_vectors_only (fun _ _ => rfl) lanes x

theorem rv_scatter (x : Machine.Group) (reg : Nat → Nat) (val : Nat → Word) {lanes : List Nat} (hl : ∀ i ∈ lanes, i < 32)
    {r i : Nat} (hi : i < 32) :
    (scatter x reg val lanes).rv r i = if i ∈ lanes ∧ r = reg i then val i else x.rv r i := by
  induction lanes generalizing x with
  | nil => simp [scatter]
  | cons a rest ih =>
    obtain ⟨ha, hrest⟩ := List.forall_mem_cons.1 hl
    show (scatter (x.wv (reg a) a (val a)) reg val rest).rv r i = _
    rw [ih _ hrest, rv_wv x (val a) ha hi]
    by_cases e : i = a
    · subst e
      by_cases hr : r = reg i <;> simp [hr]
    · simp [e]

theorem exec_vrdx_of_ready {f : LA} {s : State} {b : Block} (h : Issues (.vrdx f) f.kq Need.plain s b)
    (hb : ∀ i, Active s b f.kq i → (s.me.rv f.va.toNat i).toNat < 8 * s.me.csr.budget.toNat) (hl : s.me.loads = [])
    (he : (s.coreOfGroup s.cur.g).engine = []) :
    exec (.vrdx f) s = perLane (s.me.laneAt b (laneWord (.vrdx f)) f.kq) f.vd.toNat
      (fun x i => LaneRes.plain [x.rv (x.rv f.va.toNat i).toNat i]) s := by
  rw [exec_vrdx, execVrdx, runs_of_issues h]
  simp only [badNumbers_eq_zero _ hb, pendingV_of_none hl he, ne_eq, not_true_eq_false, if_false, Bool.false_eq_true]
  rw [numbers_laneAt, List.map_map]
  rfl

theorem exec_vwrx_of_ready {f : LA} {s : State} {b : Block} (h : Issues (.vwrx f) f.kq Need.plain s b)
    (hb : ∀ i, Active s b f.kq i → (s.me.rv f.va.toNat i).toNat < 8 * s.me.csr.budget.toNat) (hl : s.me.loads = [])
    (he : (s.coreOfGroup s.cur.g).engine = []) (hk : s.me.locks = []) :
    exec (.vwrx f) s = laneRetire (s.me.laneAt b (laneWord (.vwrx f)) f.kq)
      (s.setMe (scatter s.me (fun i => (s.me.rv f.va.toNat i).toNat) (s.me.rv f.vb.toNat) (lanesOf (s.me.laneMask b f.kq)))) := by
  rw [exec_vwrx, execVwrx, runs_of_issues h]
  simp only [badNumbers_eq_zero _ hb, pendingV_of_none hl he, lockedV_of_none hk, ne_eq, not_true_eq_false, if_false,
    Bool.or_false, Bool.false_eq_true]
  rw [numbers_laneAt, List.foldl_map]
  rfl

theorem indexedRegistersTrap : IndexedRegistersTrap := by
  intro f s b m ⟨i, ha, out⟩ hm
  have bad (w : Nat) := badNumbers_eq (r := f.va.toNat) w hm
  have some_lane : m ≠ 0 := fun zero => by
    have on := (hm i ha.1).2 ⟨ha, out⟩
    simp [zero] at on
  refine ⟨fun h => ?_, fun h => ?_⟩
  · rw [exec_vrdx, execVrdx, runs_of_issues h]
    simp only [bad, ne_eq, some_lane, not_false_eq_true, if_true]
    rfl
  · rw [exec_vwrx, execVwrx, runs_of_issues h]
    simp only [bad, ne_eq, some_lane, not_false_eq_true, if_true]
    rfl

/-! ### VTOS (R132) -/

theorem laneMask_eq_zero_iff {s : State} {b : Block} {kq : KReg} : s.me.laneMask b kq = 0 ↔ ¬∃ i, Active s b kq i := by
  simp only [← mem_lanesOf_laneMask, mem_lanesOf, not_exists]
  refine ⟨fun h i => by simp [h], fun h => BitVec.eq_of_getLsbD_eq fun i hi => ?_⟩
  simpa [hi] using h i

/-- An instruction that leaves its group as it is completes. -/
theorem laneDone_setMe_me (s : State) (l : Lane) : (s.setMe s.me).laneDone l = s.laneDone l := by
  simp only [State.laneDone, me_setMe, setMe_setMe, setMe_cur]
  rfl

theorem ws_frame (x : Machine.Group) (r : Nat) (v : Word) : x.ws r v = { x with s := (x.ws r v).s } := by
  unfold Group.ws; split <;> rfl

theorem vtos_writes_scalar (f : LA) (s : State) (b : Block) (h : Issues (.vtos f) f.kq Need.plain s b) :
    ∃ y, Completes (.vtos f) f.kq s b y ∧ y = { s.me with s := y.s } ∧ (∀ r, r ≠ f.vd.toNat → y.rs r = s.me.rs r)
      ∧ ((∃ i, Active s b f.kq i) → y.rs f.vd.toNat
          = if s.me.exited.getLsbD (f.imm.toNat % 32) then 0 else s.me.rv f.va.toNat (f.imm.toNat % 32))
      ∧ ((¬∃ i, Active s b f.kq i) → y = s.me) := by
  obtain ⟨-, live, -⟩ := laForm_ok (show (laForm f _ _ _ _ _ _ _ _ _ _).ok = true from h.fields)
  have named : f.vd.toNat ≠ 0 := by
    have := (of_decide_eq_true live).1
    omega
  have run := (exec_vtos f s).trans (runs_of_issues h _)
  by_cases empty : s.me.laneMask b f.kq = 0
  · have idle := laneMask_eq_zero_iff.1 empty
    refine ⟨s.me, run.trans ((if_pos empty).trans ?_), rfl, fun _ _ => rfl, fun ha => absurd ha idle, fun _ => rfl⟩
    rw [laneDone_setMe_me]
    rfl
  · have ha := Classical.not_not.1 fun idle => empty (laneMask_eq_zero_iff.2 idle)
    exact ⟨_, run.trans (if_neg empty), ws_frame _ _ _, fun r hr => rs_ws_other _ _ hr, fun _ => rs_ws_same _ _ named,
      fun idle => absurd ha idle⟩

/-! ### The moves (R130, R131) -/

theorem laneMoves : LaneMoves := by
  refine ⟨vcmp_replaces_mask, fun f s b h => ?vsel, fun f s b h => ?vmov, fun f s b h => ?vmovs, fun f s b h => ?vlane,
    fun f s b h hb hl he => ?vrdx, fun f s b h hb hl he hk => ?vwrx, vtos_writes_scalar⟩
  case vsel =>
    obtain ⟨y, w⟩ := exists_writesWords (fun x i => resultWords f.ty.toNat
      (if (x.rk (f.vc.toNat % 16)).getLsbD i then srcA f x i else srcB f x i)) (fun _ => length_resultWords _ _)
      ((exec_vsel f s).trans (runs_of_issues h _))
    refine ⟨y, w.completes, w.frame, w.csr, fun i k ha hk => (elemOf_of_resultWords (w.words i ha) hk).trans ?_⟩
    split <;> rfl
  case vmov =>
    obtain ⟨y, w⟩ := exists_writesWords (fun x i => resultWords f.ty.toNat (if f.imm? then srcB f x i else srcA f x i))
      (fun _ => length_resultWords _ _) ((exec_vmov f s).trans (runs_of_issues h _))
    refine ⟨y, w.completes, w.frame, w.csr, fun i k ha hk => (elemOf_of_resultWords (w.words i ha) hk).trans ?_⟩
    split <;> rfl
  case vmovs =>
    obtain ⟨y, w⟩ := exists_writesWords (fun _ _ => [b.arg f.va.toNat]) (fun _ => rfl)
      ((exec_vmovs f s).trans (runs_of_issues h _))
    refine ⟨y, w.completes, w.frame, w.csr, fun i ha => (w.words i ha 0 Nat.one_pos).trans ?_⟩
    by_cases captured : 48 ≤ f.va.toNat
    · exact (if_neg (Nat.not_lt.2 captured)).trans (if_pos captured).symm
    · exact (if_pos (Nat.lt_of_not_le captured)).trans (if_neg captured).symm
  case vlane =>
    obtain ⟨y, w⟩ := exists_writesWords (fun _ i => [BitVec.ofNat 32 i]) (fun _ => rfl)
      ((exec_vlane f s).trans (runs_of_issues h _))
    exact ⟨y, w.completes, w.frame, w.csr, fun i ha => w.words i ha 0 Nat.one_pos⟩
  case vrdx =>
    obtain ⟨y, w⟩ := exists_writesWords (fun x i => [x.rv (x.rv f.va.toNat i).toNat i]) (fun _ => rfl)
      (exec_vrdx_of_ready h hb hl he)
    exact ⟨y, w.completes, w.frame, w.csr, fun i ha => w.words i ha 0 Nat.one_pos⟩
  case vwrx =>
    refine ⟨_, exec_vwrx_of_ready h hb hl he hk, scatter_frame _ _ _ _, fun i ha => ?_, fun r i hi out => ?_⟩
    · rw [rv_scatter _ _ _ (fun _ => lt_of_mem_lanesOf) ha.1, if_pos ⟨(mem_lanesOf_laneMask s b f.kq i).2 ha, rfl⟩]
    · rw [rv_scatter _ _ _ (fun _ => lt_of_mem_lanesOf) hi,
        if_neg fun ⟨ha, hr⟩ => out ⟨(mem_lanesOf_laneMask s b f.kq i).1 ha, hr⟩]

/-- Settles O38: the moves, and the trap on a register that a lane names beyond the budget. -/
theorem laneRegisterMoves : Obligations.LaneRegisterMoves := ⟨laneMoves, indexedRegistersTrap⟩

end Sys2Proof.Proofs
end

section

namespace Sys2Proof.Proofs

open Sys2Proof.Machine Sys2Proof.Claims Sys2Proof.Laws

/-! ### What the active lanes' results leave of the group (R26, R124, R341) -/

theorem vecOnly_mono {x y : Machine.Group} {vd n : Nat} {act act' : Nat → Prop} (h : VecOnly x y vd n act)
    (le : ∀ i, act i → act' i) : VecOnly x y vd n act' :=
  ⟨h.1, fun r i hi out => h.2 r i hi fun ⟨hl, hr, ha⟩ => out ⟨hl, hr, le i ha⟩⟩

/-- The active lanes that do not fault have the words of their results in the `n` registers from `vd` up, FSTAT and VSTAT have
what every active lane raised, and nothing else of the group is changed in `y`. -/
structure WritesResults (s : State) (b : Block) (kq : KReg) (vd n : Nat) (g : Nat → LaneRes) (y : Machine.Group) : Prop where
  frame : VecOnly s.me y vd n (fun i => Active s b kq i ∧ faultOf b.fpe g i = false)
  words : ∀ i, Active s b kq i → faultOf b.fpe g i = false → ∀ k, k < n → y.rv (vd + k) i = (g i).words.getD k 0
  fstat : ∀ j, j < 32 → (y.csr.fstat.getLsbD j = true ↔
    s.me.csr.fstat.getLsbD j = true ∨ ∃ i, Active s b kq i ∧ (g i).flags.testBit j = true)
  vstat : y.csr.vstat
    = s.me.csr.vstat ||| BitVec.ofNat 32 (orAll ((lanesOf (s.me.laneMask b kq)).map fun i => (g i).vstat))

theorem getLsbD_or_orAll (a : Word) (lanes : List Nat) (flags : Nat → Nat) {j : Nat} (hj : j < 32) :
    (a ||| BitVec.ofNat 32 (orAll (lanes.map flags))).getLsbD j = true
      ↔ a.getLsbD j = true ∨ ∃ i, i ∈ lanes ∧ (flags i).testBit j = true := by
  rw [BitVec.getLsbD_or, BitVec.getLsbD_ofNat, decide_eq_true hj, Bool.true_and, Bool.or_eq_true, testBit_orAll_map]

section

variable {s : State} {b : Block} {kq : KReg} {vd n : Nat} {g : Nat → LaneRes}

theorem writesResults_lanesDone (late : s.me.lateF = [] ∧ s.me.lateV = []) (hn : ∀ i, (g i).words.length = n) :
    WritesResults s b kq vd n g (lanesDone s.me vd b.fpe g (lanesOf (s.me.laneMask b kq))) := by
  obtain ⟨hf, hv⟩ := late
  have whole := lanesDone_of_noLate hf hv vd b.fpe g (lanesOf (s.me.laneMask b kq))
  have read (r i : Nat) (hi : i < 32) := rv_lanesDone s.me (vd := vd) (fpe := b.fpe) (g := g)
    (lanes := lanesOf (s.me.laneMask b kq)) (fun _ => lt_of_mem_lanesOf) (r := r) hi
  refine ⟨⟨by rw [whole], fun r i hi out => ?_⟩, fun i ha quiet k hk => ?_, fun j hj => ?_, by rw [whole]⟩
  · rw [read r i hi, hn, if_neg]
    exact fun ⟨⟨hm, quiet⟩, hl, hr⟩ => out ⟨hl, hr, (mem_lanesOf_laneMask s b kq i).1 hm, quiet⟩
  · rw [read _ i ha.1, hn, if_pos ⟨⟨(mem_lanesOf_laneMask s b kq i).2 ha, quiet⟩, by omega, by omega⟩,
      Nat.add_sub_cancel_left]
  · rw [whole]
    simp only [getLsbD_or_orAll _ _ _ hj, mem_lanesOf_laneMask]

variable {i : Instr} {f : Machine.Group → Nat → LaneRes}

theorem filter_faultOf_of_disabled (hfpe : b.fpe.toNat % 32 = 0) (lanes : List Nat) : lanes.filter (faultOf b.fpe g) = [] :=
  List.filter_eq_nil_iff.2 fun j _ => Bool.eq_false_iff.1 (faultOf_of_disabled hfpe g j)

/-- With no trap enabled the instruction completes. -/
theorem completes_lanesDone (hfpe : b.fpe.toNat % 32 = 0)
    (he : exec i s = perLane (s.me.laneAt b (laneWord i) kq) vd f s) :
    Completes i kq s b (lanesDone s.me vd b.fpe (f s.me) (lanesOf (s.me.laneMask b kq))) :=
  he.trans ((laneResults_eq _ vd (f s.me) _ s).trans (if_pos (List.isEmpty_iff.2 (filter_faultOf_of_disabled hfpe _))))

/-- With lanes that fault the instruction completes with FPX, those lanes being the mask. -/
theorem traps_lanesDone {m : Word} (he : exec i s = perLane (s.me.laneAt b (laneWord i) kq) vd f s) (some_lane : m ≠ 0)
    (hm : ∀ j, j < 32 → (m.getLsbD j = true ↔ Active s b kq j ∧ faultOf b.fpe (f s.me) j = true)) :
    ∃ code, exec i s = .next (((s.setMe (lanesDone s.me vd b.fpe (f s.me) (lanesOf (s.me.laneMask b kq)))).laneDone
      (s.me.laneAt b (laneWord i) kq)).laneTrap (s.me.laneAt b (laneWord i) kq) causeFpx m code) := by
  have mask : Machine.maskOf ((lanesOf (s.me.laneMask b kq)).filter (faultOf b.fpe (f s.me))) = m :=
    maskOf_eq (fun j hj => lt_of_mem_lanesOf (List.mem_filter.1 hj).1) fun j hj => by
      rw [hm j hj, List.mem_filter, mem_lanesOf_laneMask]
  have nonempty : ((lanesOf (s.me.laneMask b kq)).filter (faultOf b.fpe (f s.me))).isEmpty ≠ true := fun empty => by
    rw [List.isEmpty_iff.1 empty] at mask
    exact some_lane mask.symm
  have run := he.trans ((laneResults_eq _ vd (f s.me) _ s).trans (if_neg nonempty))
  rw [← mask]
  exact ⟨_, run⟩

end

/-! ### Floating results, element by element (R133) -/

/-- The elements that are put together in a result. -/
theorem elemOf_of_elements {y : Machine.Group} {ty vd i k : Nat} {es : List Nat}
    (h : ∀ k, k < wideOf ty → y.rv (vd + k) i = (resultWords ty (joinElems (elemBits ty) es)).getD k 0)
    (len : es.length = elemCount ty) (hk : k < elemCount ty) :
    elemOf y ty vd i k = es[k]'(len ▸ hk) % 2 ^ elemBits ty :=
  (elemOf_of_resultWords h hk).trans (elemAt_joinElems _)

theorem exec_of_floatRules : ∀ r ∈ floatRules, ∀ (f : LA) (s : State), exec (r.1 f) s = floatOp (r.1 f) f (r.2 f) s := by
  simp only [floatRules, List.forall_mem_cons, List.not_mem_nil, false_imp_iff, implies_true, and_true]
  exact ⟨exec_vfadd, exec_vfsub, exec_vfmul, exec_vfma, exec_vfdiv, exec_vfsqrt, exec_vfmin, exec_vfmax, exec_vfabs, exec_vfneg,
    exec_vfrnd, exec_vrcp, exec_vrsq, exec_vexp2, exec_vlog2, exec_vsinpi, exec_vcospi, exec_vtanh⟩

/-- Lane `i`'s result of a floating instruction. -/
abbrev floatRes (f : LA) (op : LA → FFmt → Nat → Nat → Nat → Nat → Nat → FRes) (b : Block) (x : Machine.Group) (i : Nat) :
    LaneRes :=
  floatLane f (op f (fmtOf f.ty.toNat) (modeRule f b)) x i

section

variable {f : LA} {op : LA → FFmt → Nat → Nat → Nat → Nat → Nat → FRes} {s : State} {b : Block} {y : Machine.Group} {i : Nat}

theorem writesResults_floatRes (late : s.me.lateF = [] ∧ s.me.lateV = []) :
    WritesResults s b f.kq f.vd.toNat (wideOf f.ty.toNat) (floatRes f op b s.me)
      (lanesDone s.me f.vd.toNat b.fpe (floatRes f op b s.me) (lanesOf (s.me.laneMask b f.kq))) :=
  writesResults_lanesDone late fun _ => length_resultWords _ _

theorem testBit_floatRes (n : Nat) : (floatRes f op b s.me i).flags.testBit n = true ↔ LaneFlag f op s b i n := by
  have flags : (floatRes f op b s.me i).flags
      = orAll ((List.range (elemCount f.ty.toNat)).map fun k => (floatElem f op s b i k).flags) := congrArg orAll List.map_map
  rw [flags, testBit_orAll_map]
  exact exists_congr fun k => and_congr List.mem_range Iff.rfl

theorem elemOf_floatRes {k : Nat} (w : ∀ k, k < wideOf f.ty.toNat →
      y.rv (f.vd.toNat + k) i = (floatRes f op b s.me i).words.getD k 0) (hk : k < elemCount f.ty.toNat) :
    elemOf y f.ty.toNat f.vd.toNat i k = (floatElem f op s b i k).bits % 2 ^ elemBits f.ty.toNat := by
  rw [elemOf_of_elements w (by simp) hk]
  simp only [List.getElem_map, List.getElem_range]
  rfl

theorem run_of_floatRules {r} (hr : r ∈ floatRules) (h : Issues (r.1 f) f.kq (rounds f) s b) :
    exec (r.1 f) s = perLane (s.me.laneAt b (laneWord (r.1 f)) f.kq) f.vd.toNat (floatRes f r.2 b) s :=
  (exec_of_floatRules r hr f s).trans (runs_of_issues h _)

end

theorem laneFloatResults : LaneFloatResults := by
  intro r hr f s b h hfpe
  have w := writesResults_floatRes (f := f) (op := r.2) (b := b) h.prompt
  refine ⟨_, completes_lanesDone hfpe (run_of_floatRules hr h), vecOnly_mono w.frame fun _ => And.left, ?_, fun i k ha hk => ?_,
    fun n hn => ?_⟩
  · rw [w.vstat, orAll_of_zero]
    · simp
    · simp [floatLane]
  · exact elemOf_floatRes (w.words i ha (faultOf_of_disabled hfpe _ i)) hk
  · simp only [w.fstat n hn, testBit_floatRes]

theorem laneFloatTraps : LaneFloatTraps := by
  intro r hr f s b m h some_lane hm
  have w := writesResults_floatRes (f := f) (op := r.2) (b := b) h.prompt
  have faults (i : Nat) (hi : i < 32) :
      m.getLsbD i = true ↔ Active s b f.kq i ∧ faultOf b.fpe (floatRes f r.2 b s.me) i = true := by
    simp only [hm i hi, faultOf_iff, testBit_floatRes]
  have quiet (i : Nat) (ha : Active s b f.kq i) : faultOf b.fpe (floatRes f r.2 b s.me) i = m.getLsbD i :=
    Bool.eq_iff_iff.2 (by rw [faults i ha.1, and_iff_right ha])
  obtain ⟨code, run⟩ := traps_lanesDone (run_of_floatRules hr h) some_lane faults
  refine ⟨_, code, run, vecOnly_mono w.frame fun i ⟨ha, hq⟩ => ⟨ha, (quiet i ha).symm.trans hq⟩,
    fun i k ha hq hk => ?_, fun n hn => ?_⟩
  · exact elemOf_floatRes (w.words i ha ((quiet i ha).trans hq)) hk
  · simp only [w.fstat n hn, testBit_floatRes]

end Sys2Proof.Proofs
end

section

namespace Sys2Proof.Proofs

open Sys2Proof.Machine Sys2Proof.Claims Sys2Proof.Laws

/-! ### VFCMP (R129): flags without a register -/

/-- Results without words raise their flags alone. -/
theorem lanesDone_of_no_words (x : Machine.Group) (vd : Nat) (fpe : Word) {g : Nat → LaneRes} (lanes : List Nat)
    (hw : ∀ i, (g i).words = []) (hv : ∀ i, (g i).vstat = 0) :
    lanesDone x vd fpe g lanes = x.orFstat (orAll (lanes.map fun i => (g i).flags)) := by
  have vstat : orAll (lanes.map fun i => (g i).vstat) = 0 := orAll_of_zero (by simp [hv])
  have idle (y : Machine.Group) (l : List Nat) : writeLanes y vd (fun i => (g i).words) l = y :=
    List.foldlRecOn (motive := fun z => z = y) l _ rfl fun z hz i _ => by
      rw [hz]; exact congrArg (y.writeWords vd i) (hw i)
  rw [lanesDone, idle, vstat, orVstat_zero]

/-- The comparisons of lane `i`'s elements, each with its flags. -/
def compares (f : LA) (x : Machine.Group) (i : Nat) : List (Bool × Nat) :=
  (List.range (elemCount f.ty.toNat)).map fun k =>
    fcompare f.sub.toNat ((fmtOf f.ty.toNat).val (elemA f x i k)) ((fmtOf f.ty.toNat).val (elemB f x i k))

/-- What lane `i`'s comparisons raise. -/
def compareRes (f : LA) (x : Machine.Group) (i : Nat) : LaneRes :=
  { words := [], flags := orAll ((compares f x i).map (·.2)), vstat := 0 }

theorem compares_all_iff {f : LA} {x : Machine.Group} {i : Nat} : (compares f x i).all (·.1) = true
    ↔ ∀ k, k < elemCount f.ty.toNat → (fcompare f.sub.toNat ((fmtOf f.ty.toNat).val (elemA f x i k))
        ((fmtOf f.ty.toNat).val (elemB f x i k))).1 = true := by
  simp only [compares, List.all_map, List.all_eq_true, List.mem_range, Function.comp_apply]

/-- The group once VFCMP has written its mask. -/
abbrev compared (f : LA) (s : State) (b : Block) : Machine.Group :=
  s.me.putMask (f.vd.toNat % 16) (s.me.laneMask b f.kq)
    (Machine.maskOf ((lanesOf (s.me.laneMask b f.kq)).filter fun i => (compares f s.me i).all (·.1)))

theorem exec_vfcmp_of_disabled {f : LA} {s : State} {b : Block} (h : Issues (.vfcmp f) f.kq Need.plain s b)
    (hfpe : b.fpe.toNat % 32 = 0) :
    exec (.vfcmp f) s = laneResults (s.me.laneAt b (laneWord (.vfcmp f)) f.kq) 0
      ((lanesOf (s.me.laneMask b f.kq)).map fun i => (i, compareRes f s.me i)) (s.setMe (compared f s b)) := by
  have quiet (lanes : List Nat) : faultingLanes b.fpe (lanes.map fun i => (i, compareRes f s.me i)) = [] := by
    rw [faultingLanes_map, filter_faultOf_of_disabled hfpe]
  have all_lanes : s.me.laneMask b f.kq &&& ~~~(Machine.maskOf []) = s.me.laneMask b f.kq := by
    rw [show ~~~(Machine.maskOf []) = BitVec.allOnes 32 from rfl, BitVec.and_allOnes]
  rw [exec_vfcmp, execVfcmp, runs_of_issues h]
  simp only [List.map_map, List.filter_map]
  show laneResults _ 0 _ (s.setMe (s.me.putMask (f.vd.toNat % 16) (s.me.laneMask b f.kq
      &&& ~~~(Machine.maskOf (faultingLanes b.fpe ((lanesOf (s.me.laneMask b f.kq)).map fun i => (i, compareRes f s.me i)))))
    (Machine.maskOf (((lanesOf (s.me.laneMask b f.kq)).filter fun i => (compares f s.me i).all (·.1)).map id)))) = _
  rw [quiet, all_lanes, List.map_id]
  rfl

theorem vfcmp_replaces_mask (f : LA) (s : State) (b : Block) (h : Issues (.vfcmp f) f.kq Need.plain s b)
    (hfpe : b.fpe.toNat % 32 = 0) :
    ∃ y, Completes (.vfcmp f) f.kq s b y
      ∧ y = { s.me with k := y.k, csr := { s.me.csr with fstat := y.csr.fstat } }
      ∧ (∀ j, j ≠ f.vd.toNat % 16 → y.rk j = s.me.rk j)
      ∧ (∀ i, i < 32 → ((y.rk (f.vd.toNat % 16)).getLsbD i = true ↔
          (¬Active s b f.kq i ∧ (s.me.rk (f.vd.toNat % 16)).getLsbD i = true)
          ∨ (Active s b f.kq i ∧ ∀ k, k < elemCount f.ty.toNat →
              (fcompare f.sub.toNat ((fmtOf f.ty.toNat).val (elemA f s.me i k))
                ((fmtOf f.ty.toNat).val (elemB f s.me i k))).1 = true))) := by
  have late : (compared f s b).lateF = [] := h.prompt.1
  have done := lanesDone_of_no_words (compared f s b) 0 b.fpe (g := compareRes f s.me) (lanesOf (s.me.laneMask b f.kq))
    (fun _ => rfl) fun _ => rfl
  rw [orFstat_of_noLate late] at done
  have masks (j : Nat) : (lanesDone (compared f s b) 0 b.fpe (compareRes f s.me) (lanesOf (s.me.laneMask b f.kq))).rk j
      = (compared f s b).rk j := by rw [done]; rfl
  refine ⟨lanesDone (compared f s b) 0 b.fpe (compareRes f s.me) (lanesOf (s.me.laneMask b f.kq)), ?_, ?_, fun j hj => ?_,
    fun i hi => ?_⟩
  · have quiet := List.isEmpty_iff.2 (filter_faultOf_of_disabled hfpe (g := compareRes f s.me) (lanesOf (s.me.laneMask b f.kq)))
    refine (exec_vfcmp_of_disabled h hfpe).trans ((laneResults_eq _ 0 _ _ _).trans ((if_pos quiet).trans ?_))
    rw [me_setMe, setMe_setMe]
    rfl
  · rw [done]; rfl
  · exact (masks j).trans (rk_wk_other _ _ hj)
  · rw [masks, compared, getLsbD_putMask_active s.me _ _ s b f.kq hi, compares_all_iff]

/-! ### VFCLASS (R134) -/

/-- The floating types have at most two elements in a word. -/
theorem elemCount_le_two {ty : Nat} (h : ty ∈ [4, 5, 6, 7]) : elemCount ty ≤ 2 := by
  revert ty; decide

theorem vfclass_writes_classes (f : LA) (s : State) (b : Block) (h : Issues (.vfclass f) f.kq Need.plain s b) :
    ∃ y, Completes (.vfclass f) f.kq s b y ∧ VecOnly s.me y f.vd.toNat 1 (Active s b f.kq) ∧ y.csr = s.me.csr
      ∧ ∀ i k, Active s b f.kq i → k < elemCount f.ty.toNat → elemAt 16 k (y.rv f.vd.toNat i).toNat
          = (fmtOf f.ty.toNat).classMask ((fmtOf f.ty.toNat).val (elemA f s.me i k)) % 2 ^ 16 := by
  obtain ⟨ty, -, -⟩ := laForm_ok (show (laForm f _ _ _ _ _ _ _ _ _ _).ok = true from h.fields)
  have two := elemCount_le_two ty
  obtain ⟨y, w⟩ := exists_writesWords (fun x i => [BitVec.ofNat 32 (joinElems 16 ((List.range (elemCount f.ty.toNat)).map
      fun k => (fmtOf f.ty.toNat).classMask ((fmtOf f.ty.toNat).val (elemA f x i k))))])
    (fun _ => rfl) ((exec_vfclass f s).trans (runs_of_issues h _))
  refine ⟨y, w.completes, w.frame, w.csr, fun i k ha hk => ?_⟩
  have word := w.words i ha 0 Nat.one_pos
  rw [Nat.add_zero, List.getD_cons_zero] at word
  rw [word, BitVec.toNat_ofNat, elemAt_mod (by omega), elemAt_joinElems (by simpa using hk)]
  simp only [List.getElem_map, List.getElem_range]

/-! ### VFSCALE (R135) -/

/-- Lane `i`'s result of VFSCALE. -/
def scaleRes (f : LA) (b : Block) (x : Machine.Group) (i : Nat) : LaneRes :=
  let rs := (List.range (elemCount f.ty.toNat)).map fun k => (fmtOf f.ty.toNat).scaleB (modeRule f b) (ditherRule f x i k)
    ((fmtOf f.ty.toNat).val (elemA f x i k)) (scaleCount f x i k)
  { words := resultWords f.ty.toNat (joinElems (elemBits f.ty.toNat) (rs.map (·.bits))), flags := orAll (rs.map (·.flags)),
    vstat := 0 }

theorem vfscale_writes_elements (f : LA) (s : State) (b : Block) (h : Issues (.vfscale f) f.kq (rounds f) s b)
    (hfpe : b.fpe.toNat % 32 = 0) :
    ∃ y, Completes (.vfscale f) f.kq s b y ∧ VecOnly s.me y f.vd.toNat (wideOf f.ty.toNat) (Active s b f.kq)
      ∧ ∀ i k, Active s b f.kq i → k < elemCount f.ty.toNat → elemOf y f.ty.toNat f.vd.toNat i k
          = ((fmtOf f.ty.toNat).scaleB (modeRule f b) (ditherRule f s.me i k)
              ((fmtOf f.ty.toNat).val (elemA f s.me i k)) (scaleCount f s.me i k)).bits % 2 ^ elemBits f.ty.toNat := by
  have w := writesResults_lanesDone (b := b) (kq := f.kq) (vd := f.vd.toNat) (g := scaleRes f b s.me) h.prompt
    fun _ => length_resultWords _ _
  refine ⟨_, completes_lanesDone (f := scaleRes f b) hfpe ((exec_vfscale f s).trans (runs_of_issues h _)),
    vecOnly_mono w.frame fun _ => And.left, fun i k ha hk => ?_⟩
  rw [elemOf_of_elements (w.words i ha (faultOf_of_disabled hfpe _ i)) (by simp) hk]
  simp only [List.getElem_map, List.getElem_range]

/-! ### VCVT (R137) -/

theorem joinElems_words (n v : Nat) : joinElems 32 ((List.range n).map fun k => v / 2 ^ (32 * k) % 2 ^ 32) = v % 2 ^ (32 * n) := by
  induction n generalizing v with
  | zero => simp [joinElems, Nat.mod_one]
  | succ n ih =>
    have tail : (List.range n).map ((fun k => v / 2 ^ (32 * k) % 2 ^ 32) ∘ Nat.succ)
        = (List.range n).map fun k => v / 2 ^ 32 / 2 ^ (32 * k) % 2 ^ 32 :=
      List.map_congr_left fun k _ => by
        rw [Function.comp_apply, Nat.div_div_eq_div_mul, ← Nat.pow_add, Nat.mul_succ, Nat.add_comm]
    rw [List.range_succ_eq_map, List.map_cons, List.map_map, joinElems, tail, ih, Nat.mul_zero, Nat.pow_zero, Nat.div_one,
      Nat.mod_mod, Nat.mul_succ, Nat.add_comm (32 * n), Nat.pow_add, Nat.mod_mul]

theorem wideValue_of_splitWords {y : Machine.Group} {r n i v : Nat}
    (h : ∀ k, k < n → y.rv (r + k) i = (splitWords n v).getD k 0) : y.wideValue r n i = v % 2 ^ (32 * n) := by
  rw [Group.wideValue, ← joinElems_words]
  refine congrArg _ (List.map_congr_left fun k hk => ?_)
  have hk := List.mem_range.1 hk
  rw [h k hk, splitWords, List.getD_eq_getElem?_getD, List.getElem?_map, List.getElem?_range hk, Option.map_some,
    Option.getD_some, BitVec.toNat_ofNat]

theorem exists_perWord_eq_two_pow (ty : Nat) : ∃ e, perWord ty = 2 ^ e := by
  unfold perWord
  split
  · exact ⟨1, rfl⟩
  · split
    · exact ⟨2, rfl⟩
    · exact ⟨0, rfl⟩

theorem perWord_dvd_max (src dst : Nat) : perWord dst ∣ max (perWord src) (perWord dst) := by
  obtain ⟨m, hm⟩ := exists_perWord_eq_two_pow src
  obtain ⟨n, hn⟩ := exists_perWord_eq_two_pow dst
  rw [hm, hn]
  rcases Nat.le_total (2 ^ m) (2 ^ n) with h | h
  · exact ⟨1, (Nat.max_eq_right h).trans (Nat.mul_one _).symm⟩
  · rw [Nat.max_eq_left h]
    exact Nat.pow_dvd_pow 2 ((Nat.pow_le_pow_iff_right (by decide)).1 h)

/-- The registers of the destination hold exactly its elements. -/
theorem cvtRegs_bits (f : LA) : 32 * f.cvtRegs (f.sub.toNat % 16) = elemBits (f.sub.toNat % 16) * f.cvtCount := by
  obtain ⟨c, hc⟩ := perWord_dvd_max f.ty.toNat (f.sub.toNat % 16)
  have words : elemBits (f.sub.toNat % 16) * f.cvtCount = 32 * (wideOf (f.sub.toNat % 16) * c) := by
    rw [LA.cvtCount, hc, ← Nat.mul_assoc, ← Nat.mul_assoc, ← elemBits_mul_elemCount]; rfl
  rw [LA.cvtRegs, Nat.mul_comm f.cvtCount, words, Nat.mul_div_cancel_left _ (by decide)]

/-- The conversion of element `e` of lane `i`. -/
abbrev cvtElem (f : LA) (b : Block) (x : Machine.Group) (i e : Nat) : Cvt :=
  convertElem f.ty.toNat (f.sub.toNat % 16) (modeRule f b) (slotDither f x i e) f.sat
    (elemAt (elemBits f.ty.toNat) e (x.wideValue f.va.toNat (f.cvtRegs f.ty.toNat) i))

/-- Lane `i`'s result of VCVT. -/
def cvtRes (f : LA) (b : Block) (x : Machine.Group) (i : Nat) : LaneRes :=
  let rs := (List.range f.cvtCount).map (cvtElem f b x i)
  { words := splitWords (f.cvtRegs (f.sub.toNat % 16)) (joinElems (elemBits (f.sub.toNat % 16)) (rs.map (·.bits))),
    flags := orAll (rs.map (·.flags)), vstat := if rs.any (·.sat) then vstatSat else 0 }

/-- Some element of an active lane was clamped. -/
def CvtClamped (f : LA) (s : State) (b : Block) : Prop :=
  ∃ i e, Active s b f.kq i ∧ e < f.cvtCount ∧ (cvtElem f b s.me i e).sat = true

section

variable {f : LA} {s : State} {b : Block}

theorem cvtRes_vstat (i : Nat) : (cvtRes f b s.me i).vstat = 0 ∨ (cvtRes f b s.me i).vstat = 1 := by
  show (if _ then 1 else 0) = 0 ∨ (if _ then 1 else 0) = 1
  split <;> simp

theorem cvtRes_vstat_eq_one_iff (i : Nat) :
    (cvtRes f b s.me i).vstat = 1 ↔ ∃ e, e < f.cvtCount ∧ (cvtElem f b s.me i e).sat = true := by
  show (if _ then 1 else 0) = 1 ↔ _
  simp

/-- VSTAT.SAT is raised exactly where an element was clamped. -/
theorem orAll_cvtRes_vstat [Decidable (CvtClamped f s b)] :
    orAll ((lanesOf (s.me.laneMask b f.kq)).map fun i => (cvtRes f b s.me i).vstat) = if CvtClamped f s b then 1 else 0 := by
  rw [orAll_eq_ite Nat.one_ne_zero fun a ha => by
    obtain ⟨i, -, rfl⟩ := List.mem_map.1 ha
    exact cvtRes_vstat i]
  refine ite_congr (propext ?_) (fun _ => rfl) fun _ => rfl
  simp only [List.mem_map, mem_lanesOf_laneMask, cvtRes_vstat_eq_one_iff, CvtClamped, exists_and_left]

end

theorem vcvt_converts_elements (f : LA) (s : State) (b : Block) (h : Issues (.vcvt f) f.kq (rounds f) s b)
    (hfpe : b.fpe.toNat % 32 = 0) :
    ∃ y, Completes (.vcvt f) f.kq s b y ∧ VecOnly s.me y f.vd.toNat (f.cvtRegs (f.sub.toNat % 16)) (Active s b f.kq)
      ∧ (∀ i e, Active s b f.kq i → e < f.cvtCount →
          elemAt (elemBits (f.sub.toNat % 16)) e (y.wideValue f.vd.toNat (f.cvtRegs (f.sub.toNat % 16)) i)
            = (cvtElem f b s.me i e).bits % 2 ^ elemBits (f.sub.toNat % 16))
      ∧ (CvtClamped f s b → y.csr.vstat = s.me.csr.vstat ||| 1) ∧ (¬CvtClamped f s b → y.csr.vstat = s.me.csr.vstat) := by
  classical
  have w := writesResults_lanesDone (b := b) (kq := f.kq) (vd := f.vd.toNat) (g := cvtRes f b s.me)
    (n := f.cvtRegs (f.sub.toNat % 16)) h.prompt fun _ => (List.length_map _).trans List.length_range
  refine ⟨_, completes_lanesDone (f := cvtRes f b) hfpe ((exec_vcvt f s).trans (runs_of_issues h _)),
    vecOnly_mono w.frame fun _ => And.left, fun i e ha he => ?_, fun out => ?_, fun out => ?_⟩
  · have inside : elemBits (f.sub.toNat % 16) * (e + 1) ≤ 32 * f.cvtRegs (f.sub.toNat % 16) := by
      rw [cvtRegs_bits]; exact Nat.mul_le_mul_left _ he
    rw [wideValue_of_splitWords (w.words i ha (faultOf_of_disabled hfpe _ i)), elemAt_mod inside,
      elemAt_joinElems (by simpa using he)]
    simp only [List.getElem_map, List.getElem_range]
  · rw [w.vstat, orAll_cvtRes_vstat, if_pos out]
    rfl
  · rw [w.vstat, orAll_cvtRes_vstat, if_neg out]
    exact BitVec.or_zero

theorem laneFloatOthers : LaneFloatOthers :=
  ⟨vfcmp_replaces_mask, fun f s b h _ => vfclass_writes_classes f s b h, vfscale_writes_elements, vcvt_converts_elements⟩

/-- Settles O40: results and flags, the traps that FPE enables, and the instructions with rules of their own. -/
theorem laneFloats : Obligations.LaneFloats := ⟨laneFloatResults, laneFloatTraps, laneFloatOthers⟩

end Sys2Proof.Proofs
end
